-- ==== Sys2Proof/Word.lean ====
section
/-! DEFINITION. The byte and the two plain containers every part of the model is written over. -/
namespace Sys2Proof

/-- A byte of an object, a frame or a digest. -/
abbrev Byte := BitVec 8

/-- A byte string, byte 0 first (R14: least-significant byte first for the Q96's own structures). -/
abbrev Bytes := List Byte

/-- A table keyed by a number, its entries in ascending key order; an unlisted key has no entry. -/
abbrev Tbl (α : Type) := List (Nat × α)

end Sys2Proof
end

