-- ==== Sys2Proof/Syntax.lean ====
section
/-!
DEFINITION. The commands of the block: one constructor per row of the table of operations and events. A command is a
write or read of the dictionary or of a register, a message or frame that arrives, or one whole step of a sequencer.
The table gives a row no operand fields: the operands below are the values the row's rule takes from outside (an
address, a value, a measured quantity, the bytes of a message).
-/
namespace Sys2Proof

/-- The path a dictionary request arrives on (R356): slot `slot` of the mailbox of a PCIe port, or the field network
from a station address. -/
inductive Path where
  | mailbox (port slot : Nat)
  | field (src : Nat)
deriving DecidableEq, Repr

/-- Who makes a dictionary request: its path, the SERVICE bit of its header and its TRANSACTION (R349). -/
structure Req where
  path    : Path
  service : Bool
  trans   : Nat
deriving DecidableEq, Repr

/-- What a WRITE addresses (R344): a dictionary object with the type code sent, or a register of a port's BAR0. -/
inductive WriteTarget where
  | dict (rq : Req) (index sub type : Nat)
  | bar0 (port offset : Nat)
deriving DecidableEq, Repr

/-- A message of the links as it reaches the receiving engine: the fields of its header (R285) and its payload. -/
structure Msg where
  src       : Nat
  entry     : Nat
  msgId     : Nat
  take      : Nat
  offset    : Nat
  format    : Nat
  descCheck : Nat
  reserved  : Bool
  payload   : Bytes
deriving DecidableEq, Repr

/-- One module as the SPD and training of its channel report it (R475, R476): absent, or its kind, capacity in GiB,
highest speed in MT/s, whether the SPD could be read and whether the channel trained. -/
structure Module where
  present  : Bool
  mrdimm   : Bool
  gib      : Nat
  speed    : Nat
  spdRead  : Bool
  trained  : Bool
deriving DecidableEq, Repr

/-- One thing a checked read can find, in a scrub pass, a move, a layer's update or a tile operation (R253, R256, R265, R273):
an uncorrectable fast-tier unit of an object; uncorrectable data units of one slow-tier line (how many, and the number R252
gives the first); an uncorrectable parity unit of a line; a CRC mismatch of a block of an object; an uncorrectable word of a
cluster's SRAM arrays or of the hub's; or a number of corrected errors. -/
inductive ScrubFinding where
  | fastUnit (handle : Nat)
  | slowUnits (lapidary units unit : Nat)
  | parityUnit (lapidary line : Nat)
  | crc (handle block : Nat)
  | clusterSram (die cluster cause : Nat)
  | hubSram
  | correctedFast (n : Nat)
  | correctedSlow (n : Nat)
  | correctedSram (n : Nat)
deriving DecidableEq, Repr

/-- What a command works on, by number (a stage, a Lapidary, an object), and what its checked reads find there. -/
structure CheckedRead where
  subject : Nat
  found   : List ScrubFinding
deriving DecidableEq, Repr

/-- A stream descriptor's object, and the probes of the stream keys formed a second time at its opening (R235), each by its
binding. -/
structure Opening where
  handle : Nat
  formed : List (Nat × Nat)
deriving DecidableEq, Repr

/-- The commands, in the order of the table. -/
inductive Instr where
  | write (target : WriteTarget) (value : Bytes)
  | readStaged (rq : Req) (index sub type : Nat)
  | segReadInit (rq : Req) (index sub type : Nat)
  | segReadNext (rq : Req) (index sub type segment : Nat)
  | segWriteInit (rq : Req) (index sub type length : Nat)
  | segWriteNext (rq : Req) (index sub type segment : Nat) (last : Bool) (value : Bytes)
  | segAbort (rq : Req) (index sub : Nat)
  | segTransferTimeout (path : Path)
  | authChallenge (rq : Req)
  | authResponse (rq : Req) (value : Bytes)
  | authEnd (rq : Req)
  | serviceIdleExpiry (path : Path)
  | doorbell (port slot value : Nat)
  | mailboxRequestService
  | slotStateFree (port slot value : Nat)
  | fieldPduFrame (src : Nat) (broadcast : Bool) (frame : Bytes)
  | heartbeat
  | fieldHeartbeatRx (src nodeId : Nat)
  | conductorToken (rq : Req) (value : Nat)
  | conductorLapse
  | stageHold (rq : Req) (value : Nat)
  | runControlArm (rq : Req)
  | armPromotionsSettled
  | armPeerWaitExpiry
  | runControlStart (rq : Req)
  | runControlStop (rq : Req)
  | stopComplete
  | stageBind (rq : Req) (handle : Nat)
  | stageUnbind (rq : Req) (handle : Nat)
  | streamOpen (rq : Req) (handle : Opening)
  | streamClose (rq : Req) (stream : Nat)
  | streamCloseComplete (stream : Nat)
  | streamClear (rq : Req) (stream : Nat)
  | streamGrant (rq : Req) (port value : Nat)
  | versionPublish (rq : Req) (value : Nat)
  | versionDigestFormed (layer : Nat)
  | objectCreate (rq : Req) (value : Nat)
  | objectCreatePlaced (index : Nat)
  | objectDelete (rq : Req) (handle : Nat)
  | objectPin (rq : Req) (handle : Nat)
  | objectUnpin (rq : Req) (handle : Nat)
  | objectMove (rq : Req) (value : Nat)
  | linkRetrain (rq : Req) (link : Nat)
  | collectiveStart (rq : Req) (entry : Nat)
  | logConsumed (rq : Req) (offset : Nat)
  | clockResume (rq : Req) (value : Nat)
  | clockResumeDone
  | refSelect (rq : Req) (domain value : Nat)
  | gateOpen (rq : Req)
  | gateHold (rq : Req)
  | gateHeld (node : Nat)
  | powerRequestP1 (rq : Req)
  | powerRequestP2 (rq : Req)
  | powerRequestP3 (rq : Req)
  | dvfsRequest (rq : Req) (die level : Nat)
  | dvfsLevelChange (die : Nat)
  | avsbusVoltageReached (die : Nat)
  | arithPllSlewDone (die : Nat)
  | avsbusConfirmTimeout (die : Nat)
  | fwUpdate (rq : Req) (value : Nat)
  | fwUpdateDone (readBackSame : Bool)
  | preferredSlot (rq : Req) (value : Nat)
  | rollbackCommit (rq : Req) (value : Nat) (blownA blownB : Nat)
  | debugUnlock (rq : Req) (value : Nat)
  | deviceReset (rq : Req) (value : Nat)
  | warmReset (nodeId feedId : Nat)
  | clusterDrain (rq : Req)
  | drainComplete
  | clusterTest (rq : Req)
  | clusterTestDone (pass : Bool)
  | clusterReturn (rq : Req)
  | tvRun (rq : Req) (value : Nat)
  | tvRunDone
  | liveUpdate (rq : Req) (value : Nat)
  | liveUpdateDone
  | batchRing (rq : Req) (port handle : Nat)
  | evqConfig (rq : Req) (queue value : Nat)
  | dmaQueueEnable (port queue control : Nat)
  | dmaQueueDisable (port queue control : Nat)
  | sqTail (port queue tail : Nat) (descriptors : List Nat)
  | cqHead (port queue head : Nat)
  | nop (port queue : Nat)
  | toObject (port queue : Nat) (hostBytes : Bytes)
  | toHost (port queue : Nat)
  | zero (port queue : Nat)
  | descriptorComplete (port queue : Nat)
  | bar2Read (port aperture offset length : Nat)
  | bar2Write (port aperture offset : Nat) (value : Bytes)
  | bar2WaitExpiry (port : Nat)
  | evqPop (port queue : Nat)
  | evqArm (port queue : Nat)
  | evqClearUnderrun (port queue : Nat)
  | pcieLinkDown (port : Nat)
  | pcieLinkUp (port rate width : Nat) (flit : Bool)
  | pcieHotReset (port : Nat)
  | pcieFlr (port : Nat)
  | perstNDeassert (port : Nat)
  | ringProducer (port handle count : Nat)
  | ringConsumer (port handle count : Nat)
  | getVersion (port : Nat)
  | getCapabilities (port : Nat)
  | negotiateAlgorithms (port asymAlgos hashAlgos : Nat)
  | getDigests (port : Nat)
  | getCertificate (port slot offset length : Nat)
  | challenge (port slot : Nat) (signingInput : Bytes)
  | getMeasurements (port index : Nat) (signed : Bool) (signingInput : Bytes)
  | spdmUnsupportedRequest (port code : Nat)
  | takeAdmission
  | inputSampleTake (stage : Nat)
  | vectorProgramRow (stage token : Nat)
  | quantiseRow (stage token : Nat)
  | clipBlockQuantise (stage block : Nat)
  | fwdTileOpIssue (stage outTile tokenBlock : Nat)
  | fwdTileOpComplete (stage : CheckedRead)
  | sideTileOpComplete (stage outTile tokenBlock : Nat)
  | dailiesReferenceComplete (stage : Nat)
  | gradientLineReceive (stage : Nat)
  | igradTileOpComplete (stage inTile tokenBlock : Nat)
  | wgradItemComplete (core : Nat)
  | recomputePass (stage : Nat)
  | stashDeadlineMiss (stage : Nat)
  | localHealthLatch
  | verdictUp (m : Msg) (early : Bool)
  | verdictDown (m : Msg)
  | logRecordWrite
  | layerUpdate (lapidary : CheckedRead)
  | workingCopyPublish (lapidary : Nat)
  | flitReceive (link : Nat) (flit : Bytes)
  | retryLimitReached (link : Nat)
  | linkUcwLimit (link : Nat)
  | linkTrained (link : Nat)
  | linkTrainTimeout (link : Nat)
  | identity (link rank port seed : Nat)
  | contribution (m : Msg)
  | result (m : Msg)
  | msgAck (src msgId : Nat)
  | msgResendTimeout (dest msgId : Nat)
  | live (src : Nat)
  | liveSend
  | peerTimeout (rank : Nat)
  | stillHello (m : Msg)
  | stillBlock (m : Msg)
  | stillTraceBlock (m : Msg)
  | stillManifest (m : Msg)
  | stillEnd (m : Msg)
  | stillAbort (m : Msg)
  | restoreRequest (m : Msg)
  | stillAck (m : Msg)
  | translationMiss (stage handle offset : Nat) (isWrite : Bool)
  | moveSettle (handle : CheckedRead)
  | holdLimitExpiry (handle waiter : Nat)
  | weightDeadlineMiss (stage stallUs : Nat)
  | workingCopyRebuild (handle : Nat)
  | channelLivenessRead (channel : Nat) (answered : Bool)
  | channelUeLimit (channel : Nat)
  | scrubPass (seconds : Nat) (found : List ScrubFinding)
  | scrubOverdue (seconds : Nat)
  | residencyEpochTick
  | clusterFault (die cluster cause : Nat)
  | substitutionComplete
  | partHeartbeatMiss (part : Nat)
  | hbmPatternCheck (stack : Nat) (answered : Bool)
  | d2dModuleRetire (moduleIx : Nat)
  | alertPulseEnd
  | riskHoldExpiry (source : Nat)
  | generatorProbe (probes : List (Nat × Nat))
  | lockstepMismatch
  | mgmtWatchdogExpiry
  | mgmtRestartComplete
  | qualificationWindow (present : List Bool) (ab al bl p0 p1 aon : Nat)
  | clockMonitorFire (ref cause : Nat)
  | pmbusPoll (microvoltAmps : Nat)
  | supplyUndervoltage (rail below nominal : Nat)
  | pwrGoodFall (bit : Nat)
  | regulatorRecoveryExpiry (rail : Nat)
  | pwrGoodRise (bit : Nat)
  | pgTimeout
  | powerSequenceDelay
  | wakeReq (samples : Nat)
  | porNRelease (nodeId feedId : Nat)
  | porNAssert
  | vddAonDetect (millivolts : Nat)
  | bootSlotChecked
  | d2dTrainingDone (trained : Nat)
  | hbmTrainingDone (trained : Nat)
  | ddrTrainingDone (modules : List Module)
  | selfTestDone (failedClusters failedDies failedLapidaries : Nat)
  | readiness
  | governorTick
  | dieSensorSample (milliC : List (List Int)) (hbmMilliC : List Int)
  | thermistorSample (inMilliOhm outMilliOhm : Nat)
  | coolantEnvelope
  | coolantHeatCheck
  | flowPulse (spanUs : Nat)
  | flowTimeout
  | servingSampleAdmission (stream : Nat)
  | outputEntryWrite (stream : Nat)
  | batchIntervalExpiry (port : Nat)
  | batchEntryWrite (port : Nat)
  | flitSlot (link : Nat)
  | fuseDualRead
  | slowTierZeroed (lapidary : Nat)
  | coreDmaGranule (stage transfer : Nat)
  | retentionSave
  | gateOpeningDone (node : Nat)
deriving DecidableEq, Repr

end Sys2Proof
end

