-- ==== Sys2Proof/Decode.lean ====
section
/-!
DEFINITION. Words of the table of operations. The table gives no row any bits (its rows are operations and events, not
encodings), so no word spells a command.
-/
namespace Sys2Proof

/-- The command a word of the table spells: none. -/
def decodeTableWord (_nbits _w : Nat) : Option Instr := none

end Sys2Proof
end

