-- ==== Sys2Proof/Machine/Bits.lean ====
section
/-!
DEFINITION. Bit fields, byte order and the plain tables: what every other file of the machine reads and writes its data
with. R12 numbers bits from the least significant; R14 stores multi-byte fields least-significant byte first.
-/
namespace Sys2Proof.Machine

/-- The field of `n` bits of `v` whose least significant bit is bit `lo` (R12). -/
def bits (v lo n : Nat) : Nat := (v / 2 ^ lo) % 2 ^ n

/-- Bit `i` of `v`. -/
def bit (v i : Nat) : Bool := v.testBit i

/-- `v` with the field of `n` bits from bit `lo` replaced by `x`. -/
def putBits (v lo n x : Nat) : Nat :=
  v % 2 ^ lo + (x % 2 ^ n) * 2 ^ lo + (v / 2 ^ (lo + n)) * 2 ^ (lo + n)

/-- `v` with bit `i` set to `b`. -/
def putBit (v i : Nat) (b : Bool) : Nat := putBits v i 1 b.toNat

/-- Bit `i` set. -/
def setBit (v i : Nat) : Nat := v ||| 2 ^ i

/-- Bit `i` cleared. -/
def clearBit (v i : Nat) : Nat := putBits v i 1 0

/-- A field packed into a word at bit `lo` (R12): the words of the layout tables are sums of these. -/
def fld (x lo : Nat) : Nat := x * 2 ^ lo

/-- The number of bits set among the low `n` bits. -/
def popCount (v : Nat) : Nat → Nat
  | 0 => 0
  | n + 1 => popCount v n + (bit v n).toNat

/-- The positions below `n` at which `v` has a bit set, lowest first. -/
def bitsSet (v n : Nat) : List Nat := (List.range n).filter (bit v)

/-- The number a two's complement field of `n` bits holds. -/
def toSigned (n v : Nat) : Int :=
  if bit v (n - 1) then (v % 2 ^ n : Nat) - (2 ^ n : Nat) else (v % 2 ^ n : Nat)

/-- The two's complement field of `n` bits that holds `z`. -/
def ofSigned (n : Nat) (z : Int) : Nat := (z % (2 ^ n : Nat)).toNat

/-- The number a byte string holds, least-significant byte first (R14). -/
def leNat : Bytes → Nat
  | [] => 0
  | b :: bs => b.toNat + 256 * leNat bs

/-- The `n` bytes of a number, least-significant byte first (R14). -/
def leBytes : Nat → Nat → Bytes
  | 0, _ => []
  | n + 1, v => BitVec.ofNat 8 v :: leBytes n (v / 256)

/-- The number a byte string holds, most-significant byte first: the order of the external standards (R14). -/
def beNat (b : Bytes) : Nat := leNat b.reverse

/-- The `n` bytes of a number, most-significant byte first. -/
def beBytes (n v : Nat) : Bytes := (leBytes n v).reverse

/-- `n` bytes of a string from byte `off`; bytes beyond its end read as zero. -/
def slice (b : Bytes) (off n : Nat) : Bytes :=
  let s := (b.drop off).take n
  s ++ List.replicate (n - s.length) 0

/-- The little-endian field of `n` bytes at byte `off`. -/
def leAt (b : Bytes) (off n : Nat) : Nat := leNat (slice b off n)

/-! ### Tables -/

/-- The entry of a key. -/
def tget {α : Type} : Tbl α → Nat → Option α
  | [], _ => none
  | (k, v) :: t, x => if k = x then some v else tget t x

/-- The entry of a key, or a stated value where the table has none. -/
def tgetD {α : Type} (t : Tbl α) (x : Nat) (d : α) : α := (tget t x).getD d

/-- The table with the entry of a key set, in ascending key order. -/
def tset {α : Type} : Tbl α → Nat → α → Tbl α
  | [], x, v => [(x, v)]
  | (k, w) :: t, x, v =>
    if k = x then (x, v) :: t
    else if x < k then (x, v) :: (k, w) :: t
    else (k, w) :: tset t x v

/-- The table without a key. -/
def tdel {α : Type} (t : Tbl α) (x : Nat) : Tbl α := t.filter (fun e => e.1 != x)

/-- The keys of a table. -/
def tkeys {α : Type} (t : Tbl α) : List Nat := t.map (·.1)

/-- An entry changed where it is present. -/
def tmod {α : Type} (t : Tbl α) (x : Nat) (f : α → α) : Tbl α :=
  match tget t x with
  | some v => tset t x (f v)
  | none => t

/-- A list with the element at `i` changed. -/
def lmod {α : Type} : List α → Nat → (α → α) → List α
  | [], _, _ => []
  | a :: l, 0, f => f a :: l
  | a :: l, i + 1, f => a :: lmod l i f

/-- A list with the element at `i` replaced. -/
def lset {α : Type} (l : List α) (i : Nat) (a : α) : List α := lmod l i (fun _ => a)

/-- The numbers `a, a+1, …, a+n−1`. -/
def rangeFrom (a n : Nat) : List Nat := (List.range n).map (a + ·)

/-- Ceiling division. -/
def ceilDiv (a b : Nat) : Nat := (a + b - 1) / b

end Sys2Proof.Machine
end

