-- ==== Sys2Proof/Machine/Num.lean ====
section
/-!
DEFINITION. The number formats (chapter 02): the value every code has, the single rounding of an exact value into a
format (R66 to R73), quantisation (R74, R75), FP32 arithmetic and the correctly rounded functions of R217. An exact
value is a sign with a numerator and a denominator, so nothing is rounded before its one rounding.
-/
namespace Sys2Proof.Machine

/-- The exact value a code stands for: a NaN (signalling or quiet), an infinity, or a sign with a magnitude `num / den`
(a signed zero has `num = 0`). -/
inductive Val where
  | nan (signalling : Bool)
  | inf (neg : Bool)
  | fin (neg : Bool) (num den : Nat)
deriving DecidableEq, Repr

/-- The sticky flags of R70 as a 4-bit word in the order of R82 and R172: overflow, underflow, inexact, invalid. -/
abbrev Flags := Nat

def Flags.overflow : Flags := 1
def Flags.underflow : Flags := 2
def Flags.inexact : Flags := 4
def Flags.invalid : Flags := 8

/-- The outcome of converting one element (R73). -/
inductive ConvOutcome where
  | none
  | nonFinite
  | saturation
  | vanishing
  | zero
deriving DecidableEq, Repr

/-- One conversion or arithmetic result: the code written, the flags it sets and its outcome. -/
structure Conv where
  code    : Nat
  flags   : Flags
  outcome : ConvOutcome
deriving DecidableEq, Repr

/-- The rounding of R67: to nearest even, or stochastically with the element's 16-bit generator value (R68). -/
inductive Rounding where
  | rne
  | sr (r : Nat)
deriving DecidableEq, Repr

/-! ### Format codes (R49) -/

namespace Fmt
def fp32 : Nat := 0x00
def bf16 : Nat := 0x01
def fp16 : Nat := 0x02
def e4m3 : Nat := 0x03
def e5m2 : Nat := 0x04
def e2m1 : Nat := 0x05
def int32 : Nat := 0x10
def int16 : Nat := 0x11
def int12 : Nat := 0x12
def int8 : Nat := 0x13
def int4 : Nat := 0x14
def int3 : Nat := 0x15
def int2 : Nat := 0x16
def ternary : Nat := 0x17
def binary : Nat := 0x18
def cb16 : Nat := 0x19
def uint16 : Nat := 0x1A
def uint12 : Nat := 0x1B
def uint8 : Nat := 0x1C
def uint4 : Nat := 0x1D
def uint3 : Nat := 0x1E
def uint2 : Nat := 0x1F
def none : Nat := 0xFF
end Fmt

/-- The width in bits of a format (R49); 0 for a reserved code and for NONE. -/
def fmtBits (f : Nat) : Nat :=
  if f ≤ 0x05 then [32, 16, 16, 8, 8, 4].getD f 0
  else if 0x10 ≤ f ∧ f ≤ 0x1F then [32, 16, 12, 8, 4, 3, 2, 2, 1, 4, 16, 12, 8, 4, 3, 2].getD (f - 0x10) 0
  else 0

/-- A code the table of R49 lists, NONE apart; the others are reserved (R50). -/
def fmtKnown (f : Nat) : Bool := f ≤ 0x05 || (0x10 ≤ f && f ≤ 0x1F)

/-- A floating-point format (R52). -/
def fmtIsFloat (f : Nat) : Bool := f ≤ 0x05

/-- An unsigned format, used with a zero point (R49). -/
def fmtIsUnsigned (f : Nat) : Bool := 0x1A ≤ f && f ≤ 0x1F

/-- A format whose codes are integers: not a float and not a codebook index. -/
def fmtIsInt (f : Nat) : Bool := 0x10 ≤ f && f ≤ 0x1F && f != Fmt.cb16

/-- The parameters of a floating-point format (R52): exponent bits, fraction bits, bias, the code of the largest finite
magnitude and the canonical NaN. -/
structure FloatParams where
  expBits : Nat
  man     : Nat
  bias    : Nat
  maxCode : Nat
  nanCode : Nat
deriving DecidableEq, Repr

/-- The table of R52. E2M1 has no NaN: its entry is the +0 that R72 writes for one. -/
def floatParams (f : Nat) : FloatParams :=
  if f = Fmt.fp32 then ⟨8, 23, 127, 0x7F7F_FFFF, 0x7FC0_0000⟩
  else if f = Fmt.bf16 then ⟨8, 7, 127, 0x7F7F, 0x7FC0⟩
  else if f = Fmt.fp16 then ⟨5, 10, 15, 0x7BFF, 0x7E00⟩
  else if f = Fmt.e4m3 then ⟨4, 3, 7, 0x7E, 0x7F⟩
  else if f = Fmt.e5m2 then ⟨5, 2, 15, 0x7B, 0x7E⟩
  else ⟨2, 1, 1, 0x7, 0⟩

/-- A format that has an infinity (R52). -/
def fmtHasInf (f : Nat) : Bool := f = Fmt.fp32 || f = Fmt.bf16 || f = Fmt.fp16 || f = Fmt.e5m2

/-- The exact value of a floating-point code (R52, R54: only FP32, BF16 and FP16 have signalling NaNs). -/
def floatVal (f code : Nat) : Val :=
  let p := floatParams f
  let neg := bit code (p.expBits + p.man)
  let e := bits code p.man p.expBits
  let m := bits code 0 p.man
  let top := 2 ^ p.expBits - 1
  if f = Fmt.e4m3 ∧ e = top ∧ m = 7 then .nan false
  else if fmtHasInf f ∧ e = top then
    if m = 0 then .inf neg
    else .nan (f ≤ 0x02 && !bit m (p.man - 1))
  else
    let (num, ex) := if e = 0 then (m, 1) else (2 ^ p.man + m, e)
    -- value num × 2^(ex − bias − man)
    if p.bias + p.man ≤ ex then .fin neg (num * 2 ^ (ex - (p.bias + p.man))) 1
    else .fin neg num (2 ^ (p.bias + p.man - ex))

/-- A code the Q96 may write in a format (R57, R58): in place of TERNARY's 0b10 and of the lowest code of a signed format
it writes 0. -/
def legalCode (f code : Nat) : Nat :=
  let c := code % 2 ^ fmtBits f
  if f = Fmt.ternary then (if c = 2 then 0 else c)
  else if fmtIsInt f && !fmtIsUnsigned f && f != Fmt.binary && c == 2 ^ (fmtBits f - 1) then 0
  else c

/-- The integer a code of an integer format has (R56, R57): raw for an unsigned format, sign and magnitude for TERNARY,
±1 for BINARY. -/
def intVal (f code : Nat) : Int :=
  let b := fmtBits f
  let c := code % 2 ^ b
  if f = Fmt.ternary then (if bit c 0 then (if bit c 1 then -1 else 1) else 0)
  else if f = Fmt.binary then (if c = 1 then 1 else -1)
  else if fmtIsUnsigned f then c
  else toSigned b c

/-- The code of an integer in an integer format (R57: TERNARY never writes 0b10). -/
def intCode (f : Nat) (v : Int) : Nat :=
  if f = Fmt.ternary then (if v = 0 then 0 else if v < 0 then 3 else 1)
  else if f = Fmt.binary then (if v < 0 then 0 else 1)
  else ofSigned (fmtBits f) v

/-- The lowest and highest integer the Q96 writes in a format (R58). -/
def intRange (f : Nat) : Int × Int :=
  let b := fmtBits f
  if f = Fmt.ternary ∨ f = Fmt.binary then (-1, 1)
  else if fmtIsUnsigned f then (0, (2 ^ b : Nat) - 1)
  else (1 - (2 ^ (b - 1) : Nat), (2 ^ (b - 1) : Nat) - 1)

/-! ### Rounding an exact magnitude -/

/-- The floor of the base-2 logarithm of `n / d` (both positive). -/
def log2Floor (n d : Nat) : Int :=
  let e : Int := (Nat.log2 n : Int) - (Nat.log2 d : Int)
  -- n/d lies in (2^(e-1), 2^(e+1))
  if e ≥ 0 then (if n ≥ d * 2 ^ e.toNat then e else e - 1)
  else (if n * 2 ^ (-e).toNat ≥ d then e else e - 1)

/-- The whole multiple `n / d` is rounded to, with whether it was inexact (R67, R68). -/
def roundWhole (mode : Rounding) (n d : Nat) : Nat × Bool :=
  let q := n / d
  let r := n % d
  if r = 0 then (q, false)
  else match mode with
    | .rne => (if 2 * r > d ∨ (2 * r = d ∧ q % 2 = 1) then q + 1 else q, true)
    | .sr x => (if x < r * 65536 / d then q + 1 else q, true)

/-- `num / den` scaled by `2^z`, as a pair. -/
def scale2 (num den : Nat) (z : Int) : Nat × Nat :=
  if z ≥ 0 then (num * 2 ^ z.toNat, den) else (num, den * 2 ^ (-z).toNat)

/-- An exact value rounded once into a floating-point format (R66 to R73). -/
def toFloat (f : Nat) (mode : Rounding) (v : Val) : Conv :=
  let p := floatParams f
  let sgn := 2 ^ (p.expBits + p.man)
  match v with
  | .nan sig =>
    if f = Fmt.e2m1 then ⟨0, Flags.invalid, .nonFinite⟩
    else ⟨p.nanCode, if sig then Flags.invalid else 0, .nonFinite⟩
  | .inf neg =>
    if fmtHasInf f then ⟨(if neg then sgn else 0) + (2 ^ p.expBits - 1) * 2 ^ p.man, 0, .nonFinite⟩
    else if f = Fmt.e4m3 then ⟨0x7F, Flags.invalid, .nonFinite⟩
    else ⟨(if neg then sgn else 0) + p.maxCode, Flags.invalid, .nonFinite⟩
  | .fin neg num den =>
    let s := if neg then sgn else 0
    if num = 0 then ⟨s, 0, .zero⟩
    else
      let e := log2Floor num den
      let emin : Int := 1 - (p.bias : Int)
      let e' := if e < emin then emin else e
      -- one unit in the last place is 2^(e' − man)
      let (n1, d1) := scale2 num den ((p.man : Int) - e')
      let (m, inx) := roundWhole mode n1 d1
      let code := ((e' + p.bias - 1).toNat) * 2 ^ p.man + m
      let unf := if e < emin ∧ inx then Flags.underflow else 0
      if code > p.maxCode then
        if f = Fmt.fp32 ∨ f = Fmt.bf16 then
          ⟨s + (2 ^ p.expBits - 1) * 2 ^ p.man, Flags.overflow ||| Flags.inexact, .nonFinite⟩
        else ⟨s + p.maxCode, Flags.overflow ||| Flags.inexact, .saturation⟩
      else
        ⟨s + code, unf ||| (if inx then Flags.inexact else 0), if code = 0 then .vanishing else .none⟩

/-- The exact value of a code of any format, an unsigned code read with its zero point `z` (R56, R57, R75). -/
def codeVal (f code z : Nat) : Val :=
  if fmtIsFloat f then floatVal f code
  else
    let i := intVal f code - (z : Int)
    .fin (i < 0) i.natAbs 1

/-! ### FP32 arithmetic: each operation rounds its exact result once, to nearest even (R66, R217) -/

/-- A signalling operand sets the invalid flag (R54). -/
def sigFlag : Val → Flags
  | .nan true => Flags.invalid
  | _ => 0

/-- The sum of two exact values; an exact zero takes the sign of IEEE 754 (R55). The flag is an invalid operation. -/
def Val.add : Val → Val → Val × Flags
  | .nan a, .nan b => (.nan false, sigFlag (.nan a) ||| sigFlag (.nan b))
  | .nan a, _ => (.nan false, sigFlag (.nan a))
  | _, .nan b => (.nan false, sigFlag (.nan b))
  | .inf a, .inf b => if a = b then (.inf a, 0) else (.nan false, Flags.invalid)
  | .inf a, _ => (.inf a, 0)
  | _, .inf b => (.inf b, 0)
  | .fin sa na da, .fin sb nb db =>
    let x : Int := (if sa then -(na * db : Nat) else (na * db : Nat))
    let y : Int := (if sb then -(nb * da : Nat) else (nb * da : Nat))
    let z := x + y
    if z = 0 then (.fin (sa && sb) 0 1, 0)
    else (.fin (z < 0) z.natAbs (da * db), 0)

/-- The negated value. -/
def Val.neg : Val → Val
  | .nan s => .nan s
  | .inf s => .inf (!s)
  | .fin s n d => .fin (!s) n d

/-- The product of two exact values; 0 × ∞ is invalid. -/
def Val.mul : Val → Val → Val × Flags
  | .nan a, .nan b => (.nan false, sigFlag (.nan a) ||| sigFlag (.nan b))
  | .nan a, _ => (.nan false, sigFlag (.nan a))
  | _, .nan b => (.nan false, sigFlag (.nan b))
  | .inf a, .inf b => (.inf (a != b), 0)
  | .inf a, .fin sb nb _ => if nb = 0 then (.nan false, Flags.invalid) else (.inf (a != sb), 0)
  | .fin sa na _, .inf b => if na = 0 then (.nan false, Flags.invalid) else (.inf (sa != b), 0)
  | .fin sa na da, .fin sb nb db => (.fin (sa != sb) (na * nb) (da * db), 0)

/-- The quotient of two exact values; 0 / 0 and ∞ / ∞ are invalid. A finite value over zero is an infinity, and the
flags of R70 have none for it. -/
def Val.div : Val → Val → Val × Flags
  | .nan a, .nan b => (.nan false, sigFlag (.nan a) ||| sigFlag (.nan b))
  | .nan a, _ => (.nan false, sigFlag (.nan a))
  | _, .nan b => (.nan false, sigFlag (.nan b))
  | .inf _, .inf _ => (.nan false, Flags.invalid)
  | .inf a, .fin sb _ _ => (.inf (a != sb), 0)
  | .fin sa _ _, .inf b => (.fin (sa != b) 0 1, 0)
  | .fin sa na da, .fin sb nb db =>
    if nb = 0 then (if na = 0 then (.nan false, Flags.invalid) else (.inf (sa != sb), 0))
    else (.fin (sa != sb) (na * db) (da * nb), 0)

/-- The integer square root, bit by bit from bit `i − 1` down. -/
def isqrtFrom (n : Nat) : Nat → Nat → Nat
  | 0, r => r
  | i + 1, r =>
    let r' := r + 2 ^ i
    isqrtFrom n i (if r' * r' ≤ n then r' else r)

/-- The integer square root. -/
def isqrt (n : Nat) : Nat := isqrtFrom n (Nat.log2 n / 2 + 1) 0

/-- The square root of a positive `num / den`: exact where it is rational with denominator `den × 2^64`, otherwise a
value between the same neighbours at that precision, so that its one rounding is that of the exact root. -/
def sqrtFrac (num den : Nat) : Nat × Nat :=
  let n := num * den * 2 ^ 128
  let r := isqrt n
  if r * r = n then (r, den * 2 ^ 64) else (2 * r + 1, den * 2 ^ 65)

/-- The square root of a value; of a negative number it is invalid, and −0 keeps its sign. -/
def Val.sqrt : Val → Val × Flags
  | .nan a => (.nan false, sigFlag (.nan a))
  | .inf neg => if neg then (.nan false, Flags.invalid) else (.inf false, 0)
  | .fin neg n d =>
    if n = 0 then (.fin neg 0 1, 0)
    else if neg then (.nan false, Flags.invalid)
    else let (a, b) := sqrtFrac n d; (.fin false a b, 0)

/-- `1 / sqrt`, rounded once as one function (R217). -/
def Val.rsqrt : Val → Val × Flags
  | .nan a => (.nan false, sigFlag (.nan a))
  | .inf neg => if neg then (.nan false, Flags.invalid) else (.fin false 0 1, 0)
  | .fin neg n d =>
    if n = 0 then (.inf neg, 0)
    else if neg then (.nan false, Flags.invalid)
    else let (a, b) := sqrtFrac d n; (.fin false a b, 0)

/-! ### exp, log and erf (R217): computed to 256 bits, then rounded once -/

/-- 2^256, the fixed point of the series. -/
def fixOne : Nat := 2 ^ 256

/-- ln 2 at the fixed point. -/
def fixLn2 : Nat := 80260960185991308862233904206310070533990667611589946606122867505419956976171

/-- 2 / √π at the fixed point. -/
def fixTwoOverSqrtPi : Nat :=
  130657381209852114387528029350014196574164286124850014242073919076264802271585

/-- `Σ x^i / i!` from the term `t = x^i / i!` on, `x` below 1. -/
def expSeries (x : Nat) : Nat → Nat → Nat → Nat
  | 0, _, _ => 0
  | fuel + 1, i, t => t + expSeries x fuel (i + 1) (t * x / fixOne / (i + 1))

/-- `exp (n / d)` for a value of either sign, as a fraction; `k` is the power of two taken out. -/
def expFrac (neg : Bool) (n d : Nat) : Nat × Nat :=
  let x : Int := if neg then -((n * fixOne / d : Nat) : Int) else ((n * fixOne / d : Nat) : Int)
  let k : Int := x / (fixLn2 : Int)
  let r : Nat := (x - k * (fixLn2 : Int)).toNat
  scale2 (expSeries r 64 0 fixOne) fixOne k

/-- exp (R217). Beyond magnitude 128 the result overflows or vanishes in FP32 whatever its exact value. -/
def Val.exp : Val → Val × Flags
  | .nan a => (.nan false, sigFlag (.nan a))
  | .inf neg => if neg then (.fin false 0 1, 0) else (.inf false, 0)
  | .fin neg n d =>
    if n = 0 then (.fin false 1 1, 0)
    else if n ≥ 128 * d then
      (if neg then .fin false 1 (2 ^ 184) else .fin false (2 ^ 184) 1, 0)
    else let (a, b) := expFrac neg n d
      -- an argument below the fixed point's resolution still moves the result off 1
      if a = b then (if neg then .fin false (2 ^ 200 - 1) (2 ^ 200) else .fin false (2 ^ 200 + 1) (2 ^ 200), 0)
      else (.fin false a b, 0)

/-- `Σ z^(2i+1) / (2i+1)` with `p = z^(2i+1)`. -/
def atanhSeries (z2 : Nat) : Nat → Nat → Nat → Nat
  | 0, _, _ => 0
  | fuel + 1, i, p => p / (2 * i + 1) + atanhSeries z2 fuel (i + 1) (p * z2 / fixOne)

/-- The natural logarithm of a positive `n / d`, as a sign and a numerator over the fixed point. -/
def logFix (n d : Nat) : Int :=
  let e := log2Floor n d
  let (a, b) := scale2 n d (-e)            -- a / b in [1, 2)
  -- above 4/3, halve it, so that the series converges fast and no cancellation is left
  let (e, a, b) := if 3 * a > 4 * b then (e + 1, a, 2 * b) else (e, a, b)
  let neg := a < b
  let num := if neg then b - a else a - b
  let z := num * fixOne / (a + b)
  let s := 2 * atanhSeries (z * z / fixOne) 90 0 z
  e * (fixLn2 : Int) + (if neg then -(s : Int) else (s : Int))

/-- log (R217): of a zero −∞, of a negative number invalid. -/
def Val.log : Val → Val × Flags
  | .nan a => (.nan false, sigFlag (.nan a))
  | .inf neg => if neg then (.nan false, Flags.invalid) else (.inf false, 0)
  | .fin neg n d =>
    if n = 0 then (.inf true, 0)
    else if neg then (.nan false, Flags.invalid)
    else if n = d then (.fin false 0 1, 0)
    else let l := logFix n d; (.fin (l < 0) l.natAbs fixOne, 0)

/-- `Σ (2x²)^i / (2i+1)!!` from the term `t` on. -/
def erfSeries (x2 : Nat) : Nat → Nat → Nat → Nat
  | 0, _, _ => 0
  | fuel + 1, i, t => t + erfSeries x2 fuel (i + 1) (t * (2 * x2) / fixOne / (2 * i + 3))

/-- erf (R217). From magnitude 4 on the exact value lies within 2^−25 of ±1. -/
def Val.erf : Val → Val × Flags
  | .nan a => (.nan false, sigFlag (.nan a))
  | .inf neg => (.fin neg 1 1, 0)
  | .fin neg n d =>
    if n = 0 then (.fin neg 0 1, 0)
    else if n ≥ 4 * d then (.fin neg (2 ^ 60 - 1) (2 ^ 60), 0)
    else
      let x2 := n * n * fixOne / (d * d)
      let (ea, eb) := expFrac true (n * n) (d * d)
      let c := fixTwoOverSqrtPi * erfSeries x2 200 0 fixOne / fixOne * ea / eb
      (.fin neg (n * c) (d * fixOne), 0)

/-- The rational square root of `n / d`, `d` a power of two, where there is one. -/
def sqrtExact (n d : Nat) : Option (Nat × Nat) :=
  let (n, d) := if isqrt d * isqrt d = d then (n, d) else (2 * n, 2 * d)
  if isqrt n * isqrt n = n then some (isqrt n, isqrt d) else none

/-- `k` square roots in a row, where each is rational. -/
def rootExact : Nat → Nat → Nat → Option (Nat × Nat)
  | 0, n, d => some (n, d)
  | k + 1, n, d => (sqrtExact n d).bind (fun r => rootExact k r.1 r.2)

/-- `(n / d)^(yn / yd)` where it is rational and FP32 could lie half-way beside it: `yd` a power of two up to 8. -/
def powExact (n d yn yd : Nat) : Option (Nat × Nat) :=
  if yd ≤ 8 ∧ yn ≤ 64 then (rootExact (Nat.log2 yd) n d).map (fun r => (r.1 ^ yn, r.2 ^ yn)) else none

/-- `x^y`, one function with one rounding (R66): of a negative base invalid. -/
def Val.pow : Val → Val → Val × Flags
  | .nan a, .nan b => (.nan false, sigFlag (.nan a) ||| sigFlag (.nan b))
  | .nan a, _ => (.nan false, sigFlag (.nan a))
  | _, .nan b => (.nan false, sigFlag (.nan b))
  | .inf _, .inf b => (if b then .fin false 0 1 else .inf false, 0)
  | .inf a, .fin sb nb _ =>
    if nb = 0 then (.fin false 1 1, 0) else if a then (.nan false, Flags.invalid)
    else (if sb then .fin false 0 1 else .inf false, 0)
  | .fin sa n d, .inf b =>
    if n = d then (.fin false 1 1, 0) else if sa && n != 0 then (.nan false, Flags.invalid)
    else (if decide (n < d) = b then .inf false else .fin false 0 1, 0)
  | .fin sa n d, .fin sb yn yd =>
    if yn = 0 then (.fin false 1 1, 0)
    else if n = 0 then (if sb then .inf false else .fin false 0 1, 0)
    else if sa then (.nan false, Flags.invalid)
    else match powExact n d yn yd with
      | some (a, b) => (if sb then .fin false b a else .fin false a b, 0)
      | none =>
        let l := logFix n d
        Val.exp (.fin (decide (l < 0) != sb) (l.natAbs * yn) (fixOne * yd))

/-- A binary operation of FP32 codes: exact, then rounded once. -/
def f32bin (op : Val → Val → Val × Flags) (a b : Nat) : Nat × Flags :=
  let (v, fl) := op (floatVal Fmt.fp32 a) (floatVal Fmt.fp32 b)
  let c := toFloat Fmt.fp32 .rne v
  (c.code, fl ||| c.flags)

/-- A unary operation of FP32 codes. -/
def f32un (op : Val → Val × Flags) (a : Nat) : Nat × Flags :=
  let (v, fl) := op (floatVal Fmt.fp32 a)
  let c := toFloat Fmt.fp32 .rne v
  (c.code, fl ||| c.flags)

def fadd (a b : Nat) : Nat := (f32bin Val.add a b).1
def fsub (a b : Nat) : Nat := (f32bin (fun x y => Val.add x y.neg) a b).1
def fmul (a b : Nat) : Nat := (f32bin Val.mul a b).1
def fdiv (a b : Nat) : Nat := (f32bin Val.div a b).1
def fsqrt (a : Nat) : Nat := (f32un Val.sqrt a).1

/-- An FP32 code is neither a NaN nor an infinity. -/
def fIsFinite (a : Nat) : Bool := bits a 23 8 != 255
/-- An FP32 code is a NaN. -/
def fIsNan (a : Nat) : Bool := bits a 23 8 == 255 && bits a 0 23 != 0
/-- An FP32 code is an infinity. -/
def fIsInf (a : Nat) : Bool := bits a 23 8 == 255 && bits a 0 23 == 0
/-- The magnitude of an FP32 code: codes of finite magnitudes are in the order of their values. -/
def fAbs (a : Nat) : Nat := bits a 0 31
/-- The sign of an FP32 code. -/
def fNeg (a : Nat) : Bool := bit a 31
/-- The negated code. -/
def fNegate (a : Nat) : Nat := if bit a 31 then a - 2 ^ 31 else a + 2 ^ 31

/-- `a < b` for finite FP32 codes, −0 equal to +0 (R55). -/
def flt (a b : Nat) : Bool :=
  match fNeg a, fNeg b with
  | false, false => fAbs a < fAbs b
  | true, true => fAbs b < fAbs a
  | true, false => fAbs a != 0 || fAbs b != 0
  | false, true => false
/-- `a ≤ b` for finite FP32 codes. -/
def fle (a b : Nat) : Bool := !flt b a
def fmax (a b : Nat) : Nat := if flt a b then b else a
def fmin (a b : Nat) : Nat := if flt b a then b else a

/-- A whole number as an FP32 code, rounded to nearest even. -/
def fOfInt (z : Int) : Nat := (toFloat Fmt.fp32 .rne (.fin (z < 0) z.natAbs 1)).code
/-- A fraction as an FP32 code, rounded to nearest even. -/
def fOfFrac (n d : Nat) : Nat := (toFloat Fmt.fp32 .rne (.fin false n d)).code
/-- 2^e as an FP32 code. -/
def fPow2 (e : Int) : Nat := let (n, d) := scale2 1 1 e; fOfFrac n d
/-- The FP32 code 1.0. -/
def fOne : Nat := 0x3F80_0000
/-- The canonical NaN of FP32 (R52). -/
def fNaN : Nat := 0x7FC0_0000

/-- A value of an FP32 code converted into another format. -/
def convF32 (f : Nat) (mode : Rounding) (x : Nat) : Conv := toFloat f mode (floatVal Fmt.fp32 x)

/-- A code of a floating-point format as an FP32 code; every such conversion is exact (R211). -/
def toF32 (f code : Nat) : Nat := (toFloat Fmt.fp32 .rne (floatVal f code)).code

/-- The flags reading a code as an operand sets: a signalling NaN is invalid (R54). -/
def readFlags (f code : Nat) : Flags := if fmtIsFloat f then sigFlag (floatVal f code) else 0

/-- A result of FP32 bits that no arithmetic rounds (a sign, a magnitude): a NaN is the canonical one (R54). -/
def fCanon (x : Nat) : Nat := if fIsNan x then fNaN else x
/-- `|x|` as a result (R196). -/
def fAbsOf (x : Nat) : Nat := fCanon (fAbs x)
/-- `−x` as a result (R196). -/
def fNegOf (x : Nat) : Nat := fCanon (fNegate x)

/-! ### Quantisation (R74) and dequantisation (R75) -/

/-- An FP32 value's nearest integers under a rounding (stage 2 of R74): the integer and whether it was inexact. -/
def roundInt (mode : Rounding) (neg : Bool) (n d : Nat) : Int × Bool :=
  let (q, inx) := roundWhole mode n d
  (if neg then -(q : Int) else (q : Int), inx)

/-- What a non-finite input becomes in an integer format (R72). Where an invalid scale word's ZERO_POINT is no code of its format,
the code of a NaN is the low bits of z: the text gives none (DESIGN CHOICE, log entry 120). -/
def quantNonFinite (f z : Nat) (v : Val) : Nat :=
  let (lo, hi) := intRange f
  match v with
  | .nan _ => if f = Fmt.binary then 1 else if f = Fmt.ternary then 0 else if fmtIsUnsigned f then z else 0
  | .inf neg => if neg then intCode f lo else intCode f hi
  | .fin _ _ _ => 0

/-- Quantising an FP32 value with scale `s` and zero point `z` into an integer format (R74, R72, R73). BINARY takes the
sign rule of R201, and is inexact where the value is not ±s. -/
def quantise (f : Nat) (mode : Rounding) (s z x : Nat) : Conv :=
  let xv := floatVal Fmt.fp32 x
  match xv with
  | .nan sig => ⟨quantNonFinite f z (.nan sig), Flags.invalid, .nonFinite⟩
  | .inf neg => ⟨quantNonFinite f z (.inf neg), Flags.invalid, .nonFinite⟩
  | .fin neg num _ =>
    if f = Fmt.binary then
      ⟨if num ≠ 0 ∧ neg then 0 else 1, if bits x 0 31 = bits s 0 31 then 0 else Flags.inexact, .none⟩
    else
    let (v, fl) := f32bin Val.div x s
    let (lo, hi) := intRange f
    match floatVal Fmt.fp32 v with
    | .inf ng => ⟨intCode f (if ng then lo else hi), Flags.overflow ||| Flags.inexact, .saturation⟩
    | .nan _ => ⟨quantNonFinite f z (.nan false), Flags.invalid, .nonFinite⟩
    | .fin ng n d =>
      let (i, inx) := roundInt mode ng n d
      let c := i + z
      let c' := if c < lo then lo else if c > hi then hi else c
      let flags := fl ||| (if inx ∨ c ≠ c' then Flags.inexact else 0)
                      ||| (if c ≠ c' then Flags.overflow else 0)
      let oc := if c ≠ c' then ConvOutcome.saturation
                else if c' = z then (if num = 0 then .zero else .vanishing) else .none
      ⟨intCode f c', flags &&& (15 - Flags.underflow), oc⟩

/-- Dequantising (R75): `s × (q − z)` in FP32. -/
def dequantise (f s z code : Nat) : Nat × Flags :=
  let (v, fl) := Val.mul (floatVal Fmt.fp32 s) (codeVal f code z)
  let c := toFloat Fmt.fp32 .rne v
  (c.code, fl ||| c.flags)

/-- A saturating INT32 accumulator (R76): the value held and whether it saturated. -/
def satInt32 (v : Int) : Int × Bool :=
  if v > 2147483647 then (2147483647, true)
  else if v < -2147483648 then (-2147483648, true)
  else (v, false)

/-! ### Scale words (R61, R62) -/

/-- SCALE, ZERO_POINT, SEQ_TAG and FORMAT of a scale word. -/
structure ScaleWord where
  scale : Nat
  zero  : Nat
  tag   : Nat
  fmt   : Nat
  rsvd  : Nat
deriving DecidableEq, Repr

def ScaleWord.ofNat (w : Nat) : ScaleWord := ⟨bits w 0 32, bits w 32 16, bits w 48 6, bits w 56 8, bits w 54 2⟩
def ScaleWord.toNat (w : ScaleWord) : Nat :=
  fld w.scale 0 + fld w.zero 32 + fld w.tag 48 + fld w.rsvd 54 + fld w.fmt 56

/-- Step 1 of R62: FORMAT and SEQ_TAG equal those of the block. -/
def ScaleWord.matches (w : ScaleWord) (fmt tag : Nat) : Bool := w.fmt == fmt && w.tag == tag

/-- Step 2 of R62: SCALE positive and finite, ZERO_POINT in range, bits [55:54] zero. -/
def ScaleWord.valid (w : ScaleWord) : Bool :=
  !fNeg w.scale && fIsFinite w.scale && w.scale != 0 && w.rsvd == 0 &&
    (if fmtIsUnsigned w.fmt then w.zero < 2 ^ fmtBits w.fmt else w.zero == 0)

/-! ### Element packing (R59) -/

/-- Element `i` of an element-packed string of a `b`-bit format. -/
def packedGet (s : Bytes) (b i : Nat) : Nat :=
  let lo := i * b
  bits (leAt s (lo / 8) ((b + 14) / 8)) (lo % 8) b

/-- The elements of a string packed (R59), any bits left over 0. -/
def packBits (b : Nat) (xs : List Nat) : Bytes :=
  let n := xs.foldr (fun x acc => x % 2 ^ b + 2 ^ b * acc) 0
  leBytes (ceilDiv (xs.length * b) 8) n

/-- The `n` elements of a packed string. -/
def unpackBits (b n : Nat) (s : Bytes) : List Nat := (List.range n).map (packedGet s b)

/-! ### Block exponents and block lines (R63 to R65) -/

/-- The smallest `k` with `n / d ≤ 2^k`. -/
def log2Ceil (n d : Nat) : Int :=
  let e := log2Floor n d
  let (a, b) := scale2 n d (-e)
  if a = b then e else e + 1

/-- The block exponent R65 chooses for FP32 values and an element format. -/
def blockExp (f : Nat) (xs : List Nat) : Nat :=
  let amax := (xs.filter fIsFinite).foldl (fun m x => max m (fAbs x)) 0
  if amax = 0 then 127
  else match floatVal Fmt.fp32 amax with
    | .fin _ n d =>
      let m := if f = Fmt.e5m2 then 57344 else 6
      let x : Int := 127 + log2Ceil n (d * m)
      if x < 0 then 0 else if x > 254 then 254 else x.toNat
    | _ => 127

/-- The elements of a block divided by `2^(X − 127)`, which is exact, and converted. -/
def blockElem (f : Nat) (mode : Rounding) (ex x : Nat) : Conv :=
  match floatVal Fmt.fp32 x with
  | .fin neg n d =>
    let (a, b) := scale2 n d (127 - (ex : Int))
    toFloat f mode (.fin neg a b)
  | v => toFloat f mode v

/-- The result of encoding one block: its exponent, its codes with flags and outcomes, and whether R65 wrote it as
non-finite (X = 255). -/
structure BlockEnc where
  exp       : Nat
  elems     : List Conv
  nonFinite : Bool
deriving DecidableEq, Repr

/-- Encoding a block of FP32 values (R65), each element with its rounding. -/
def blockEncode (f : Nat) (xs : List (Nat × Rounding)) : BlockEnc :=
  if f = Fmt.e2m1 ∧ xs.any (fun x => !fIsFinite x.1) then
    ⟨255, xs.map (fun _ => ⟨0, Flags.invalid, .nonFinite⟩), true⟩
  else
    let ex := blockExp f (xs.map (·.1))
    ⟨ex, xs.map (fun x => blockElem f x.2 ex x.1), false⟩

/-- An element of a block as FP32 (R63): exact but where it leaves FP32's range or its normal numbers, which rounds once and
sets the flags of R70. -/
def blockConv (f ex code : Nat) : Conv :=
  if ex = 255 then ⟨fNaN, 0, .nonFinite⟩
  else match floatVal f code with
    | .fin neg n d =>
      let (a, b) := scale2 n d ((ex : Int) - 127)
      toFloat Fmt.fp32 .rne (.fin neg a b)
    | v => toFloat Fmt.fp32 .rne v

/-- The FP32 value of an element of a block (R63). -/
def blockDecode (f ex code : Nat) : Nat := (blockConv f ex code).code

/-- Blocks in a line and the elements it can hold (R64). -/
def lineBlocks (f : Nat) : Nat := if f = Fmt.e5m2 then 8 else 16
def lineElems (f : Nat) : Nat := if f = Fmt.e5m2 then 256 else 512

/-- The 32 values cut off block after block. -/
def chunks {α : Type} (k : Nat) : Nat → List α → List (List α)
  | 0, _ => []
  | n + 1, l => if l.isEmpty then [] else l.take k :: chunks k n (l.drop k)

/-- A block line (R64) of up to `lineElems` FP32 values: its 288 bytes, flags, outcomes and how many blocks were
written with exponent 255. -/
structure LineEnc where
  bytes     : Bytes
  flags     : Flags
  outcomes  : List ConvOutcome
  nonFinite : Nat
deriving DecidableEq, Repr

/-- A line encoded. The BLOCK_EXP byte of a block wholly beyond VALID is written as 0: the text gives it no value
(DESIGN CHOICE, log entry 91). -/
def lineEncode (f tag : Nat) (xs : List (Nat × Rounding)) : LineEnc :=
  let bl := (chunks 32 16 xs).map (blockEncode f)
  let codes := (bl.flatMap (fun b => b.elems)).map (·.code)
  let body := packBits (fmtBits f) (codes ++ List.replicate (lineElems f - codes.length) 0)
  let exps := bl.map (fun b => BitVec.ofNat 8 b.exp)
  let side := exps ++ List.replicate (16 - exps.length) 0 ++
    leBytes 16 (fld tag 0 + fld f 8 + fld xs.length 16)
  { bytes := body ++ side,
    flags := bl.foldl (fun a b => b.elems.foldl (fun a c => a ||| c.flags) a) 0,
    outcomes := (bl.flatMap (fun b => b.elems)).map (·.outcome),
    nonFinite := (bl.filter (fun b => b.nonFinite)).length }

/-- The side data of a line: SEQ_TAG, FORMAT and VALID, and whether R64 accepts the line. -/
structure LineSide where
  tag   : Nat
  fmt   : Nat
  valid : Nat
  ok    : Bool
deriving DecidableEq, Repr

def lineSide (line : Bytes) : LineSide :=
  let w := leAt line 272 16
  let f := bits w 8 8
  let v := bits w 16 16
  let resvExp := if f = Fmt.e5m2 then leAt line 264 8 else 0
  { tag := bits w 0 6, fmt := f, valid := v,
    ok := (f == Fmt.e5m2 || f == Fmt.e2m1) && 1 ≤ v && v ≤ lineElems f && bits w 6 2 == 0 &&
      bits w 32 96 == 0 && resvExp == 0 && line.length == 288 }

/-- A line's valid elements converted into FP32 (R63, R64). -/
def lineConvs (line : Bytes) : List Conv :=
  let s := lineSide line
  (List.range s.valid).map (fun i =>
    blockConv s.fmt (leAt line (256 + i / 32) 1) (packedGet line (fmtBits s.fmt) i))

/-- The FP32 values of a line's valid elements (R63, R64). -/
def lineDecode (line : Bytes) : List Nat := (lineConvs line).map (·.code)

/-! ### The generators (R232) -/

/-- Rotation left of a 32-bit word. -/
def rotl32 (x n : Nat) : Nat := ((x <<< n) ||| (x >>> (32 - n))) % 2 ^ 32

/-- The four words of a draw at counter `(a, b)`. -/
structure GenWords where
  x0 : Nat
  x1 : Nat
  x2 : Nat
  x3 : Nat
deriving DecidableEq, Repr

/-- Word `i` of a key of 16 bytes held as a number. -/
def genKeyWord (key i : Nat) : Nat := bits key (32 * i) 32

/-- Round `i` of R232. -/
def genRound (key i : Nat) (w : GenWords) : GenWords :=
  let m := 2 ^ 32
  let x0 := (w.x0 + genKeyWord key (i % 4)) % m
  let x1 := rotl32 (w.x1 ^^^ x0) 7
  let x2 := (w.x2 + x1 + i) % m
  let x3 := rotl32 (w.x3 ^^^ x2) 13
  let x0 := (x0 + x3) % m
  let x1 := rotl32 (x1 ^^^ x0) 17
  let x2 := (x2 + genKeyWord key ((i + 2) % 4)) % m
  let x3 := rotl32 (x3 ^^^ x2) 24
  ⟨x0, x1, x2, x3⟩

/-- A draw at counter `(a, b)`: ten rounds (R232). -/
def genDraw (key a b : Nat) : GenWords :=
  (List.range 10).foldl (fun w i => genRound key i w) ⟨bits a 0 32, bits a 32 32, bits b 0 32, bits b 32 32⟩

/-- A 32-bit draw. -/
def draw32 (key a b : Nat) : Nat := (genDraw key a b).x0
/-- A 16-bit draw, the generator value of R68. -/
def draw16 (key a b : Nat) : Nat := (genDraw key a b).x0 % 65536
/-- The 64 bits the monitor of R235 keeps of a probe. -/
def probe64 (key a b : Nat) : Nat := let w := genDraw key a b; w.x1 * 2 ^ 32 + w.x0

end Sys2Proof.Machine
end

