-- ==== Sys2Proof/Machine/Operands.lean ====
section
/-!
DEFINITION. The operand fields of a stage descriptor (R209 to R216, R86, R115, R136) and of a stream's: each reads the
2,048-byte descriptor as one 16,384-bit number, bit 0 the least significant bit of byte 0.
-/
namespace Sys2Proof.Machine.Desc

/-! Header (R210). -/

def magic (x : Nat) : Nat := bits x 0 32
def version (x : Nat) : Nat := bits x 32 8
def kind (x : Nat) : Nat := bits x 40 2
def opKind (x : Nat) : Nat := bits x 42 3
def lossStage (x : Nat) : Bool := bit x 45
def laneFirst (x : Nat) : Bool := bit x 46
def laneLast (x : Nat) : Bool := bit x 47
def pairTranspose (x : Nat) : Bool := bit x 48
def layer (x : Nat) : Nat := bits x 64 32
def lane (x : Nat) : Nat := bits x 96 6
def inFormat (x : Nat) : Nat := bits x 104 8
def lanePosition (x : Nat) : Nat := bits x 112 16
def logical (x : Nat) : Nat := bits x 128 6
def coreIx (x : Nat) : Nat := bits x 134 3
def storeBase (x : Nat) : Nat := bits x 144 8
def storePages (x : Nat) : Nat := bits x 152 9
def cstoreBase (x : Nat) : Nat := bits x 168 9
def cstorePages (x : Nat) : Nat := bits x 177 9
def tokensMax (x : Nat) : Nat := bits x 192 16

/-! Forward control block (R86). -/

def fwdMode (x : Nat) : Nat := bits x 512 2
def wFormat (x : Nat) : Nat := bits x 520 8
def aFormat (x : Nat) : Nat := bits x 528 8
def aRounding (x : Nat) : Nat := bits x 536 2
def outRounding (x : Nat) : Nat := bits x 538 2
def skipEn (x : Nat) : Bool := bit x 540
def outFp32 (x : Nat) : Bool := bit x 541
def scaleBase (x : Nat) : Nat := bits x 544 12
def outChannels (x : Nat) : Nat := bits x 560 13
def inChannels (x : Nat) : Nat := bits x 576 15
def tokensPerOp (x : Nat) : Nat := bits x 592 10

/-! Vein and scale control block (R115). -/

def veinCount (x : Nat) : Nat := bits x 640 15
def fallbackFormat (x : Nat) : Nat := bits x 656 8
def veinRounding (x : Nat) : Nat := bits x 664 2
def learned (x : Nat) : Bool := bit x 666
def actScaleReg (x : Nat) : Nat := bits x 672 12
def clipLimit (x : Nat) : Nat := bits x 688 16
def veinList (x : Nat) : Nat := bits x 704 32
def veinWeight (x : Nat) : Nat := bits x 736 32
def fallbackObject (x : Nat) : Nat := bits x 768 32
def outlierLimit (x : Nat) : Nat := bits x 800 32
def clipBlock (x : Nat) : Nat := bits x 832 10

/-! Backward control block (R136). -/

def bwdMode (x : Nat) : Nat := bits x 896 2
def wExpandScale (x : Nat) : Bool := bit x 898
def anchor (x : Nat) : Bool := bit x 899
def wgrad (x : Nat) : Bool := bit x 900
def igrad (x : Nat) : Bool := bit x 901
def gRounding (x : Nat) : Nat := bits x 904 2
def xRounding (x : Nat) : Nat := bits x 906 2
def wRounding (x : Nat) : Nat := bits x 908 2
def trackerW (x : Nat) : Nat := bits x 912 16
def trackerX (x : Nat) : Nat := bits x 928 16
def replica (x : Nat) : Nat := bits x 944 8
def expandTable (x : Nat) : Nat := bits x 960 128
def stash (x : Nat) : Nat := bits x 1088 32
def wgradAcc (x : Nat) : Nat := bits x 1120 32

/-! Tensors and objects (R212). -/

def inTensor (x : Nat) : Nat := bits x 1152 32
def outTensor (x : Nat) : Nat := bits x 1184 32
def gradTensor (x : Nat) : Nat := bits x 1216 32
def wcObject (x : Nat) : Nat := bits x 1248 32
def paramObject (x : Nat) : Nat := bits x 1280 32
def inputObject (x : Nat) : Nat := bits x 1312 32
def outputObject (x : Nat) : Nat := bits x 1344 32
def targetObject (x : Nat) : Nat := bits x 1376 32

/-! Routing (R213). -/

def joinMode (x : Nat) : Nat := bits x 1664 2
def joinDepth (x : Nat) : Nat := bits x 1672 8

/-! Fetch deadlines (R214). -/

def weightDeadline (x : Nat) : Nat := bits x 1792 32
def stashDeadline (x : Nat) : Nat := bits x 1824 32

/-- SRC_LAYER_0 to SRC_LAYER_3 that name a layer (R213). -/
def sources (x : Nat) : List Nat := ((List.range 4).map (fun i => bits x (0xB0 * 8 + 32 * i) 32)).filter (· != 0xFFFF_FFFF)

/-- DST_LAYER_0 to DST_LAYER_3 that name a layer (R213). -/
def dests (x : Nat) : List Nat := ((List.range 4).map (fun i => bits x (0xB0 * 8 + 128 + 32 * i) 32)).filter (· != 0xFFFF_FFFF)

/-- Generator binding entry `i` (R215): its PURPOSE and TENSOR. -/
def purpose (x i : Nat) : Nat := bits x (0xF0 * 8 + 128 * i) 8
def genTensor (x i : Nat) : Nat := bits x (0xF0 * 8 + 128 * i + 32) 32
def genReserved (x i : Nat) : Bool := bits x (0xF0 * 8 + 128 * i + 8) 24 != 0 || bits x (0xF0 * 8 + 128 * i + 64) 64 != 0

/-- Operation word `i` of the vector program (R216): OPCODE, ARG, IMM and the reserved bits. -/
def opcode (x i : Nat) : Nat := bits x (0x130 * 8 + 64 * i) 8
def opArg (x i : Nat) : Nat := bits x (0x130 * 8 + 64 * i + 16) 16
def opImm (x i : Nat) : Nat := bits x (0x130 * 8 + 64 * i + 32) 32
def opReserved (x i : Nat) : Nat := bits x (0x130 * 8 + 64 * i + 8) 8

/-- The words of the vector program before END; none where it has no END. -/
def programLength (x : Nat) : Option Nat := (List.range 16).find? (fun i => opcode x i == 0)

/-- DESC_DIGEST and the bytes it covers (R209). -/
def digest (x : Nat) : Nat := bits x (0x7C0 * 8) 512
def covered (x : Nat) : Bytes := leBytes 0x7C0 x

/-- The format of the rows a stage sends on (R86). -/
def outFormat (x : Nat) : Nat := if outFp32 x then Fmt.fp32 else Fmt.bf16

/-- The row length of a stage's output (R211). -/
def rowOut (x : Nat) : Nat := if opKind x = 1 then inChannels x else outChannels x

/-- The codes of OP_KIND, FWD_MODE and BWD_MODE. -/
def linear (x : Nat) : Bool := opKind x == 0
def vector (x : Nat) : Bool := opKind x == 1
def pairwise (x : Nat) : Bool := opKind x == 2
def serving (x : Nat) : Bool := kind x == 1
def side (x : Nat) : Bool := fwdMode x == 2

/-- The engines of R84 a stage uses (R411): 1 forward array, 2 backward array, 4 vein unit. -/
def engines (x : Nat) : List Nat :=
  (if linear x && !side x then [1] else []) ++ (if bwdMode x != 2 then [2] else []) ++
    (if 1 ≤ veinCount x && veinCount x ≤ 128 then [4] else [])

/-- The vein unit works for the stage: 1 to 128 veins (R117). -/
def hasVeins (x : Nat) : Bool := 1 ≤ veinCount x && veinCount x ≤ 128

/-- A reserved field of the descriptor is not 0, or a coded field holds a reserved value (R219). -/
def reservedSet (x : Nat) : Bool :=
  [
   bits x (0 * 8 + 49) 15,
   bits x (0 * 8 + 102) 2,
   bits x (0 * 8 + 137) 7,
   bits x (0 * 8 + 161) 7,
   bits x (0 * 8 + 186) 6,
   bits x (0 * 8 + 208) 304,
   bits x (64 * 8 + 2) 6,
   bits x (64 * 8 + 30) 2,
   bits x (64 * 8 + 44) 4,
   bits x (64 * 8 + 61) 3,
   bits x (64 * 8 + 79) 1,
   bits x (64 * 8 + 90) 38,
   bits x (80 * 8 + 15) 1,
   bits x (80 * 8 + 27) 5,
   bits x (80 * 8 + 44) 4,
   bits x (80 * 8 + 202) 54,
   bits x (112 * 8 + 6) 2,
   bits x (112 * 8 + 14) 2,
   bits x (112 * 8 + 56) 8,
   bits x (176 * 8 + 258) 6,
   bits x (176 * 8 + 272) 112,
   bits x (224 * 8 + 64) 64].any (· != 0) ||
  bits x (0x1B0 * 8) (1552 * 8) != 0 || 2 ≤ kind x || 3 ≤ opKind x || fwdMode x == 3 || bwdMode x == 3 ||
  [aRounding x, outRounding x, veinRounding x, gRounding x, xRounding x, wRounding x].any (fun r => 2 ≤ r) ||
  !(fmtKnown (wFormat x) || wFormat x == Fmt.none) || !fmtKnown (aFormat x) ||
  !([Fmt.int8, Fmt.int12, Fmt.int16, Fmt.uint8, Fmt.uint12, Fmt.uint16, Fmt.none].contains (fallbackFormat x)) ||
  (List.range 4).any (fun i => genReserved x i || !(purpose x i == 0 || (0x10 ≤ purpose x i && purpose x i ≤ 0x14) || purpose x i == 0x20))

end Sys2Proof.Machine.Desc
end

