-- ==== Sys2Proof/Config.lean ====
section
/-!
DEFINITION. The values the text leaves open. Each is a constant without a body: nothing can be proved of it but what
holds whatever it is.
-/
namespace Sys2Proof

/-- How far a late copy of a count has caught up, by the number of the draw (R393: each side sees the other's count late,
never early; DESIGN CHOICE, log entry 3). -/
opaque Config.syncSeen : Nat → Nat

/-- The 32 random bytes of a challenge as a number, by the number of the draw (R357, R458). -/
opaque Config.random : Nat → Nat

/-- How many bytes a compressed 64 KiB block takes, header included: the coding is not in the text (R256; DESIGN CHOICE, log entry
7). -/
opaque Config.oreLength : Bytes → Nat

/-- The code the Lapidary writes at an unused position of a tile: R98 lets those rows hold any codes (DESIGN CHOICE, log entry 19). -/
opaque Config.padCode : Nat → Nat

/-- The base of CB16 in a statistics record's histogram: the table of R170 has no row for it (DESIGN CHOICE, log entry 94). -/
opaque Config.codebookBase : Int

/-- A value the text does not state, by the number of the draw. -/
opaque Config.unstated : Nat → Nat

end Sys2Proof
end

