-- ==== Sys2Proof/Machine/Registry.lean ====
section
/-!
DEFINITION. The object dictionary's rows (R340 to R344, R367): every object of the chapters' own object tables with its
type, length, access, update class, default and the range its chapter states. An object's key is its
"Index.Sub" item of R397: index × 256 + subindex. A value is the number its bytes spell, least-significant byte first.
-/
namespace Sys2Proof.Machine

/-- The accesses of R343. -/
inductive Access where
  | ro
  | rw
  | wo
  | const
deriving DecidableEq, Repr

/-- The update classes of R344. -/
inductive UpdateClass where
  | live
  | take
  | armed
  | boot
  | fused
deriving DecidableEq, Repr

/-- The values an object's chapter accepts, where a range alone states them: every value, a range of numbers, a range or
one number more, one of some numbers, an exponent of −126 to 126, an FP32 range, a positive or a non-negative finite
FP32 value. Anything a chapter states beyond that is a check of the object's own. -/
inductive RangeRule where
  | any
  | nat (lo hi : Nat)
  | natOr (lo hi x : Nat)
  | oneOf (xs : List Nat)
  | int126
  | f32 (lo hi : Nat)
  | f32Pos
  | f32NonNeg
deriving DecidableEq, Repr

/-- One row of the dictionary: an index and its subindices `lo` to `hi`. -/
structure ObjRow where
  index  : Nat
  lo     : Nat
  hi     : Nat
  ty     : Nat
  len    : Nat
  access : Access
  cls    : UpdateClass
  dflt   : Nat
  range  : RangeRule
deriving DecidableEq, Repr

/-! The type codes of R341. -/
namespace Ty
def bool : Nat := 0x01
def u8 : Nat := 0x02
def u16 : Nat := 0x03
def u32 : Nat := 0x04
def u64 : Nat := 0x05
def i32 : Nat := 0x06
def i64 : Nat := 0x07
def f32 : Nat := 0x08
def bits32 : Nat := 0x09
def bits64 : Nat := 0x0A
def str : Nat := 0x0B
def array : Nat := 0x0C
def record : Nat := 0x0D
def blob : Nat := 0x0E
end Ty

/-! The objects' keys by name; the first of a row of several subindices. -/
namespace Obj
def vendorName : Nat := 0x100000
def partNumber : Nat := 0x100001
def stepping : Nat := 0x100002
def serialNumber : Nat := 0x100003
def dictVersion : Nat := 0x100004
def d2dModuleMap : Nat := 0x110000
def d2dRetirements : Nat := 0x110001
def clockStatus : Nat := 0x200000
def clockFaults : Nat := 0x200001
def clockResume : Nat := 0x200002
def refSelect : Nat := 0x200100
def domainState : Nat := 0x200200
def dvfsRequestCd : Nat := 0x201000
def dvfsLevelCd : Nat := 0x201100
def voltTrimCd : Nat := 0x201200
def dvfsSteps : Nat := 0x201300
def gateSelect : Nat := 0x202000
def gateControl : Nat := 0x202001
def gateState : Nat := 0x202002
def powerState : Nat := 0x203000
def powerRequest : Nat := 0x203001
def powerTransition : Nat := 0x203002
def pgTimeoutMs : Nat := 0x203003
def wakeCause : Nat := 0x203004
def retentionUsed : Nat := 0x203100
def supplyStatus : Nat := 0x204000
def supplyWarnings : Nat := 0x204001
def regulatorFaults : Nat := 0x204002
def dirEntries : Nat := 0x300000
def dirUsed : Nat := 0x300001
def objectCreate : Nat := 0x300100
def objectDelete : Nat := 0x300101
def objectPin : Nat := 0x300102
def objectUnpin : Nat := 0x300103
def objectMove : Nat := 0x300104
def dirSelect : Nat := 0x300200
def dirEntry : Nat := 0x300201
def fastFree : Nat := 0x301000
def slowFreeA : Nat := 0x301001
def slowFreeB : Nat := 0x301002
def slowLowWater : Nat := 0x301003
def compressRatioA : Nat := 0x301004
def compressRatioB : Nat := 0x301005
def holdLimitMs : Nat := 0x302000
def channelMap : Nat := 0x303000
def channelUeLimit : Nat := 0x303001
def scrubIntervalH : Nat := 0x303100
def scrubPasses : Nat := 0x303101
def scrubLastPassS : Nat := 0x303102
def faultsNotResident : Nat := 0x304000
def faultsMoving : Nat := 0x304001
def faultsPoisoned : Nat := 0x304002
def faultsProtection : Nat := 0x304003
def promotions : Nat := 0x304100
def demotions : Nat := 0x304101
def bytesMoved : Nat := 0x304102
def evictionsRedirected : Nat := 0x304103
def weightLate : Nat := 0x304200
def weightStallUs : Nat := 0x304201
def correctedFast : Nat := 0x304300
def correctedSlow : Nat := 0x304301
def seamRebuilds : Nat := 0x304302
def linesLost : Nat := 0x304303
def objectsPoisoned : Nat := 0x304304
def objectsLost : Nat := 0x304305
def unitsRetired : Nat := 0x304306
def spaceWaits : Nat := 0x304400
def runControl : Nat := 0x400000
def runState : Nat := 0x400001
def armStatus : Nat := 0x400002
def conductorToken : Nat := 0x400100
def conductorLapseMs : Nat := 0x400101
def stageHold : Nat := 0x400200
def takeNumber : Nat := 0x401000
def versionGateWaits : Nat := 0x401001
def jobSeed : Nat := 0x402000
def generatorBindings : Nat := 0x402001
def generatorBindingsMax : Nat := 0x402002
def stageListObject : Nat := 0x403000
def stageCount : Nat := 0x403001
def stageBind : Nat := 0x403100
def stageUnbind : Nat := 0x403101
def boundStages : Nat := 0x403102
def placementMap : Nat := 0x403200
def laneOccupancy : Nat := 0x404000
def streamOpen : Nat := 0x405000
def streamClose : Nat := 0x405001
def streamClear : Nat := 0x405002
def streamSelect : Nat := 0x405003
def streamState : Nat := 0x405004
def streamsOpen : Nat := 0x405005
def streamGrant0 : Nat := 0x405100
def streamGrant1 : Nat := 0x405101
def versionsMax : Nat := 0x406000
def pinnedVersionWaits : Nat := 0x406001
def versionPublish : Nat := 0x406002
def formatSupport : Nat := 0x500000
def testVectorVersion : Nat := 0x500001
def scaleSkewCount : Nat := 0x500100
def invalidScaleCount : Nat := 0x500101
def nonfiniteBlockCount : Nat := 0x500102
def fwdSkipForceOff : Nat := 0x501000
def fwdOperations : Nat := 0x501001
def fwdPlanesSkipped : Nat := 0x501002
def fwdGroupWaits : Nat := 0x501003
def quantRowMax : Nat := 0x501004
def codebookRoundings : Nat := 0x501005
def veinPasses : Nat := 0x502000
def veinExtraPasses : Nat := 0x502001
def outlierRows : Nat := 0x502002
def veinUnitLimit : Nat := 0x502003
def fallbackLayers : Nat := 0x502100
def fallbackDenied : Nat := 0x502101
def stashesReleased : Nat := 0x502102
def fallbackFirstDenied : Nat := 0x502103
def clipRescaleK1 : Nat := 0x503001
def clipRescaleK2 : Nat := 0x503002
def clipRescaleK3 : Nat := 0x503003
def clipRescaleK4 : Nat := 0x503004
def clipSaturated : Nat := 0x503005
def satAlarmPpm : Nat := 0x503006
def satAlarmTensors : Nat := 0x503007
def learnedScaleClamps : Nat := 0x503008
def bwdOperations : Nat := 0x504000
def deferredItems : Nat := 0x504001
def deferredForced : Nat := 0x504002
def deferredHighWater : Nat := 0x504003
def deferredDepth : Nat := 0x504004
def trackerTableObject : Nat := 0x504100
def trackerCount : Nat := 0x504101
def gradScaleExp : Nat := 0x504200
def gradScaleGrowth : Nat := 0x504201
def gradScaleOnDiscard : Nat := 0x504202
def gradScaleMinExp : Nat := 0x504203
def gradScaleMaxExp : Nat := 0x504204
def gradScaleCleanRun : Nat := 0x504205
def gradScaleFloorHits : Nat := 0x504206
def recomputePasses : Nat := 0x504300
def stashLate : Nat := 0x504301
def firstAnchorStalls : Nat := 0x504302
def statsObject : Nat := 0x505000
def statsSlots : Nat := 0x505001
def statsRecordCount : Nat := 0x505002
def statsRecordsMax : Nat := 0x505003
def statsOverwrites : Nat := 0x505004
def dailiesEvery : Nat := 0x506000
def dailiesThreshold : Nat := 0x506001
def dailiesAlarmPpm : Nat := 0x506002
def dailiesMinTiles : Nat := 0x506003
def dailiesEnable : Nat := 0x506004
def dailiesTilesTotal : Nat := 0x506005
def dailiesOverTotal : Nat := 0x506006
def dailiesAlarms : Nat := 0x506007
def trapsTotal : Nat := 0x507000
def trapNext : Nat := 0x507001
def trapRecord : Nat := 0x507100
def discardPolicy : Nat := 0x508000
def retakeLimit : Nat := 0x508001
def earlyCut : Nat := 0x508002
def discards : Nat := 0x508003
def prints : Nat := 0x508004
def consecutiveRetakes : Nat := 0x508005
def earlyCuts : Nat := 0x508006
def healthWord : Nat := 0x530000
def localHealth : Nat := 0x530001
def healthTake : Nat := 0x530002
def servingNonfinite : Nat := 0x530003
def verdictStaleDrops : Nat := 0x530004
def groupTableObject : Nat := 0x600000
def groupCount : Nat := 0x600001
def layerTableObject : Nat := 0x600002
def layerCount : Nat := 0x600003
def scratchA : Nat := 0x601000
def scratchB : Nat := 0x601001
def curvePointsMax : Nat := 0x610000
def programOpsMax : Nat := 0x610001
def stepMultiplier : Nat := 0x620000
def layerUpdatesA : Nat := 0x630000
def layerUpdatesB : Nat := 0x630001
def paramsUpdated : Nat := 0x630002
def updateBacklogWaits : Nat := 0x630003
def lastCompleteTakeA : Nat := 0x630004
def lastCompleteTakeB : Nat := 0x630005
def matrixOpsLapidary : Nat := 0x630006
def matrixOpsSide : Nat := 0x630007
def logObject : Nat := 0x700000
def logWriteOffset : Nat := 0x700001
def logConsumed : Nat := 0x700002
def logHead : Nat := 0x700003
def logSequence : Nat := 0x700004
def logFullWaits : Nat := 0x700005
def recipeDigest : Nat := 0x700006
def replayLogObject : Nat := 0x701000
def replayUntil : Nat := 0x701001
def replayState : Nat := 0x701002
def replayReruns : Nat := 0x701003
def stillState : Nat := 0x710000
def stillLatestTake : Nat := 0x710001
def stillBaseTake : Nat := 0x710002
def stillBasePeriod : Nat := 0x710003
def stillsCompleted : Nat := 0x710004
def stillsSkipped : Nat := 0x710005
def stillsFailed : Nat := 0x710006
def stillsUnprotected : Nat := 0x710007
def forcedSends : Nat := 0x710008
def traceMinBlocks : Nat := 0x710009
def traceMaxChangePpm : Nat := 0x71000A
def stillRestore : Nat := 0x711000
def stillRestoreTake : Nat := 0x711001
def doubleAssign : Nat := 0x720000
def stillStoreObject : Nat := 0x720001
def doubleOf : Nat := 0x720002
def feedId : Nat := 0x720003
def doubleFeedId : Nat := 0x720004
def doubleState : Nat := 0x720005
def riskLevel : Nat := 0x730000
def riskPoints : Nat := 0x730001
def riskFloor : Nat := 0x730002
def riskNeighbour : Nat := 0x730003
def riskCePerHour : Nat := 0x730004
def stillCadence : Nat := 0x730005
def retiredClusters : Nat := 0x740000
def substitutions : Nat := 0x740004
def lostUnits : Nat := 0x740005
def replaceRequest : Nat := 0x7F0000
def jobRank : Nat := 0x800000
def jobSize : Nat := 0x800001
def verdictFanout : Nat := 0x800002
def peerHeartbeatUs : Nat := 0x800003
def peerTimeoutUs : Nat := 0x800004
def armPeerWaitMs : Nat := 0x800005
def peersLost : Nat := 0x800006
def msgResendUs : Nat := 0x800007
def linkSelect : Nat := 0x801000
def linkStatus : Nat := 0x801001
def linkUpLo : Nat := 0x801002
def linkUpHi : Nat := 0x801003
def linksInService : Nat := 0x801004
def linkMin : Nat := 0x801005
def retryLimit : Nat := 0x801006
def trainLimitMs : Nat := 0x801007
def linkUcwLimit : Nat := 0x801008
def linkRetrain : Nat := 0x801009
def portConfig : Nat := 0x802000
def routeTableObject : Nat := 0x803000
def collectiveTableObject : Nat := 0x804000
def collectiveCount : Nat := 0x804001
def collectiveStart : Nat := 0x804002
def stillSharePct : Nat := 0x805000
def msgResent : Nat := 0x806000
def msgDuplicates : Nat := 0x806001
def hopDrops : Nat := 0x806002
def reroutes : Nat := 0x806003
def msgStaleDrops : Nat := 0x806004
def collectivesDone : Nat := 0x806005
def collectivesAbandoned : Nat := 0x806006
def stillBytesSent : Nat := 0x806007
def thInC : Nat := 0x900000
def thOutC : Nat := 0x900001
def flowLpm : Nat := 0x900002
def junctionMaxC : Nat := 0x900003
def sensorStatus : Nat := 0x900004
def dieTempCd : Nat := 0x900005
def thR25Ohm : Nat := 0x900100
def thBetaK : Nat := 0x900101
def flowKPerL : Nat := 0x900102
def flowTimeoutMs : Nat := 0x900103
def coolantHeatCap : Nat := 0x900104
def modelCJPerK : Nat := 0x901000
def modelRBase : Nat := 0x901001
def modelRFlow : Nat := 0x901002
def modelExponent : Nat := 0x901003
def lookaheadMs : Nat := 0x901004
def modelTempC : Nat := 0x901005
def predictedTempC : Nat := 0x901006
def valveDuty : Nat := 0x902000
def valveTargetC : Nat := 0x902001
def valveMinPml : Nat := 0x902002
def valveIdlePml : Nat := 0x902003
def valveKp : Nat := 0x902004
def valveKi : Nat := 0x902005
def valveSlewPmlS : Nat := 0x902006
def valveOverride : Nat := 0x902007
def throttleC : Nat := 0x903000
def junctionLimitC : Nat := 0x903001
def tripC : Nat := 0x903002
def govDvfsLimitCd : Nat := 0x903100
def throttleEvents : Nat := 0x903200
def throttleMs : Nat := 0x903201
def drawW : Nat := 0x904000
def drawLimitW : Nat := 0x904001
def rampUpWPerMs : Nat := 0x904002
def rampDownWPerMs : Nat := 0x904003
def floorPct : Nat := 0x904004
def floorWindowMs : Nat := 0x904005
def trailingMeanW : Nat := 0x904006
def pacePmlCd : Nat := 0x904007
def fillerW : Nat := 0x904008
def fillerEnergyJ : Nat := 0x904009
def rampShortfalls : Nat := 0x90400A
def debugLock : Nat := 0xA00000
def antiRollbackFuses : Nat := 0xA00001
def antiRollback : Nat := 0xA00002
def fwKeys : Nat := 0xA00003
def fwKeyRevoked : Nat := 0xA00004
def serviceKeys : Nat := 0xA00005
def serviceKeyRevoked : Nat := 0xA00006
def debugState : Nat := 0xA00100
def debugUnlock : Nat := 0xA00101
def bootStatus : Nat := 0xA01000
def slotInfoA : Nat := 0xA01001
def preferredSlot : Nat := 0xA01002
def slotInfoB : Nat := 0xA01003
def fwUpdate : Nat := 0xA02000
def rollbackCommit : Nat := 0xA02001
def identityPublicKey : Nat := 0xA03000
def certChain : Nat := 0xA03001
def signatures : Nat := 0xA03002
def roleWriteMap : Nat := 0xA10000
def nodeId : Nat := 0xA20000
def fieldMac : Nat := 0xA20001
def plcaNodeCount : Nat := 0xA20002
def fieldHeartbeatMs : Nat := 0xA20003
def fieldFramesRx : Nat := 0xA20004
def fieldFramesBad : Nat := 0xA20005
def fieldDuplicates : Nat := 0xA20006
def mailboxRequests0 : Nat := 0xA30000
def mailboxRequests1 : Nat := 0xA30001
def doorbellsIgnored : Nat := 0xA30002
def frozenWrites : Nat := 0xA30003
def serviceIdleS : Nat := 0xA30004
def serviceSession : Nat := 0xA30005
def authFailures : Nat := 0xA30006
def monoCounter : Nat := 0xA40000
def bootEpoch : Nat := 0xA40001
def batchRing0 : Nat := 0xA41000
def batchRing1 : Nat := 0xA41001
def batchLeavesMax : Nat := 0xA41002
def batchIntervalUs : Nat := 0xA41003
def receiptsIssued : Nat := 0xA41100
def batchesSigned : Nat := 0xA41101
def batchRingWaits : Nat := 0xA41102
def streamRecipeDigest : Nat := 0xA42000
def evqCells : Nat := 0xB00000
def evqCellsFree : Nat := 0xB00001
def eventsRaised : Nat := 0xB00002
def eventsUndelivered : Nat := 0xB00003
def evqConfig : Nat := 0xB10000
def deviceState : Nat := 0xC00000
def readyCounter : Nat := 0xC00001
def deviceReset : Nat := 0xC00002
def selftestAtBoot : Nat := 0xC00003
def selftestStatus : Nat := 0xC00004
def ddrSpeedMts : Nat := 0xC00100
def ddrSpeedLimitMts : Nat := 0xC00101
def ddrModuleGib : Nat := 0xC00102
def clusterSelect : Nat := 0xC01000
def clusterCommand : Nat := 0xC01001
def clusterServiceState : Nat := 0xC01002
def tvRun : Nat := 0xC02000
def tvResult : Nat := 0xC02001
def liveUpdate : Nat := 0xC03000
def liveSlotMap : Nat := 0xC03001
def mgmtRestarts : Nat := 0xC03002
end Obj

/-- The rows of block 0x1000, part 1. -/
def rows1a : List ObjRow := [
  ⟨0x1000, 0x00, 0x00, 0x0B, 8, .const, .boot, 0x656C6965766E694C, .any⟩ /- VENDOR_NAME, R368 -/,
  ⟨0x1000, 0x01, 0x01, 0x0B, 5, .const, .boot, 0x363951564C, .any⟩ /- PART_NUMBER, R368 -/,
  ⟨0x1000, 0x02, 0x02, 0x03, 2, .ro, .fused, 0xA1, .any⟩ /- STEPPING, R368 -/,
  ⟨0x1000, 0x03, 0x03, 0x05, 8, .ro, .fused, 0x0, .any⟩ /- SERIAL_NUMBER, R368 -/,
  ⟨0x1000, 0x04, 0x04, 0x03, 2, .const, .boot, 0x1, .any⟩ /- DICT_VERSION, R368 -/,
  ⟨0x1100, 0x00, 0x00, 0x0A, 8, .ro, .live, 0x3FFFFFFFFFFF, .any⟩ /- D2D_MODULE_MAP, R22 -/,
  ⟨0x1100, 0x01, 0x01, 0x04, 4, .ro, .live, 0x0, .any⟩ /- D2D_RETIREMENTS, R22 -/]

/-- The rows of block 0x2000, part 1. -/
def rows2a : List ObjRow := [
  ⟨0x2000, 0x00, 0x00, 0x09, 4, .ro, .live, 0x0, .any⟩ /- CLOCK_STATUS, R425 -/,
  ⟨0x2000, 0x01, 0x01, 0x05, 8, .ro, .live, 0x0, .any⟩ /- CLOCK_FAULTS, R425 -/,
  ⟨0x2000, 0x02, 0x02, 0x02, 1, .wo, .live, 0x0, .nat 1 1⟩ /- CLOCK_RESUME, R425 -/,
  ⟨0x2001, 0x00, 0x0C, 0x02, 1, .rw, .live, 0x0, .any⟩ /- REF_SELECT, R425 -/,
  ⟨0x2002, 0x00, 0x0C, 0x09, 4, .ro, .live, 0x0, .any⟩ /- DOMAIN_STATE, R425 -/,
  ⟨0x2010, 0x00, 0x03, 0x02, 1, .rw, .live, 0x7, .nat 0 7⟩ /- DVFS_REQUEST_CD, R425 -/,
  ⟨0x2011, 0x00, 0x03, 0x02, 1, .ro, .live, 0x0, .any⟩ /- DVFS_LEVEL_CD, R425 -/,
  ⟨0x2012, 0x00, 0x03, 0x06, 4, .ro, .fused, 0x0, .any⟩ /- VOLT_TRIM_CD, R425 -/,
  ⟨0x2013, 0x00, 0x00, 0x05, 8, .ro, .live, 0x0, .any⟩ /- DVFS_STEPS, R425 -/,
  ⟨0x2020, 0x00, 0x00, 0x03, 2, .rw, .live, 0x0, .any⟩ /- GATE_SELECT, R425 -/,
  ⟨0x2020, 0x01, 0x01, 0x02, 1, .wo, .live, 0x0, .nat 0 1⟩ /- GATE_CONTROL, R425 -/,
  ⟨0x2020, 0x02, 0x02, 0x09, 4, .ro, .live, 0x0, .any⟩ /- GATE_STATE, R425 -/,
  ⟨0x2030, 0x00, 0x00, 0x02, 1, .ro, .live, 0x1, .any⟩ /- POWER_STATE, R425 -/,
  ⟨0x2030, 0x01, 0x01, 0x02, 1, .wo, .live, 0x0, .nat 1 3⟩ /- POWER_REQUEST, R425 -/,
  ⟨0x2030, 0x02, 0x02, 0x02, 1, .ro, .live, 0x0, .any⟩ /- POWER_TRANSITION, R425 -/,
  ⟨0x2030, 0x03, 0x03, 0x03, 2, .rw, .live, 0x14, .nat 1 1000⟩ /- PG_TIMEOUT_MS, R425 -/]

/-- The rows of block 0x2000, part 2. -/
def rows2b : List ObjRow := [
  ⟨0x2030, 0x04, 0x04, 0x02, 1, .ro, .live, 0x0, .any⟩ /- WAKE_CAUSE, R425 -/,
  ⟨0x2031, 0x00, 0x00, 0x04, 4, .ro, .live, 0x0, .any⟩ /- RETENTION_USED, R425 -/,
  ⟨0x2040, 0x00, 0x00, 0x09, 4, .ro, .live, 0x0, .any⟩ /- SUPPLY_STATUS, R425 -/,
  ⟨0x2040, 0x01, 0x01, 0x05, 8, .ro, .live, 0x0, .any⟩ /- SUPPLY_WARNINGS, R425 -/,
  ⟨0x2040, 0x02, 0x02, 0x05, 8, .ro, .live, 0x0, .any⟩ /- REGULATOR_FAULTS, R425 -/]

/-- The rows of block 0x3000, part 1. -/
def rows3a : List ObjRow := [
  ⟨0x3000, 0x00, 0x00, 0x04, 4, .const, .boot, 0x40000, .any⟩ /- DIR_ENTRIES, R276 -/,
  ⟨0x3000, 0x01, 0x01, 0x04, 4, .ro, .live, 0x100, .any⟩ /- DIR_USED, R276 -/,
  ⟨0x3001, 0x00, 0x00, 0x0E, 16, .wo, .live, 0x0, .any⟩ /- OBJECT_CREATE, R276 -/,
  ⟨0x3001, 0x01, 0x01, 0x04, 4, .wo, .live, 0x0, .any⟩ /- OBJECT_DELETE, R276 -/,
  ⟨0x3001, 0x02, 0x02, 0x04, 4, .wo, .live, 0x0, .any⟩ /- OBJECT_PIN, R276 -/,
  ⟨0x3001, 0x03, 0x03, 0x04, 4, .wo, .live, 0x0, .any⟩ /- OBJECT_UNPIN, R276 -/,
  ⟨0x3001, 0x04, 0x04, 0x0E, 8, .wo, .live, 0x0, .any⟩ /- OBJECT_MOVE, R276 -/,
  ⟨0x3002, 0x00, 0x00, 0x04, 4, .rw, .live, 0x0, .nat 0 262143⟩ /- DIR_SELECT, R276 -/,
  ⟨0x3002, 0x01, 0x01, 0x0E, 32, .ro, .live, 0x0, .any⟩ /- DIR_ENTRY, R276 -/,
  ⟨0x3010, 0x00, 0x00, 0x05, 8, .ro, .live, 0x6000000000, .any⟩ /- FAST_FREE, R276 -/,
  ⟨0x3010, 0x01, 0x01, 0x05, 8, .ro, .live, 0x0, .any⟩ /- SLOW_FREE_A, R276 -/,
  ⟨0x3010, 0x02, 0x02, 0x05, 8, .ro, .live, 0x0, .any⟩ /- SLOW_FREE_B, R276 -/,
  ⟨0x3010, 0x03, 0x03, 0x04, 4, .rw, .live, 0x400000, .any⟩ /- SLOW_LOW_WATER, R276 -/,
  ⟨0x3010, 0x04, 0x04, 0x08, 4, .ro, .live, 0x3F800000, .any⟩ /- COMPRESS_RATIO_A, R276 -/,
  ⟨0x3010, 0x05, 0x05, 0x08, 4, .ro, .live, 0x3F800000, .any⟩ /- COMPRESS_RATIO_B, R276 -/,
  ⟨0x3020, 0x00, 0x00, 0x04, 4, .rw, .armed, 0x1F4, .nat 1 60000⟩ /- HOLD_LIMIT_MS, R276 -/]

/-- The rows of block 0x3000, part 2. -/
def rows3b : List ObjRow := [
  ⟨0x3030, 0x00, 0x00, 0x09, 4, .ro, .live, 0xFFFFFF, .any⟩ /- CHANNEL_MAP, R276 -/,
  ⟨0x3030, 0x01, 0x01, 0x03, 2, .rw, .armed, 0x40, .nat 1 65535⟩ /- CHANNEL_UE_LIMIT, R276 -/,
  ⟨0x3031, 0x00, 0x00, 0x03, 2, .rw, .armed, 0x8, .nat 1 168⟩ /- SCRUB_INTERVAL_H, R276 -/,
  ⟨0x3031, 0x01, 0x01, 0x05, 8, .ro, .live, 0x0, .any⟩ /- SCRUB_PASSES, R276 -/,
  ⟨0x3031, 0x02, 0x02, 0x04, 4, .ro, .live, 0x0, .any⟩ /- SCRUB_LAST_PASS_S, R276 -/,
  ⟨0x3040, 0x00, 0x00, 0x05, 8, .ro, .live, 0x0, .any⟩ /- FAULTS_NOT_RESIDENT, R276 -/,
  ⟨0x3040, 0x01, 0x01, 0x05, 8, .ro, .live, 0x0, .any⟩ /- FAULTS_MOVING, R276 -/,
  ⟨0x3040, 0x02, 0x02, 0x05, 8, .ro, .live, 0x0, .any⟩ /- FAULTS_POISONED, R276 -/,
  ⟨0x3040, 0x03, 0x03, 0x05, 8, .ro, .live, 0x0, .any⟩ /- FAULTS_PROTECTION, R276 -/,
  ⟨0x3041, 0x00, 0x00, 0x05, 8, .ro, .live, 0x0, .any⟩ /- PROMOTIONS, R276 -/,
  ⟨0x3041, 0x01, 0x01, 0x05, 8, .ro, .live, 0x0, .any⟩ /- DEMOTIONS, R276 -/,
  ⟨0x3041, 0x02, 0x02, 0x05, 8, .ro, .live, 0x0, .any⟩ /- BYTES_MOVED, R276 -/,
  ⟨0x3041, 0x03, 0x03, 0x05, 8, .ro, .live, 0x0, .any⟩ /- EVICTIONS_REDIRECTED, R276 -/,
  ⟨0x3042, 0x00, 0x00, 0x05, 8, .ro, .live, 0x0, .any⟩ /- WEIGHT_LATE, R276 -/,
  ⟨0x3042, 0x01, 0x01, 0x05, 8, .ro, .live, 0x0, .any⟩ /- WEIGHT_STALL_US, R276 -/,
  ⟨0x3043, 0x00, 0x00, 0x05, 8, .ro, .live, 0x0, .any⟩ /- CORRECTED_FAST, R276 -/]

/-- The rows of block 0x3000, part 3. -/
def rows3c : List ObjRow := [
  ⟨0x3043, 0x01, 0x01, 0x05, 8, .ro, .live, 0x0, .any⟩ /- CORRECTED_SLOW, R276 -/,
  ⟨0x3043, 0x02, 0x02, 0x05, 8, .ro, .live, 0x0, .any⟩ /- SEAM_REBUILDS, R276 -/,
  ⟨0x3043, 0x03, 0x03, 0x05, 8, .ro, .live, 0x0, .any⟩ /- LINES_LOST, R276 -/,
  ⟨0x3043, 0x04, 0x04, 0x05, 8, .ro, .live, 0x0, .any⟩ /- OBJECTS_POISONED, R276 -/,
  ⟨0x3043, 0x05, 0x05, 0x05, 8, .ro, .live, 0x0, .any⟩ /- OBJECTS_LOST, R276 -/,
  ⟨0x3043, 0x06, 0x06, 0x05, 8, .ro, .live, 0x0, .any⟩ /- UNITS_RETIRED, R276 -/,
  ⟨0x3044, 0x00, 0x00, 0x05, 8, .ro, .live, 0x0, .any⟩ /- SPACE_WAITS, R276 -/]

/-- The rows of block 0x4000, part 1. -/
def rows4a : List ObjRow := [
  ⟨0x4000, 0x00, 0x00, 0x02, 1, .wo, .live, 0x0, .nat 1 3⟩ /- RUN_CONTROL, R368 -/,
  ⟨0x4000, 0x01, 0x01, 0x02, 1, .ro, .live, 0x0, .any⟩ /- RUN_STATE, R368 -/,
  ⟨0x4000, 0x02, 0x02, 0x03, 2, .ro, .live, 0xA000, .any⟩ /- ARM_STATUS, R368 -/,
  ⟨0x4001, 0x00, 0x00, 0x02, 1, .rw, .live, 0xFF, .natOr 0 1 0xFF⟩ /- CONDUCTOR_TOKEN, R368 -/,
  ⟨0x4001, 0x01, 0x01, 0x04, 4, .rw, .live, 0x1388, .nat 1000 600000⟩ /- CONDUCTOR_LAPSE_MS, R368 -/,
  ⟨0x4002, 0x00, 0x00, 0x01, 1, .rw, .live, 0x0, .nat 0 1⟩ /- STAGE_HOLD, R368 -/,
  ⟨0x4010, 0x00, 0x00, 0x05, 8, .ro, .live, 0x0, .any⟩ /- TAKE_NUMBER, R22 -/,
  ⟨0x4010, 0x01, 0x01, 0x05, 8, .ro, .live, 0x0, .any⟩ /- VERSION_GATE_WAITS, R22 -/,
  ⟨0x4020, 0x00, 0x00, 0x0E, 32, .rw, .armed, 0x0, .any⟩ /- JOB_SEED, R241 -/,
  ⟨0x4020, 0x01, 0x01, 0x03, 2, .ro, .live, 0x0, .any⟩ /- GENERATOR_BINDINGS, R241 -/,
  ⟨0x4020, 0x02, 0x02, 0x03, 2, .const, .boot, 0x1000, .any⟩ /- GENERATOR_BINDINGS_MAX, R241 -/,
  ⟨0x4030, 0x00, 0x00, 0x04, 4, .rw, .armed, 0xFFFFFFFF, .any⟩ /- STAGE_LIST_OBJECT, R241 -/,
  ⟨0x4030, 0x01, 0x01, 0x04, 4, .rw, .armed, 0x0, .nat 0 2048⟩ /- STAGE_COUNT, R241 -/,
  ⟨0x4031, 0x00, 0x00, 0x04, 4, .wo, .live, 0x0, .any⟩ /- STAGE_BIND, R241 -/,
  ⟨0x4031, 0x01, 0x01, 0x04, 4, .wo, .live, 0x0, .any⟩ /- STAGE_UNBIND, R241 -/,
  ⟨0x4031, 0x02, 0x02, 0x03, 2, .ro, .live, 0x0, .any⟩ /- BOUND_STAGES, R241 -/]

/-- The rows of block 0x4000, part 2. -/
def rows4b : List ObjRow := [
  ⟨0x4032, 0x00, 0x00, 0x0C, 64, .ro, .live, 0xF0E0D0C0B0A090807060504030201000F0E0D0C0B0A090807060504030201000F0E0D0C0B0A090807060504030201000F0E0D0C0B0A09080706050403020100, .any⟩ /- PLACEMENT_MAP, R241 -/,
  ⟨0x4040, 0x00, 0x3F, 0x0D, 32, .ro, .live, 0x0, .any⟩ /- LANE_OCCUPANCY, R241 -/,
  ⟨0x4050, 0x00, 0x00, 0x04, 4, .wo, .live, 0x0, .any⟩ /- STREAM_OPEN, R241 -/,
  ⟨0x4050, 0x01, 0x01, 0x03, 2, .wo, .live, 0x0, .any⟩ /- STREAM_CLOSE, R241 -/,
  ⟨0x4050, 0x02, 0x02, 0x03, 2, .wo, .live, 0x0, .any⟩ /- STREAM_CLEAR, R241 -/,
  ⟨0x4050, 0x03, 0x03, 0x03, 2, .rw, .live, 0x0, .nat 0 32767⟩ /- STREAM_SELECT, R241 -/,
  ⟨0x4050, 0x04, 0x04, 0x02, 1, .ro, .live, 0x0, .any⟩ /- STREAM_STATE, R241 -/,
  ⟨0x4050, 0x05, 0x05, 0x03, 2, .ro, .live, 0x0, .any⟩ /- STREAMS_OPEN, R241 -/,
  ⟨0x4051, 0x00, 0x00, 0x04, 4, .rw, .live, 0x3FFF0001, .any⟩ /- STREAM_GRANT_0, R241 -/,
  ⟨0x4051, 0x01, 0x01, 0x04, 4, .rw, .live, 0x40004000, .any⟩ /- STREAM_GRANT_1, R241 -/,
  ⟨0x4060, 0x00, 0x00, 0x02, 1, .const, .boot, 0x4, .any⟩ /- VERSIONS_MAX, R241 -/,
  ⟨0x4060, 0x01, 0x01, 0x05, 8, .ro, .live, 0x0, .any⟩ /- PINNED_VERSION_WAITS, R241 -/,
  ⟨0x4060, 0x02, 0x02, 0x0E, 16, .wo, .live, 0x0, .any⟩ /- VERSION_PUBLISH, R241 -/]

/-- The rows of block 0x5000, part 1. -/
def rows5a : List ObjRow := [
  ⟨0x5000, 0x00, 0x00, 0x0A, 8, .ro, .fused, 0xFFFF003F, .any⟩ /- FORMAT_SUPPORT, R80 -/,
  ⟨0x5000, 0x01, 0x01, 0x03, 2, .const, .boot, 0x1, .any⟩ /- TEST_VECTOR_VERSION, R80 -/,
  ⟨0x5001, 0x00, 0x00, 0x05, 8, .ro, .live, 0x0, .any⟩ /- SCALE_SKEW_COUNT, R80 -/,
  ⟨0x5001, 0x01, 0x01, 0x05, 8, .ro, .live, 0x0, .any⟩ /- INVALID_SCALE_COUNT, R80 -/,
  ⟨0x5001, 0x02, 0x02, 0x05, 8, .ro, .live, 0x0, .any⟩ /- NONFINITE_BLOCK_COUNT, R80 -/,
  ⟨0x5010, 0x00, 0x00, 0x01, 1, .rw, .live, 0x0, .nat 0 1⟩ /- FWD_SKIP_FORCE_OFF, R114 -/,
  ⟨0x5010, 0x01, 0x01, 0x05, 8, .ro, .live, 0x0, .any⟩ /- FWD_OPERATIONS, R114 -/,
  ⟨0x5010, 0x02, 0x02, 0x05, 8, .ro, .live, 0x0, .any⟩ /- FWD_PLANES_SKIPPED, R114 -/,
  ⟨0x5010, 0x03, 0x03, 0x05, 8, .ro, .live, 0x0, .any⟩ /- FWD_GROUP_WAITS, R114 -/,
  ⟨0x5010, 0x04, 0x04, 0x03, 2, .const, .boot, 0x4000, .any⟩ /- QUANT_ROW_MAX, R114 -/,
  ⟨0x5010, 0x05, 0x05, 0x05, 8, .ro, .live, 0x0, .any⟩ /- CODEBOOK_ROUNDINGS, R114 -/,
  ⟨0x5020, 0x00, 0x00, 0x05, 8, .ro, .live, 0x0, .any⟩ /- VEIN_PASSES, R134 -/,
  ⟨0x5020, 0x01, 0x01, 0x05, 8, .ro, .live, 0x0, .any⟩ /- VEIN_EXTRA_PASSES, R134 -/,
  ⟨0x5020, 0x02, 0x02, 0x05, 8, .ro, .live, 0x0, .any⟩ /- OUTLIER_ROWS, R134 -/,
  ⟨0x5020, 0x03, 0x03, 0x03, 2, .const, .boot, 0x80, .any⟩ /- VEIN_UNIT_LIMIT, R134 -/,
  ⟨0x5021, 0x00, 0x00, 0x04, 4, .ro, .live, 0x0, .any⟩ /- FALLBACK_LAYERS, R134 -/]

/-- The rows of block 0x5000, part 2. -/
def rows5b : List ObjRow := [
  ⟨0x5021, 0x01, 0x01, 0x04, 4, .ro, .live, 0x0, .any⟩ /- FALLBACK_DENIED, R134 -/,
  ⟨0x5021, 0x02, 0x02, 0x04, 4, .ro, .live, 0x0, .any⟩ /- STASHES_RELEASED, R134 -/,
  ⟨0x5021, 0x03, 0x03, 0x04, 4, .ro, .live, 0xFFFFFFFF, .any⟩ /- FALLBACK_FIRST_DENIED, R134 -/,
  ⟨0x5030, 0x01, 0x01, 0x05, 8, .ro, .live, 0x0, .any⟩ /- CLIP_RESCALE_K1, R134 -/,
  ⟨0x5030, 0x02, 0x02, 0x05, 8, .ro, .live, 0x0, .any⟩ /- CLIP_RESCALE_K2, R134 -/,
  ⟨0x5030, 0x03, 0x03, 0x05, 8, .ro, .live, 0x0, .any⟩ /- CLIP_RESCALE_K3, R134 -/,
  ⟨0x5030, 0x04, 0x04, 0x05, 8, .ro, .live, 0x0, .any⟩ /- CLIP_RESCALE_K4, R134 -/,
  ⟨0x5030, 0x05, 0x05, 0x05, 8, .ro, .live, 0x0, .any⟩ /- CLIP_SATURATED, R134 -/,
  ⟨0x5030, 0x06, 0x06, 0x04, 4, .rw, .take, 0x3E8, .nat 1 1000000⟩ /- SAT_ALARM_PPM, R134 -/,
  ⟨0x5030, 0x07, 0x07, 0x05, 8, .ro, .live, 0x0, .any⟩ /- SAT_ALARM_TENSORS, R134 -/,
  ⟨0x5030, 0x08, 0x08, 0x05, 8, .ro, .live, 0x0, .any⟩ /- LEARNED_SCALE_CLAMPS, R134 -/,
  ⟨0x5040, 0x00, 0x00, 0x05, 8, .ro, .live, 0x0, .any⟩ /- BWD_OPERATIONS, R166 -/,
  ⟨0x5040, 0x01, 0x01, 0x05, 8, .ro, .live, 0x0, .any⟩ /- DEFERRED_ITEMS, R166 -/,
  ⟨0x5040, 0x02, 0x02, 0x05, 8, .ro, .live, 0x0, .any⟩ /- DEFERRED_FORCED, R166 -/,
  ⟨0x5040, 0x03, 0x03, 0x03, 2, .ro, .live, 0x0, .any⟩ /- DEFERRED_HIGH_WATER, R166 -/,
  ⟨0x5040, 0x04, 0x04, 0x03, 2, .const, .boot, 0x100, .any⟩ /- DEFERRED_DEPTH, R166 -/]

/-- The rows of block 0x5000, part 3. -/
def rows5c : List ObjRow := [
  ⟨0x5041, 0x00, 0x00, 0x04, 4, .rw, .armed, 0xFFFFFFFF, .any⟩ /- TRACKER_TABLE_OBJECT, R166 -/,
  ⟨0x5041, 0x01, 0x01, 0x04, 4, .rw, .armed, 0x0, .nat 0 65536⟩ /- TRACKER_COUNT, R166 -/,
  ⟨0x5042, 0x00, 0x00, 0x06, 4, .rw, .take, 0x10, .any⟩ /- GRAD_SCALE_EXP, R166 -/,
  ⟨0x5042, 0x01, 0x01, 0x04, 4, .rw, .take, 0x7D0, .any⟩ /- GRAD_SCALE_GROWTH, R166 -/,
  ⟨0x5042, 0x02, 0x02, 0x02, 1, .rw, .take, 0x0, .nat 0 1⟩ /- GRAD_SCALE_ON_DISCARD, R166 -/,
  ⟨0x5042, 0x03, 0x03, 0x06, 4, .rw, .armed, 0x0, .int126⟩ /- GRAD_SCALE_MIN_EXP, R166 -/,
  ⟨0x5042, 0x04, 0x04, 0x06, 4, .rw, .armed, 0x18, .int126⟩ /- GRAD_SCALE_MAX_EXP, R166 -/,
  ⟨0x5042, 0x05, 0x05, 0x04, 4, .ro, .live, 0x0, .any⟩ /- GRAD_SCALE_CLEAN_RUN, R166 -/,
  ⟨0x5042, 0x06, 0x06, 0x05, 8, .ro, .live, 0x0, .any⟩ /- GRAD_SCALE_FLOOR_HITS, R166 -/,
  ⟨0x5043, 0x00, 0x00, 0x05, 8, .ro, .live, 0x0, .any⟩ /- RECOMPUTE_PASSES, R166 -/,
  ⟨0x5043, 0x01, 0x01, 0x05, 8, .ro, .live, 0x0, .any⟩ /- STASH_LATE, R166 -/,
  ⟨0x5043, 0x02, 0x02, 0x05, 8, .ro, .live, 0x0, .any⟩ /- FIRST_ANCHOR_STALLS, R166 -/,
  ⟨0x5050, 0x00, 0x00, 0x04, 4, .rw, .armed, 0xFFFFFFFF, .any⟩ /- STATS_OBJECT, R185 -/,
  ⟨0x5050, 0x01, 0x01, 0x03, 2, .rw, .armed, 0x10, .nat 2 256⟩ /- STATS_SLOTS, R185 -/,
  ⟨0x5050, 0x02, 0x02, 0x04, 4, .ro, .live, 0x0, .any⟩ /- STATS_RECORD_COUNT, R185 -/,
  ⟨0x5050, 0x03, 0x03, 0x04, 4, .const, .boot, 0x10000, .any⟩ /- STATS_RECORDS_MAX, R185 -/]

/-- The rows of block 0x5000, part 4. -/
def rows5d : List ObjRow := [
  ⟨0x5050, 0x04, 0x04, 0x05, 8, .ro, .live, 0x0, .any⟩ /- STATS_OVERWRITES, R185 -/,
  ⟨0x5060, 0x00, 0x00, 0x04, 4, .rw, .take, 0x1000, .nat 64 1048576⟩ /- DAILIES_EVERY, R185 -/,
  ⟨0x5060, 0x01, 0x01, 0x08, 4, .rw, .take, 0x3D800000, .f32Pos⟩ /- DAILIES_THRESHOLD, R185 -/,
  ⟨0x5060, 0x02, 0x02, 0x04, 4, .rw, .take, 0x2710, .nat 1 1000000⟩ /- DAILIES_ALARM_PPM, R185 -/,
  ⟨0x5060, 0x03, 0x03, 0x04, 4, .rw, .take, 0x10, .nat 1 1000000⟩ /- DAILIES_MIN_TILES, R185 -/,
  ⟨0x5060, 0x04, 0x04, 0x01, 1, .rw, .take, 0x1, .nat 0 1⟩ /- DAILIES_ENABLE, R185 -/,
  ⟨0x5060, 0x05, 0x05, 0x05, 8, .ro, .live, 0x0, .any⟩ /- DAILIES_TILES_TOTAL, R185 -/,
  ⟨0x5060, 0x06, 0x06, 0x05, 8, .ro, .live, 0x0, .any⟩ /- DAILIES_OVER_TOTAL, R185 -/,
  ⟨0x5060, 0x07, 0x07, 0x05, 8, .ro, .live, 0x0, .any⟩ /- DAILIES_ALARMS, R185 -/,
  ⟨0x5070, 0x00, 0x00, 0x05, 8, .ro, .live, 0x0, .any⟩ /- TRAPS_TOTAL, R185 -/,
  ⟨0x5070, 0x01, 0x01, 0x02, 1, .ro, .live, 0x0, .any⟩ /- TRAP_NEXT, R185 -/,
  ⟨0x5071, 0x00, 0x3F, 0x0E, 64, .ro, .live, 0x0, .any⟩ /- TRAP_RECORD, R185 -/,
  ⟨0x5080, 0x00, 0x00, 0x02, 1, .rw, .take, 0x0, .nat 0 1⟩ /- DISCARD_POLICY, R185 -/,
  ⟨0x5080, 0x01, 0x01, 0x02, 1, .rw, .take, 0x3, .nat 1 255⟩ /- RETAKE_LIMIT, R185 -/,
  ⟨0x5080, 0x02, 0x02, 0x01, 1, .rw, .take, 0x0, .nat 0 1⟩ /- EARLY_CUT, R185 -/,
  ⟨0x5080, 0x03, 0x03, 0x05, 8, .ro, .live, 0x0, .any⟩ /- DISCARDS, R185 -/]

/-- The rows of block 0x5000, part 5. -/
def rows5e : List ObjRow := [
  ⟨0x5080, 0x04, 0x04, 0x05, 8, .ro, .live, 0x0, .any⟩ /- PRINTS, R185 -/,
  ⟨0x5080, 0x05, 0x05, 0x02, 1, .ro, .live, 0x0, .any⟩ /- CONSECUTIVE_RETAKES, R185 -/,
  ⟨0x5080, 0x06, 0x06, 0x05, 8, .ro, .live, 0x0, .any⟩ /- EARLY_CUTS, R185 -/,
  ⟨0x5300, 0x00, 0x00, 0x0A, 8, .ro, .live, 0x0, .any⟩ /- HEALTH_WORD, R185 -/,
  ⟨0x5300, 0x01, 0x01, 0x0A, 8, .ro, .live, 0xFFFF000000000000, .any⟩ /- LOCAL_HEALTH, R185 -/,
  ⟨0x5300, 0x02, 0x02, 0x05, 8, .ro, .live, 0x0, .any⟩ /- HEALTH_TAKE, R185 -/,
  ⟨0x5300, 0x03, 0x03, 0x05, 8, .ro, .live, 0x0, .any⟩ /- SERVING_NONFINITE, R185 -/,
  ⟨0x5300, 0x04, 0x04, 0x05, 8, .ro, .live, 0x0, .any⟩ /- VERDICT_STALE_DROPS, R185 -/]

/-- The rows of block 0x6000, part 1. -/
def rows6a : List ObjRow := [
  ⟨0x6000, 0x00, 0x00, 0x04, 4, .rw, .armed, 0xFFFFFFFF, .any⟩ /- GROUP_TABLE_OBJECT, R207 -/,
  ⟨0x6000, 0x01, 0x01, 0x03, 2, .rw, .armed, 0x0, .nat 0 256⟩ /- GROUP_COUNT, R207 -/,
  ⟨0x6000, 0x02, 0x02, 0x04, 4, .rw, .armed, 0xFFFFFFFF, .any⟩ /- LAYER_TABLE_OBJECT, R207 -/,
  ⟨0x6000, 0x03, 0x03, 0x04, 4, .rw, .armed, 0x0, .nat 0 65536⟩ /- LAYER_COUNT, R207 -/,
  ⟨0x6010, 0x00, 0x00, 0x04, 4, .rw, .armed, 0xFFFFFFFF, .any⟩ /- SCRATCH_A, R207 -/,
  ⟨0x6010, 0x01, 0x01, 0x04, 4, .rw, .armed, 0xFFFFFFFF, .any⟩ /- SCRATCH_B, R207 -/,
  ⟨0x6100, 0x00, 0x00, 0x03, 2, .const, .boot, 0x1000, .any⟩ /- CURVE_POINTS_MAX, R207 -/,
  ⟨0x6100, 0x01, 0x01, 0x02, 1, .const, .boot, 0x40, .any⟩ /- PROGRAM_OPS_MAX, R207 -/,
  ⟨0x6200, 0x00, 0x00, 0x08, 4, .rw, .take, 0x3F800000, .f32NonNeg⟩ /- STEP_MULTIPLIER, R207 -/,
  ⟨0x6300, 0x00, 0x00, 0x05, 8, .ro, .live, 0x0, .any⟩ /- LAYER_UPDATES_A, R207 -/,
  ⟨0x6300, 0x01, 0x01, 0x05, 8, .ro, .live, 0x0, .any⟩ /- LAYER_UPDATES_B, R207 -/,
  ⟨0x6300, 0x02, 0x02, 0x05, 8, .ro, .live, 0x0, .any⟩ /- PARAMS_UPDATED, R207 -/,
  ⟨0x6300, 0x03, 0x03, 0x05, 8, .ro, .live, 0x0, .any⟩ /- UPDATE_BACKLOG_WAITS, R207 -/,
  ⟨0x6300, 0x04, 0x04, 0x05, 8, .ro, .live, 0x0, .any⟩ /- LAST_COMPLETE_TAKE_A, R207 -/,
  ⟨0x6300, 0x05, 0x05, 0x05, 8, .ro, .live, 0x0, .any⟩ /- LAST_COMPLETE_TAKE_B, R207 -/,
  ⟨0x6300, 0x06, 0x06, 0x05, 8, .ro, .live, 0x0, .any⟩ /- MATRIX_OPS_LAPIDARY, R207 -/]

/-- The rows of block 0x6000, part 2. -/
def rows6b : List ObjRow := [
  ⟨0x6300, 0x07, 0x07, 0x05, 8, .ro, .live, 0x0, .any⟩ /- MATRIX_OPS_SIDE, R207 -/]

/-- The rows of block 0x7000, part 1. -/
def rows7a : List ObjRow := [
  ⟨0x7000, 0x00, 0x00, 0x04, 4, .rw, .armed, 0xFFFFFFFF, .any⟩ /- LOG_OBJECT, R338 -/,
  ⟨0x7000, 0x01, 0x01, 0x04, 4, .ro, .live, 0x0, .any⟩ /- LOG_WRITE_OFFSET, R338 -/,
  ⟨0x7000, 0x02, 0x02, 0x04, 4, .rw, .live, 0x0, .any⟩ /- LOG_CONSUMED, R338 -/,
  ⟨0x7000, 0x03, 0x03, 0x0E, 64, .ro, .live, 0x0, .any⟩ /- LOG_HEAD, R338 -/,
  ⟨0x7000, 0x04, 0x04, 0x05, 8, .ro, .live, 0x0, .any⟩ /- LOG_SEQUENCE, R338 -/,
  ⟨0x7000, 0x05, 0x05, 0x05, 8, .ro, .live, 0x0, .any⟩ /- LOG_FULL_WAITS, R338 -/,
  ⟨0x7000, 0x06, 0x06, 0x0E, 64, .ro, .live, 0x0, .any⟩ /- RECIPE_DIGEST, R338 -/,
  ⟨0x7010, 0x00, 0x00, 0x04, 4, .rw, .armed, 0xFFFFFFFF, .any⟩ /- REPLAY_LOG_OBJECT, R338 -/,
  ⟨0x7010, 0x01, 0x01, 0x05, 8, .rw, .armed, 0x0, .any⟩ /- REPLAY_UNTIL, R338 -/,
  ⟨0x7010, 0x02, 0x02, 0x02, 1, .ro, .live, 0x0, .any⟩ /- REPLAY_STATE, R338 -/,
  ⟨0x7010, 0x03, 0x03, 0x05, 8, .ro, .live, 0x0, .any⟩ /- REPLAY_RERUNS, R338 -/,
  ⟨0x7100, 0x00, 0x00, 0x02, 1, .ro, .live, 0x0, .any⟩ /- STILL_STATE, R338 -/,
  ⟨0x7100, 0x01, 0x01, 0x05, 8, .ro, .live, 0xFFFFFFFFFFFFFFFF, .any⟩ /- STILL_LATEST_TAKE, R338 -/,
  ⟨0x7100, 0x02, 0x02, 0x05, 8, .ro, .live, 0xFFFFFFFFFFFFFFFF, .any⟩ /- STILL_BASE_TAKE, R338 -/,
  ⟨0x7100, 0x03, 0x03, 0x04, 4, .const, .boot, 0x1000, .any⟩ /- STILL_BASE_PERIOD, R338 -/,
  ⟨0x7100, 0x04, 0x04, 0x05, 8, .ro, .live, 0x0, .any⟩ /- STILLS_COMPLETED, R338 -/]

/-- The rows of block 0x7000, part 2. -/
def rows7b : List ObjRow := [
  ⟨0x7100, 0x05, 0x05, 0x05, 8, .ro, .live, 0x0, .any⟩ /- STILLS_SKIPPED, R338 -/,
  ⟨0x7100, 0x06, 0x06, 0x05, 8, .ro, .live, 0x0, .any⟩ /- STILLS_FAILED, R338 -/,
  ⟨0x7100, 0x07, 0x07, 0x05, 8, .ro, .live, 0x0, .any⟩ /- STILLS_UNPROTECTED, R338 -/,
  ⟨0x7100, 0x08, 0x08, 0x05, 8, .ro, .live, 0x0, .any⟩ /- FORCED_SENDS, R338 -/,
  ⟨0x7100, 0x09, 0x09, 0x04, 4, .rw, .armed, 0x400, .nat 1 65536⟩ /- TRACE_MIN_BLOCKS, R338 -/,
  ⟨0x7100, 0x0A, 0x0A, 0x04, 4, .rw, .armed, 0xC350, .nat 0 1000000⟩ /- TRACE_MAX_CHANGE_PPM, R338 -/,
  ⟨0x7110, 0x00, 0x00, 0x02, 1, .rw, .armed, 0x0, .nat 0 2⟩ /- STILL_RESTORE, R338 -/,
  ⟨0x7110, 0x01, 0x01, 0x05, 8, .rw, .armed, 0x0, .any⟩ /- STILL_RESTORE_TAKE, R338 -/,
  ⟨0x7200, 0x00, 0x00, 0x04, 4, .rw, .armed, 0xFFFF, .any⟩ /- DOUBLE_ASSIGN, R338 -/,
  ⟨0x7200, 0x01, 0x01, 0x04, 4, .rw, .armed, 0xFFFFFFFF, .any⟩ /- STILL_STORE_OBJECT, R338 -/,
  ⟨0x7200, 0x02, 0x02, 0x0C, 16, .ro, .live, 0xFFFFFFFFFFFFFFFFFFFFFFFFFFFFFFFF, .any⟩ /- DOUBLE_OF, R338 -/,
  ⟨0x7200, 0x03, 0x03, 0x02, 1, .ro, .boot, 0x0, .any⟩ /- FEED_ID, R338 -/,
  ⟨0x7200, 0x04, 0x04, 0x02, 1, .ro, .live, 0xFF, .any⟩ /- DOUBLE_FEED_ID, R338 -/,
  ⟨0x7200, 0x05, 0x05, 0x02, 1, .ro, .live, 0x0, .any⟩ /- DOUBLE_STATE, R338 -/,
  ⟨0x7300, 0x00, 0x00, 0x02, 1, .ro, .live, 0x0, .any⟩ /- RISK_LEVEL, R338 -/,
  ⟨0x7300, 0x01, 0x01, 0x09, 4, .ro, .live, 0x0, .any⟩ /- RISK_POINTS, R338 -/]

/-- The rows of block 0x7000, part 3. -/
def rows7c : List ObjRow := [
  ⟨0x7300, 0x02, 0x02, 0x02, 1, .rw, .live, 0x0, .nat 0 7⟩ /- RISK_FLOOR, R338 -/,
  ⟨0x7300, 0x03, 0x03, 0x02, 1, .rw, .live, 0x0, .nat 0 3⟩ /- RISK_NEIGHBOUR, R338 -/,
  ⟨0x7300, 0x04, 0x04, 0x04, 4, .rw, .live, 0x64, .nat 1 1000000⟩ /- RISK_CE_PER_HOUR, R338 -/,
  ⟨0x7300, 0x05, 0x05, 0x03, 2, .ro, .live, 0x1000, .any⟩ /- STILL_CADENCE, R338 -/,
  ⟨0x7400, 0x00, 0x03, 0x09, 4, .ro, .live, 0x0, .any⟩ /- RETIRED_CLUSTERS, R338 -/,
  ⟨0x7400, 0x04, 0x04, 0x04, 4, .ro, .live, 0x0, .any⟩ /- SUBSTITUTIONS, R338 -/,
  ⟨0x7400, 0x05, 0x05, 0x09, 4, .ro, .live, 0x0, .any⟩ /- LOST_UNITS, R338 -/,
  ⟨0x7F00, 0x00, 0x00, 0x09, 4, .ro, .live, 0x0, .any⟩ /- REPLACE_REQUEST, R338 -/]

/-- The rows of block 0x8000, part 1. -/
def rows8a : List ObjRow := [
  ⟨0x8000, 0x00, 0x00, 0x03, 2, .rw, .armed, 0xFFFF, .any⟩ /- JOB_RANK, R305 -/,
  ⟨0x8000, 0x01, 0x01, 0x03, 2, .rw, .armed, 0x1, .nat 1 1024⟩ /- JOB_SIZE, R305 -/,
  ⟨0x8000, 0x02, 0x02, 0x02, 1, .rw, .armed, 0x10, .nat 2 32⟩ /- VERDICT_FANOUT, R305 -/,
  ⟨0x8000, 0x03, 0x03, 0x04, 4, .rw, .armed, 0x64, .nat 10 10000⟩ /- PEER_HEARTBEAT_US, R305 -/,
  ⟨0x8000, 0x04, 0x04, 0x04, 4, .rw, .armed, 0x3E8, .nat 0 1000000⟩ /- PEER_TIMEOUT_US, R305 -/,
  ⟨0x8000, 0x05, 0x05, 0x04, 4, .rw, .armed, 0x2710, .nat 1 600000⟩ /- ARM_PEER_WAIT_MS, R305 -/,
  ⟨0x8000, 0x06, 0x06, 0x03, 2, .ro, .live, 0x0, .any⟩ /- PEERS_LOST, R305 -/,
  ⟨0x8000, 0x07, 0x07, 0x04, 4, .rw, .armed, 0xC8, .nat 10 100000⟩ /- MSG_RESEND_US, R305 -/,
  ⟨0x8010, 0x00, 0x00, 0x02, 1, .rw, .live, 0x0, .nat 0 95⟩ /- LINK_SELECT, R305 -/,
  ⟨0x8010, 0x01, 0x01, 0x0D, 32, .ro, .live, 0x0, .any⟩ /- LINK_STATUS, R305 -/,
  ⟨0x8010, 0x02, 0x02, 0x0A, 8, .ro, .live, 0x0, .any⟩ /- LINK_UP_LO, R305 -/,
  ⟨0x8010, 0x03, 0x03, 0x0A, 8, .ro, .live, 0x0, .any⟩ /- LINK_UP_HI, R305 -/,
  ⟨0x8010, 0x04, 0x04, 0x02, 1, .ro, .live, 0x0, .any⟩ /- LINKS_IN_SERVICE, R305 -/,
  ⟨0x8010, 0x05, 0x05, 0x02, 1, .rw, .armed, 0x0, .nat 0 96⟩ /- LINK_MIN, R305 -/,
  ⟨0x8010, 0x06, 0x06, 0x02, 1, .rw, .armed, 0x8, .nat 1 64⟩ /- RETRY_LIMIT, R305 -/,
  ⟨0x8010, 0x07, 0x07, 0x03, 2, .rw, .boot, 0x3E8, .nat 100 10000⟩ /- TRAIN_LIMIT_MS, R305 -/]

/-- The rows of block 0x8000, part 2. -/
def rows8b : List ObjRow := [
  ⟨0x8010, 0x08, 0x08, 0x04, 4, .rw, .armed, 0x3E8, .nat 1 1000000⟩ /- LINK_UCW_LIMIT, R305 -/,
  ⟨0x8010, 0x09, 0x09, 0x02, 1, .wo, .live, 0x0, .nat 0 95⟩ /- LINK_RETRAIN, R305 -/,
  ⟨0x8020, 0x00, 0x5F, 0x0D, 16, .rw, .armed, 0x0, .any⟩ /- PORT_CONFIG, R305 -/,
  ⟨0x8030, 0x00, 0x00, 0x04, 4, .rw, .armed, 0xFFFFFFFF, .any⟩ /- ROUTE_TABLE_OBJECT, R305 -/,
  ⟨0x8040, 0x00, 0x00, 0x04, 4, .rw, .armed, 0xFFFFFFFF, .any⟩ /- COLLECTIVE_TABLE_OBJECT, R305 -/,
  ⟨0x8040, 0x01, 0x01, 0x04, 4, .rw, .armed, 0x0, .nat 0 65536⟩ /- COLLECTIVE_COUNT, R305 -/,
  ⟨0x8040, 0x02, 0x02, 0x03, 2, .wo, .live, 0x0, .any⟩ /- COLLECTIVE_START, R305 -/,
  ⟨0x8050, 0x00, 0x00, 0x02, 1, .rw, .live, 0xA, .nat 0 50⟩ /- STILL_SHARE_PCT, R305 -/,
  ⟨0x8060, 0x00, 0x00, 0x05, 8, .ro, .live, 0x0, .any⟩ /- MSG_RESENT, R305 -/,
  ⟨0x8060, 0x01, 0x01, 0x05, 8, .ro, .live, 0x0, .any⟩ /- MSG_DUPLICATES, R305 -/,
  ⟨0x8060, 0x02, 0x02, 0x05, 8, .ro, .live, 0x0, .any⟩ /- HOP_DROPS, R305 -/,
  ⟨0x8060, 0x03, 0x03, 0x05, 8, .ro, .live, 0x0, .any⟩ /- REROUTES, R305 -/,
  ⟨0x8060, 0x04, 0x04, 0x05, 8, .ro, .live, 0x0, .any⟩ /- MSG_STALE_DROPS, R305 -/,
  ⟨0x8060, 0x05, 0x05, 0x05, 8, .ro, .live, 0x0, .any⟩ /- COLLECTIVES_DONE, R305 -/,
  ⟨0x8060, 0x06, 0x06, 0x05, 8, .ro, .live, 0x0, .any⟩ /- COLLECTIVES_ABANDONED, R305 -/,
  ⟨0x8060, 0x07, 0x07, 0x05, 8, .ro, .live, 0x0, .any⟩ /- STILL_BYTES_SENT, R305 -/]

/-- The rows of block 0x9000, part 1. -/
def rows9a : List ObjRow := [
  ⟨0x9000, 0x00, 0x00, 0x08, 4, .ro, .live, 0x0, .any⟩ /- TH_IN_C, R443 -/,
  ⟨0x9000, 0x01, 0x01, 0x08, 4, .ro, .live, 0x0, .any⟩ /- TH_OUT_C, R443 -/,
  ⟨0x9000, 0x02, 0x02, 0x08, 4, .ro, .live, 0x0, .any⟩ /- FLOW_LPM, R443 -/,
  ⟨0x9000, 0x03, 0x03, 0x08, 4, .ro, .live, 0x0, .any⟩ /- JUNCTION_MAX_C, R443 -/,
  ⟨0x9000, 0x04, 0x04, 0x09, 4, .ro, .live, 0x0, .any⟩ /- SENSOR_STATUS, R443 -/,
  ⟨0x9000, 0x05, 0x08, 0x08, 4, .ro, .live, 0x0, .any⟩ /- DIE_TEMP_CD, R443 -/,
  ⟨0x9001, 0x00, 0x00, 0x08, 4, .rw, .live, 0x461C4000, .f32 0x447A0000 0x47C35000⟩ /- TH_R25_OHM, R443 -/,
  ⟨0x9001, 0x01, 0x01, 0x08, 4, .rw, .live, 0x4556B000, .f32 0x44FA0000 0x459C4000⟩ /- TH_BETA_K, R443 -/,
  ⟨0x9001, 0x02, 0x02, 0x08, 4, .rw, .live, 0x45160000, .f32 0x41200000 0x47C35000⟩ /- FLOW_K_PER_L, R443 -/,
  ⟨0x9001, 0x03, 0x03, 0x03, 2, .rw, .live, 0x1F4, .nat 100 5000⟩ /- FLOW_TIMEOUT_MS, R443 -/,
  ⟨0x9001, 0x04, 0x04, 0x08, 4, .rw, .live, 0x4582A000, .f32 0x44FA0000 0x459C4000⟩ /- COOLANT_HEAT_CAP, R443 -/,
  ⟨0x9010, 0x00, 0x00, 0x08, 4, .rw, .live, 0x43200000, .f32 0x41200000 0x461C4000⟩ /- MODEL_C_J_PER_K, R443 -/,
  ⟨0x9010, 0x01, 0x01, 0x08, 4, .rw, .live, 0x3C54FDF4, .f32 0x3A83126F 0x3F800000⟩ /- MODEL_R_BASE, R443 -/,
  ⟨0x9010, 0x02, 0x02, 0x08, 4, .rw, .live, 0x3C343958, .f32 0x0 0x3F800000⟩ /- MODEL_R_FLOW, R443 -/,
  ⟨0x9010, 0x03, 0x03, 0x08, 4, .rw, .live, 0x3F4CCCCD, .f32 0x0 0x40000000⟩ /- MODEL_EXPONENT, R443 -/,
  ⟨0x9010, 0x04, 0x04, 0x03, 2, .rw, .live, 0x32, .nat 0 10000⟩ /- LOOKAHEAD_MS, R443 -/]

/-- The rows of block 0x9000, part 2. -/
def rows9b : List ObjRow := [
  ⟨0x9010, 0x05, 0x05, 0x08, 4, .ro, .live, 0x0, .any⟩ /- MODEL_TEMP_C, R443 -/,
  ⟨0x9010, 0x06, 0x06, 0x08, 4, .ro, .live, 0x0, .any⟩ /- PREDICTED_TEMP_C, R443 -/,
  ⟨0x9020, 0x00, 0x00, 0x03, 2, .ro, .live, 0x3E8, .any⟩ /- VALVE_DUTY, R443 -/,
  ⟨0x9020, 0x01, 0x01, 0x08, 4, .rw, .live, 0x42AA0000, .f32 0x42200000 0x42C80000⟩ /- VALVE_TARGET_C, R443 -/,
  ⟨0x9020, 0x02, 0x02, 0x03, 2, .rw, .live, 0xC8, .nat 0 1000⟩ /- VALVE_MIN_PML, R443 -/,
  ⟨0x9020, 0x03, 0x03, 0x03, 2, .rw, .live, 0x12C, .nat 0 1000⟩ /- VALVE_IDLE_PML, R443 -/,
  ⟨0x9020, 0x04, 0x04, 0x08, 4, .rw, .live, 0x42480000, .f32 0x0 0x447A0000⟩ /- VALVE_KP, R443 -/,
  ⟨0x9020, 0x05, 0x05, 0x08, 4, .rw, .live, 0x41A00000, .f32 0x0 0x447A0000⟩ /- VALVE_KI, R443 -/,
  ⟨0x9020, 0x06, 0x06, 0x03, 2, .rw, .live, 0x7D0, .nat 10 60000⟩ /- VALVE_SLEW_PML_S, R443 -/,
  ⟨0x9020, 0x07, 0x07, 0x03, 2, .rw, .live, 0xFFFF, .natOr 0 1000 0xFFFF⟩ /- VALVE_OVERRIDE, R443 -/,
  ⟨0x9030, 0x00, 0x00, 0x08, 4, .rw, .live, 0x42C80000, .f32 0x42A00000 0x42C80000⟩ /- THROTTLE_C, R443 -/,
  ⟨0x9030, 0x01, 0x01, 0x08, 4, .const, .boot, 0x42D20000, .any⟩ /- JUNCTION_LIMIT_C, R443 -/,
  ⟨0x9030, 0x02, 0x02, 0x08, 4, .const, .boot, 0x42DC0000, .any⟩ /- TRIP_C, R443 -/,
  ⟨0x9031, 0x00, 0x03, 0x02, 1, .ro, .live, 0x7, .any⟩ /- GOV_DVFS_LIMIT_CD, R443 -/,
  ⟨0x9032, 0x00, 0x00, 0x05, 8, .ro, .live, 0x0, .any⟩ /- THROTTLE_EVENTS, R443 -/,
  ⟨0x9032, 0x01, 0x01, 0x05, 8, .ro, .live, 0x0, .any⟩ /- THROTTLE_MS, R443 -/]

/-- The rows of block 0x9000, part 3. -/
def rows9c : List ObjRow := [
  ⟨0x9040, 0x00, 0x00, 0x08, 4, .ro, .live, 0x0, .any⟩ /- DRAW_W, R443 -/,
  ⟨0x9040, 0x01, 0x01, 0x04, 4, .rw, .live, 0xAF0, .nat 500 2800⟩ /- DRAW_LIMIT_W, R443 -/,
  ⟨0x9040, 0x02, 0x02, 0x03, 2, .rw, .live, 0x14, .nat 5 500⟩ /- RAMP_UP_W_PER_MS, R443 -/,
  ⟨0x9040, 0x03, 0x03, 0x03, 2, .rw, .live, 0x14, .nat 5 500⟩ /- RAMP_DOWN_W_PER_MS, R443 -/,
  ⟨0x9040, 0x04, 0x04, 0x02, 1, .rw, .live, 0x0, .nat 0 95⟩ /- FLOOR_PCT, R443 -/,
  ⟨0x9040, 0x05, 0x05, 0x04, 4, .rw, .live, 0x3E8, .nat 10 60000⟩ /- FLOOR_WINDOW_MS, R443 -/,
  ⟨0x9040, 0x06, 0x06, 0x08, 4, .ro, .live, 0x0, .any⟩ /- TRAILING_MEAN_W, R443 -/,
  ⟨0x9040, 0x07, 0x07, 0x0C, 8, .ro, .live, 0x3E803E803E803E8, .any⟩ /- PACE_PML_CD, R443 -/,
  ⟨0x9040, 0x08, 0x08, 0x08, 4, .ro, .live, 0x0, .any⟩ /- FILLER_W, R443 -/,
  ⟨0x9040, 0x09, 0x09, 0x05, 8, .ro, .live, 0x0, .any⟩ /- FILLER_ENERGY_J, R443 -/,
  ⟨0x9040, 0x0A, 0x0A, 0x05, 8, .ro, .live, 0x0, .any⟩ /- RAMP_SHORTFALLS, R443 -/]

/-- The rows of block 0xA000, part 1. -/
def rowsAa : List ObjRow := [
  ⟨0xA000, 0x00, 0x00, 0x02, 1, .ro, .fused, 0x0, .any⟩ /- DEBUG_LOCK, R469 -/,
  ⟨0xA000, 0x01, 0x01, 0x0A, 8, .ro, .fused, 0x0, .any⟩ /- ANTI_ROLLBACK_FUSES, R469 -/,
  ⟨0xA000, 0x02, 0x02, 0x02, 1, .ro, .fused, 0x0, .any⟩ /- ANTI_ROLLBACK, R469 -/,
  ⟨0xA000, 0x03, 0x03, 0x0C, 128, .ro, .fused, 0x0, .any⟩ /- FW_KEYS, R469 -/,
  ⟨0xA000, 0x04, 0x04, 0x09, 4, .ro, .fused, 0x0, .any⟩ /- FW_KEY_REVOKED, R469 -/,
  ⟨0xA000, 0x05, 0x05, 0x0C, 256, .ro, .fused, 0x0, .any⟩ /- SERVICE_KEYS, R469 -/,
  ⟨0xA000, 0x06, 0x06, 0x09, 4, .ro, .fused, 0x0, .any⟩ /- SERVICE_KEY_REVOKED, R469 -/,
  ⟨0xA001, 0x00, 0x00, 0x02, 1, .ro, .live, 0x0, .any⟩ /- DEBUG_STATE, R469 -/,
  ⟨0xA001, 0x01, 0x01, 0x02, 1, .wo, .live, 0x0, .nat 1 1⟩ /- DEBUG_UNLOCK, R469 -/,
  ⟨0xA010, 0x00, 0x00, 0x09, 4, .ro, .live, 0x0, .any⟩ /- BOOT_STATUS, R469 -/,
  ⟨0xA010, 0x01, 0x01, 0x0D, 32, .ro, .live, 0x0, .any⟩ /- SLOT_INFO_A, R469 -/,
  ⟨0xA010, 0x02, 0x02, 0x02, 1, .rw, .live, 0x0, .nat 0 1⟩ /- PREFERRED_SLOT, R469 -/,
  ⟨0xA010, 0x03, 0x03, 0x0D, 32, .ro, .live, 0x0, .any⟩ /- SLOT_INFO_B, R469 -/,
  ⟨0xA020, 0x00, 0x00, 0x0E, 8, .wo, .live, 0x0, .any⟩ /- FW_UPDATE, R469 -/,
  ⟨0xA020, 0x01, 0x01, 0x02, 1, .wo, .live, 0x0, .any⟩ /- ROLLBACK_COMMIT, R469 -/,
  ⟨0xA030, 0x00, 0x00, 0x0E, 32, .ro, .boot, 0x0, .any⟩ /- IDENTITY_PUBLIC_KEY, R469 -/]

/-- The rows of block 0xA000, part 2. -/
def rowsAb : List ObjRow := [
  ⟨0xA030, 0x01, 0x01, 0x0E, 0, .ro, .boot, 0x0, .any⟩ /- CERT_CHAIN, R469 -/,
  ⟨0xA030, 0x02, 0x02, 0x05, 8, .ro, .live, 0x0, .any⟩ /- SIGNATURES, R469 -/,
  ⟨0xA100, 0x00, 0x00, 0x0E, 128, .ro, .fused, 0x0, .any⟩ /- ROLE_WRITE_MAP, R368 -/,
  ⟨0xA200, 0x00, 0x00, 0x02, 1, .ro, .boot, 0x0, .any⟩ /- NODE_ID, R368 -/,
  ⟨0xA200, 0x01, 0x01, 0x05, 8, .ro, .boot, 0x024C56510000, .any⟩ /- FIELD_MAC, R368 -/,
  ⟨0xA200, 0x02, 0x02, 0x02, 1, .rw, .boot, 0x8, .nat 1 64⟩ /- PLCA_NODE_COUNT, R368 -/,
  ⟨0xA200, 0x03, 0x03, 0x03, 2, .const, .boot, 0x64, .any⟩ /- FIELD_HEARTBEAT_MS, R368 -/,
  ⟨0xA200, 0x04, 0x04, 0x05, 8, .ro, .live, 0x0, .any⟩ /- FIELD_FRAMES_RX, R368 -/,
  ⟨0xA200, 0x05, 0x05, 0x05, 8, .ro, .live, 0x0, .any⟩ /- FIELD_FRAMES_BAD, R368 -/,
  ⟨0xA200, 0x06, 0x06, 0x05, 8, .ro, .live, 0x0, .any⟩ /- FIELD_DUPLICATES, R368 -/,
  ⟨0xA300, 0x00, 0x00, 0x05, 8, .ro, .live, 0x0, .any⟩ /- MAILBOX_REQUESTS_0, R368 -/,
  ⟨0xA300, 0x01, 0x01, 0x05, 8, .ro, .live, 0x0, .any⟩ /- MAILBOX_REQUESTS_1, R368 -/,
  ⟨0xA300, 0x02, 0x02, 0x05, 8, .ro, .live, 0x0, .any⟩ /- DOORBELLS_IGNORED, R368 -/,
  ⟨0xA300, 0x03, 0x03, 0x05, 8, .ro, .live, 0x0, .any⟩ /- FROZEN_WRITES, R368 -/,
  ⟨0xA300, 0x04, 0x04, 0x04, 4, .rw, .live, 0x258, .nat 60 3600⟩ /- SERVICE_IDLE_S, R368 -/,
  ⟨0xA300, 0x05, 0x05, 0x09, 4, .ro, .live, 0x0, .any⟩ /- SERVICE_SESSION, R368 -/]

/-- The rows of block 0xA000, part 3. -/
def rowsAc : List ObjRow := [
  ⟨0xA300, 0x06, 0x06, 0x05, 8, .ro, .live, 0x0, .any⟩ /- AUTH_FAILURES, R368 -/,
  ⟨0xA400, 0x00, 0x00, 0x05, 8, .ro, .live, 0x0, .any⟩ /- MONO_COUNTER, R469 -/,
  ⟨0xA400, 0x01, 0x01, 0x03, 2, .ro, .boot, 0x0, .any⟩ /- BOOT_EPOCH, R469 -/,
  ⟨0xA410, 0x00, 0x00, 0x04, 4, .rw, .live, 0xFFFFFFFF, .any⟩ /- BATCH_RING_0, R469 -/,
  ⟨0xA410, 0x01, 0x01, 0x04, 4, .rw, .live, 0xFFFFFFFF, .any⟩ /- BATCH_RING_1, R469 -/,
  ⟨0xA410, 0x02, 0x02, 0x03, 2, .const, .boot, 0x1000, .any⟩ /- BATCH_LEAVES_MAX, R469 -/,
  ⟨0xA410, 0x03, 0x03, 0x04, 4, .const, .boot, 0x2710, .any⟩ /- BATCH_INTERVAL_US, R469 -/,
  ⟨0xA411, 0x00, 0x00, 0x05, 8, .ro, .live, 0x0, .any⟩ /- RECEIPTS_ISSUED, R469 -/,
  ⟨0xA411, 0x01, 0x01, 0x05, 8, .ro, .live, 0x0, .any⟩ /- BATCHES_SIGNED, R469 -/,
  ⟨0xA411, 0x02, 0x02, 0x05, 8, .ro, .live, 0x0, .any⟩ /- BATCH_RING_WAITS, R469 -/,
  ⟨0xA420, 0x00, 0x00, 0x0E, 64, .ro, .live, 0x0, .any⟩ /- STREAM_RECIPE_DIGEST, R469 -/]

/-- The rows of block 0xB000, part 1. -/
def rowsBa : List ObjRow := [
  ⟨0xB000, 0x00, 0x00, 0x03, 2, .const, .boot, 0x4000, .any⟩ /- EVQ_CELLS, R400 -/,
  ⟨0xB000, 0x01, 0x01, 0x03, 2, .ro, .live, 0x3800, .any⟩ /- EVQ_CELLS_FREE, R400 -/,
  ⟨0xB000, 0x02, 0x02, 0x05, 8, .ro, .live, 0x0, .any⟩ /- EVENTS_RAISED, R400 -/,
  ⟨0xB000, 0x03, 0x03, 0x05, 8, .ro, .live, 0x0, .any⟩ /- EVENTS_UNDELIVERED, R400 -/,
  ⟨0xB100, 0x00, 0xFF, 0x0D, 16, .rw, .live, 0x0, .any⟩ /- EVQ_CONFIG, R400 -/]

/-- The rows of block 0xC000, part 1. -/
def rowsCa : List ObjRow := [
  ⟨0xC000, 0x00, 0x00, 0x02, 1, .ro, .live, 0x1, .any⟩ /- DEVICE_STATE, R489 -/,
  ⟨0xC000, 0x01, 0x01, 0x05, 8, .ro, .live, 0x0, .any⟩ /- READY_COUNTER, R489 -/,
  ⟨0xC000, 0x02, 0x02, 0x02, 1, .wo, .live, 0x0, .nat 1 1⟩ /- DEVICE_RESET, R489 -/,
  ⟨0xC000, 0x03, 0x03, 0x01, 1, .rw, .boot, 0x1, .nat 0 1⟩ /- SELFTEST_AT_BOOT, R489 -/,
  ⟨0xC000, 0x04, 0x04, 0x09, 4, .ro, .live, 0x0, .any⟩ /- SELFTEST_STATUS, R489 -/,
  ⟨0xC001, 0x00, 0x00, 0x03, 2, .ro, .live, 0x0, .any⟩ /- DDR_SPEED_MTS, R489 -/,
  ⟨0xC001, 0x01, 0x01, 0x03, 2, .rw, .boot, 0x2260, .oneOf [6400, 7200, 8000, 8800]⟩ /- DDR_SPEED_LIMIT_MTS, R489 -/,
  ⟨0xC001, 0x02, 0x02, 0x0C, 24, .ro, .live, 0x0, .any⟩ /- DDR_MODULE_GIB, R489 -/,
  ⟨0xC010, 0x00, 0x00, 0x02, 1, .rw, .live, 0x0, .any⟩ /- CLUSTER_SELECT, R489 -/,
  ⟨0xC010, 0x01, 0x01, 0x02, 1, .wo, .live, 0x0, .nat 1 3⟩ /- CLUSTER_COMMAND, R489 -/,
  ⟨0xC010, 0x02, 0x02, 0x02, 1, .ro, .live, 0x0, .any⟩ /- CLUSTER_SERVICE_STATE, R489 -/,
  ⟨0xC020, 0x00, 0x00, 0x0E, 16, .wo, .live, 0x0, .any⟩ /- TV_RUN, R489 -/,
  ⟨0xC020, 0x01, 0x01, 0x0D, 32, .ro, .live, 0x0, .any⟩ /- TV_RESULT, R489 -/,
  ⟨0xC030, 0x00, 0x00, 0x03, 2, .wo, .live, 0x0, .any⟩ /- LIVE_UPDATE, R489 -/,
  ⟨0xC030, 0x01, 0x01, 0x09, 4, .ro, .live, 0x0, .any⟩ /- LIVE_SLOT_MAP, R489 -/,
  ⟨0xC030, 0x02, 0x02, 0x05, 8, .ro, .live, 0x0, .any⟩ /- MGMT_RESTARTS, R489 -/]

/-- The rows, in parts whose indices ascend. -/
def rowParts : List (List ObjRow) :=
  [rows1a, rows2a, rows2b, rows3a, rows3b, rows3c, rows4a, rows4b, rows5a, rows5b, rows5c, rows5d, rows5e, rows6a, rows6b, rows7a, rows7b, rows7c, rows8a, rows8b, rows9a, rows9b, rows9c, rowsAa, rowsAb, rowsAc, rowsBa, rowsCa]

/-- The whole dictionary (R367). -/
def rows : List ObjRow := rowParts.flatten

/-- The row of an index and subindex. -/
def rowOf (index sub : Nat) : Option ObjRow :=
  rows.find? (fun r => r.index == index && r.lo ≤ sub && sub ≤ r.hi)

/-- The row of a key. -/
def rowOfKey (key : Nat) : Option ObjRow := rowOf (key / 256) (key % 256)

/-- An index the dictionary holds an object under (R340). -/
def indexKnown (index : Nat) : Bool := rows.any (fun r => r.index == index)

/-- The default of an object (R16). -/
def dfltOf (key : Nat) : Nat := match rowOfKey key with
  | some r => r.dflt
  | none => 0

end Sys2Proof.Machine
end

