-- ==== Sys2Proof/Machine/State.lean ====
section
/-!
DEFINITION. The state of the device: every object, table, queue, counter, mode and pin the chapters give it, as plain
data, and the queue of commands that wait. A structure below holds one chapter's state; its fields' default values are
their values right after a power-on reset, before POR_N is released.
-/
namespace Sys2Proof.Machine

/-! ### The dictionary and the control path (chapter 12) -/

/-- A SERVICE requester's authentication state (R357): an open session with the counter of its last request, an unused
challenge, and the counters of the failures of the last minute. -/
structure Auth where
  session   : Option Nat := none
  challenge : Option Bytes := none
  failures  : List Nat := []
deriving DecidableEq, Repr

/-- A segmented transfer (R352): the object, its length, whether it writes, the copy or the bytes received, and the next
segment expected. -/
structure Transfer where
  key   : Nat
  len   : Nat
  write : Bool
  data  : Bytes
  next  : Nat
deriving DecidableEq, Repr

/-- A response kept for two seconds (R364): requester, TRANSACTION, Index.Sub, OP, counter, PDU. -/
structure Kept where
  src   : Nat
  trans : Nat
  key   : Nat
  op    : Nat
  at_   : Nat
  pdu   : Bytes
deriving DecidableEq, Repr

/-- A request answered with PENDING (R353): who asked, the header its final response repeats, and the work it waits on
(the Index.Sub of its command with an argument). -/
structure Waiting where
  rq   : Req
  op   : Nat
  key  : Nat
  type : Nat
  arg  : Nat
  /-- The work has ended while the management pair restarts: the status sent once the pair is back (R41, R353). -/
  final : Option Nat := none
deriving DecidableEq, Repr

/-- The state of a mailbox slot (R354). -/
inductive SlotState where
  | free
  | posted
  | inService
  | pending
  | done
deriving DecidableEq, Repr

/-- A mailbox slot: its state, the request bytes the host wrote and the response bytes. -/
structure MailSlot where
  state    : SlotState := .free
  request  : Bytes := []
  response : Bytes := []
deriving DecidableEq, Repr

/-- The control path. `dict` holds the values in effect of the objects that are stored (an unlisted object has its
default); `staged` and `held` the TAKE and BOOT values that wait (R344). -/
structure Ctl where
  dict       : Tbl Nat := []
  staged     : Tbl Nat := []
  held       : Tbl Nat := []
  /-- The management pair serves requests (R41). -/
  serving    : Bool := false
  /-- The cause of the restart under way (R487). -/
  restart    : Option Nat := none
  /-- Restarts begun and not yet counted (R487: each one begun counts once, at the step 3 that completes). -/
  restartsBegun : Nat := 0
  hbCount    : Nat := 0
  /-- Requesters by number: the port, or 2^48 plus a station address. -/
  auth       : Tbl Auth := []
  transfers  : Tbl Transfer := []
  kept       : List Kept := []
  waiting    : List Waiting := []
  /-- Mailbox slots by 8 × port + slot. -/
  slots      : Tbl MailSlot := []
  /-- The slots posted and not yet taken, in the order of their doorbells (R351). -/
  posted     : List Nat := []
  /-- Link-down time of the token holder runs (R359). -/
  nodeId     : Nat := 0
  feedId     : Nat := 0
deriving DecidableEq, Repr

/-! ### Event queues (R392 to R395) -/

/-- A cell of the pool: the position it was written at and the item there. -/
structure EvCell where
  pos : Nat
  item : Nat
deriving DecidableEq, Repr

/-- An event queue: its EVQ_CONFIG fields, the producer's counts W and D with its late copy of H, the consumer's H with
its late copy of W, the cells by position modulo CAPACITY, and the window's registers. -/
structure Evq where
  enable     : Bool := false
  capacity   : Nat := 256
  mask       : Nat := 0
  vector     : Nat := 256
  w          : Nat := 0
  d          : Nat := 0
  hLate      : Nat := 0
  h          : Nat := 0
  wLate      : Nat := 0
  cells      : Tbl EvCell := []
  latch      : Nat := 0
  underrun   : Bool := false
  armed      : Bool := false
  lost       : Nat := 0
  overwrites : Nat := 0
  /-- OVERWRITES as the consumer side last saw it (R394). -/
  overwritesLate : Nat := 0
deriving DecidableEq, Repr

/-- The queue R392 enables at reset on each port: 1,024 cells, every class, armed (R395). -/
def evqAtReset : Evq :=
  { enable := true, capacity := 1024, mask := 0xFFFF_FFFF, vector := 256, armed := true }

/-! ### The host ports (chapter 13) -/

/-- The STATE of a DMA queue (R379). -/
inductive QState where
  | disabled
  | running
  | stopped
deriving DecidableEq, Repr

/-- A descriptor the device has taken: its ring index, its 256 bits, its end status where it has one, the bytes carried
and the block of a supply it stands at. -/
structure Taken where
  index  : Nat
  desc   : Nat
  status : Option Nat := none
  bytes  : Nat := 0
  /-- It carries part of a supply (R271). -/
  supply : Bool := false
deriving DecidableEq, Repr

/-- A DMA queue (R379): its registers, the descriptors posted and not taken, those taken and not completed, in ring
order, and the count of completions written. -/
structure DmaQueue where
  sqBase    : Nat := 0
  cqBase    : Nat := 0
  sizeLog2  : Nat := 0
  vector    : Nat := 64
  sqTail    : Nat := 0
  sqHead    : Nat := 0
  cqHead    : Nat := 0
  cqTail    : Nat := 0
  /-- Completions written and not consumed (R383). -/
  cqUsed    : Nat := 0
  phase     : Bool := true
  state     : QState := .disabled
  stopCause : Nat := 0
  /-- ENABLE is cleared and descriptors already started are still being completed. -/
  draining  : Bool := false
  posted    : List Nat := []
  taken     : List Taken := []
deriving DecidableEq, Repr

/-- A BAR2 access held under R378: its aperture, the object's byte it reaches, and the bytes of a write or the length of
a read. -/
structure HeldAccess where
  aperture : Nat
  handle   : Nat
  offset   : Nat
  length   : Nat
  write    : Option Bytes
deriving DecidableEq, Repr

/-- The SPDM state of a port's DOE mailbox (R458): how far the connection has come. -/
inductive SpdmState where
  | none
  | version
  | capabilities
  | algorithms
deriving DecidableEq, Repr

/-- A PCIe port (R371 to R378): link, PORT_INFO, its BAR0 registers, apertures as 128-bit entries, DMA queues, held
accesses and its DOE state. -/
structure Port where
  linkUp     : Bool := false
  training   : Bool := false
  rate       : Nat := 0
  width      : Nat := 0
  flit       : Bool := false
  perstHigh  : Bool := false
  waitLimit  : Nat := 10000
  bar2Failed : Nat := 0
  bytesIn    : Nat := 0
  bytesOut   : Nat := 0
  /-- Log2 of the BAR2 size: 64 GiB at reset. -/
  bar2Log2   : Nat := 36
  apertures  : Tbl Nat := []
  queues     : Tbl DmaQueue := []
  heldAccess : List HeldAccess := []
  /-- The counter at which the link went down, while it is down (R359). -/
  downSince  : Option Nat := some 0
  spdm       : SpdmState := .none
  /-- The DMA queue whose turn is next (R383). -/
  turn       : Nat := 0
deriving DecidableEq, Repr

/-! ### Clocks, gates and power (chapter 14) -/

/-- A clock input (R401, R403): present, its ready flag, and the passing and failing windows in a row. -/
structure RefClock where
  present : Bool := false
  ready   : Bool := false
  pass    : Nat := 0
  fail    : Nat := 0
deriving DecidableEq, Repr

/-- A clock domain (R402): its PLL's reference, whether the PLL is ready, the passing windows of its qualification,
whether it runs and whether a clock hold stopped it. -/
structure Domain where
  ref      : Nat := 0
  next     : Option Nat := none
  pllReady : Bool := false
  pass     : Nat := 0
  fail     : Nat := 0
  running  : Bool := false
  held     : Bool := false
  /-- It qualifies again on a reference selected while it ran (R405). -/
  requal   : Bool := false
  /-- A PCIE domain that has stopped for want of its reference (R407). -/
  lost     : Bool := false
deriving DecidableEq, Repr

/-- Where a DVFS level change stands (R414). -/
inductive DvfsPhase where
  | idle
  | raising
  | slewUp
  | slewDown
deriving DecidableEq, Repr

/-- A transition of the power states (R420, R421): where it stands. -/
inductive PowerStep where
  | steady
  | p2WaitFiller
  | p3WaitFiller
  /-- R420 step 4, the retention save. -/
  | saving (target : Nat)
  /-- R420 step 5 to 6, the 100 µs before the ports go idle. -/
  | idling
  /-- R420 step 7: rails go off, `n` delays of 100 µs done. -/
  | railsOff (target n : Nat)
  /-- R421: waits for the PWR_GOOD bits of `mask`; `fromP` is the state left, 4 at start-up. -/
  | railWait (mask fromP : Nat)
  /-- R421: the delay before the next rails, after the PWR_GOOD of `mask`. -/
  | railDelay (mask fromP : Nat)
  /-- R421 step 7: every PLL qualifies. -/
  | qualifying (fromP : Nat)
  /-- R421 step 9: D2D and DDR-5 retrain. -/
  | training (fromP : Nat) (d2d ddr : Bool)
deriving DecidableEq, Repr

/-- Clocks, gates, DVFS and power. -/
structure Pwr where
  refs       : Tbl RefClock := []
  domains    : Tbl Domain := []
  hold       : Bool := false
  /-- The stacks and the channels are in self-refresh (R407, R420). -/
  hbmSelf    : Bool := false
  ddrSelf    : Bool := false
  /-- A resume has been accepted and its PLLs qualify (R409). -/
  resuming   : Bool := false
  /-- The gate nodes held, and those whose work drains before a HOLD (R412). -/
  heldNodes  : List Nat := []
  draining   : List Nat := []
  opening    : List Nat := []
  /-- A gate request latched behind the opposite change of its node (R422): node and value. -/
  gateLatch  : Option (Nat × Nat) := none
  dvfsPhase  : Tbl DvfsPhase := []
  /-- Millivolts last written over AVSBus to VDD_CD0 to VDD_CD3. -/
  railMv     : Tbl Nat := []
  /-- Dies whose last lowering of the voltage AVSBus has not confirmed (R414 step 5). -/
  lowering   : List Nat := []
  step       : PowerStep := .steady
  /-- A request latched behind a transition the other way (R422): target state and wake cause. -/
  latched    : Option (Nat × Nat) := none
  pwrEn      : Nat := 0
  pwrGood    : Nat := 0
  /-- Rails with an active warning, and those with a regulator fault not yet recovered (R415). -/
  warning    : Nat := 0
  faulted    : Nat := 0
  /-- The retention store holds the items of an entry to this state (R419). -/
  retained   : Option Nat := none
deriving DecidableEq, Repr

/-! ### The governor (chapter 15) -/

/-- The governor's limit of one compute die (R435): milliseconds below the release temperature, whether it throttles, and
whether the limit of 105 °C holds it. -/
structure Throttle where
  coolMs    : Nat := 0
  active    : Bool := false
  limited   : Bool := false
deriving DecidableEq, Repr

/-- The governor: the readings it works from (temperatures as FP32), filters, the valve controller's integral and the
draw histories. -/
structure Gov where
  thInOhm    : List Nat := []
  thOutOhm   : List Nat := []
  /-- Junction of CD0 to CD3, Lapidary A and B, and hub; FP32, absent before the first sample. -/
  junction   : Tbl Nat := []
  hbmTemp    : Tbl Nat := []
  /-- The hottest die sensor, for the trip and CLOCK_RESUME (R437). -/
  hottest    : Nat := 0
  faultSensors : List Nat := []
  tModel     : Option Nat := none
  integral   : Nat := 0
  valveRow   : Nat := 0
  /-- The duty in thousandths of a per mille, which the slew limit moves. -/
  dutyMilli  : Nat := 1000000
  /-- The lower bound of the millisecond under way (R438). -/
  lower      : Option Nat := none
  throttle   : Tbl Throttle := []
  draws      : List Nat := []
  fillerMilliJ : Nat := 0
  shortfallMs : Nat := 0
  mismatchS  : Nat := 0
  trip       : Bool := false
deriving DecidableEq, Repr

/-! ### Fuses, firmware and signing (chapter 16) -/

/-- One copy of the fuse array (R445). -/
structure Fuses where
  seed         : Nat := 0
  roleMap      : Nat := 0
  debugLock    : Nat := 1
  rollback     : Nat := 0
  fwKeys       : Nat := 0
  fwRevoked    : Nat := 0
  serviceKeys  : Nat := 0
  serviceRevoked : Nat := 0
  stepping     : Nat := 0x00A1
  serial       : Nat := 0
  trims        : Nat := 0
  formats      : Nat := 0x0000_0000_FFFF_003F
deriving DecidableEq, Repr

/-- The role-write map of the standard provisioning (R358), as the 128-byte number it reads as. -/
def standardRoleMap : Nat :=
  let nib : Nat → Nat := fun b =>
    if 0x10 ≤ b ∧ b ≤ 0x1F then 0xC
    else if b = 0x73 then 0xF
    else if (0x20 ≤ b ∧ b ≤ 0x6F) ∨ (0x80 ≤ b ∧ b ≤ 0x8F) ∨ (0xB0 ≤ b ∧ b ≤ 0xCF) then 0xE
    else if 0x70 ≤ b ∧ b ≤ 0x7F then 0xE
    else if 0x90 ≤ b ∧ b ≤ 0x9F then 0xF
    else if (0xA0 ≤ b ∧ b ≤ 0xAF) ∨ 0xF0 ≤ b then 0xC
    else 0
  (List.range 256).foldl (fun acc b => acc + nib b * 16 ^ b) 0

/-- The trust chapter's state: both copies of the fuses and the values read at boot, the SPI NOR's regions, the identity
key while the signing engine holds it, and what boot found. -/
structure Sec where
  fuseA      : Fuses := { roleMap := standardRoleMap }
  fuseB      : Fuses := { roleMap := standardRoleMap }
  /-- The values read at boot, with which the device keeps running (R446, R453). -/
  fuses      : Fuses := { roleMap := standardRoleMap }
  spiSlotA   : Bytes := []
  spiSlotB   : Bytes := []
  spiBcr0    : Bytes := []
  spiBcr1    : Bytes := []
  spiCert    : Bytes := []
  /-- The hub ROM's bytes, the subject of measurement 1 (R459). -/
  hubRom     : Bytes := []
  identity   : Option Bytes := none
  publicKey  : Bytes := []
  /-- The signing engine has failed (R455). -/
  signFailed : Bool := false
  certOk     : Bool := false
  bootEpoch  : Nat := 0
  debugOpen  : Bool := false
  /-- Boot has stopped (R451). -/
  bootFailed : Bool := false
  runningSlot : Nat := 0
  fallback   : Bool := false
  failure    : Nat := 0
  preferred  : Nat := 0
  trial      : Bool := false
  tries      : Nat := 0
  bcrSeq     : Nat := 0
  bcrCopy    : Nat := 0
  slotMap    : Nat := 0
  /-- FW_FALLBACK waits to be raised until the management pair runs (R450 step 4). -/
  fallbackDue : Option (Nat × Nat × Nat) := none
  /-- An FW_UPDATE in progress: handle and slot (R452). -/
  fwUpdate   : Option (Nat × Nat) := none
  /-- A LIVE_UPDATE in progress: component and slot (R485). -/
  liveUpdate : Option (Nat × Nat) := none
  /-- The microsecond of the power-on at which that load began (R485). -/
  liveSince  : Nat := 0
deriving DecidableEq, Repr

/-! ### Start-up and service (chapter 17) -/

/-- Where start-up stands (R473). -/
structure Boot where
  porHigh      : Bool := false
  fusesRead    : Bool := false
  slotChecked  : Bool := false
  railsUp      : Bool := false
  partsStarted : Bool := false
  trained      : Bool := false
  hbmTrained   : Bool := false
  ddrTrained   : Bool := false
  zeroed       : Nat := 0
  selfTested   : Bool := false
  ready        : Bool := false
deriving DecidableEq, Repr

/-- The cluster service states of R479, for clusters that are neither placed nor retired. -/
inductive FreeState where
  | spare
  | drained
  | testing
  | tested
deriving DecidableEq, Repr

/-- A cluster command in progress (R480, R481): the cluster by 17 × die + cluster, its command, and the target of a
drain. -/
structure ClusterJob where
  cluster : Nat
  command : Nat
  target  : Nat
deriving DecidableEq, Repr

/-- A test-vector run in progress (R483): its request, MONO_COUNTER at its acceptance, and whether its file waited to be
readable, so that its checks are still to come. -/
structure TvJob where
  request : Nat
  start   : Nat
  waited  : Bool := false
deriving DecidableEq, Repr

structure Svc where
  /-- The state of each free cluster that is not SPARE, by 17 × die + cluster. -/
  clusters   : Tbl FreeState := []
  job        : Option ClusterJob := none
  tv         : Option TvJob := none
  /-- A DEVICE_RESET has been accepted (R472). -/
  resetDue   : Bool := false
  /-- Stand-ins chosen and not yet bound (R331 step 2): logical cluster and physical cluster of its die. -/
  substs     : List (Nat × Nat) := []
deriving DecidableEq, Repr

/-! ### Stages (chapters 08 and 09) -/

/-- The state of a bound stage (R264). -/
inductive StageState where
  | running
  | parked
  | ready
  | failed
deriving DecidableEq, Repr

/-! ### Memory tiers (chapter 09) -/

/-- The MOVE field of a directory entry (R247). -/
inductive Move where
  | settled
  | promoting
  | demoting
  | crossing
  | resupply
  | rebuilding
deriving DecidableEq, Repr

/-- A directory entry (R247). TIER as its code: 1 ABSENT, 2 FAST, 3 SLOW_A, 4 SLOW_B; an UNUSED entry is not listed. -/
structure DirEntry where
  tier       : Nat
  move       : Move := .settled
  compressed : Bool := false
  poisoned   : Bool := false
  kind       : Nat
  dataRo     : Bool := false
  hostRo     : Bool := false
  hintValid  : Bool := false
  hint       : Nat := 0
  lost       : Bool := false
  pins       : Nat := 0
  size       : Nat
  location   : Nat := 0
  target     : Nat := 0
  moveDone   : Nat := 0
  degraded   : Bool := false
  version    : Nat := 0
  sectors    : Nat := 0
  epoch      : Nat := 0
  /-- The tier the move under way goes to, and who began a supply (a port, or 2 for no port). -/
  moveTier   : Nat := 0
  /-- Blocks a reversed demotion still had at its slow target when it was reversed, and the TIER they return from (R262). -/
  back       : Nat := 0
  backTier   : Nat := 0
  supplier   : Nat := 2
  /-- Units of the block a BAR2 supply writes that have been written (R378). -/
  units      : List Nat := []
deriving DecidableEq, Repr

/-- An entry of an object's block map (R255): the first sector of the stored block, the sectors it occupies, RAW, and the CRC-32C of
its uncompressed bytes; beside it the bytes a compressed block's header gives as STORED_LEN. -/
structure OreBlock where
  sector    : Nat := 0
  sectors   : Nat
  raw       : Bool
  crc       : Nat
  storedLen : Nat := 0
deriving DecidableEq, Repr

/-- Who waits on an object (R269, R270): a stage, a DMA descriptor of a queue, a BAR2 access of a port, or an arming. -/
inductive Waiter where
  | stage (handle : Nat)
  | dma (port queue : Nat)
  | bar2 (port : Nat)
  | arm
  | create (index : Nat)
  | tvRun
  /-- A Lapidary that met poison in a layer's update (R265). -/
  | lapidary (lap : Nat)
deriving DecidableEq, Repr

/-- The memory tiers: object bytes by handle × 2^32 + offset in ascending order, an unlisted byte reading 0 (R248), the
directory, and what the residency manager keeps. -/
structure MemState where
  mem        : List Host.Cell := []
  dir        : Tbl DirEntry := []
  /-- The block maps of the objects homed in the slow tier, by handle (R255). -/
  maps       : Tbl (List OreBlock) := []
  /-- The blocks a move or a supply has put at its slow target, in ascending block, by handle; of a reversed demotion those it had
  put there (R253, R255, R262). What stands here of an object that is settled means nothing. -/
  forming    : Tbl (List OreBlock) := []
  /-- Sectors retired, by the TIER of their Lapidary (R253). -/
  badSectors : List (Nat × Nat) := []
  /-- Pins added by OBJECT_PIN, by port and handle (R250): 2^32 × port + handle. -/
  portPins   : Tbl Nat := []
  /-- Residency epoch, advanced every millisecond. -/
  epoch      : Nat := 0
  /-- The handles each cluster's translation cache holds, newest first, by 17 × die + cluster. -/
  tcache     : Tbl (List Nat) := []
  /-- Who waits on which object, in the order they parked. -/
  waiters    : List (Nat × Waiter) := []
  /-- Pending creates by index (R249). -/
  creating   : Tbl DirEntry := []
  /-- Promotions that wait for fast-tier room, in the order of their faults, with the die asked for (R261, R262). -/
  wanting    : List (Nat × Option Nat) := []
  /-- The Lapidaries whose layer update waits for space, which refuse creations and demotions (R258). -/
  spaceHold  : List Nat := []
  /-- Sectors a layer's update holds on each Lapidary from R194 step 3 to step 7 (R258). -/
  reserved   : Tbl Nat := []
  /-- Locations of poisoned data not yet verified by scrub (R271): tier, location, extent. -/
  quarantine : List (Nat × Nat × Nat) := []
  /-- Channels whose last liveness read failed (R254). -/
  missed     : List Nat := []
  /-- Units rebuilt from parity, by Lapidary × 2^40 + unit, and the microsecond of the latest rebuild (R253). -/
  rebuilt    : Tbl Nat := []
  /-- The usable 64 KiB units per die and sectors per Lapidary, after start-up's losses (R475). -/
  sectorsA   : Nat := 1476395008
  sectorsB   : Nat := 1476395008
  /-- Space was below SLOW_LOW_WATER, so that the next fall is not the first (R257). -/
  lowA       : Bool := false
  lowB       : Bool := false
deriving DecidableEq, Repr

/-! ### Outputs -/

/-- One thing the device has sent to the outside. -/
inductive Out where
  /-- A frame on the field network to a station address (R363); 2^48 − 1 is broadcast. -/
  | frame (dst : Nat) (bytes : Bytes)
  /-- An MSI-X vector of a port (R376). -/
  | msix (port vector : Nat)
  /-- Bytes written into host memory by a DMA queue or ring (R383). Relaxed ordering is honoured on data, and never set on a
  completion record (R372). -/
  | hostWrite (port addr : Nat) (relaxed : Bool) (bytes : Bytes)
  /-- The data of a host read of a port. -/
  | readData (port : Nat) (bytes : Bytes)
  /-- A read ended as Unsupported Request (R378). -/
  | unsupported (port : Nat)
  /-- A read ended as Completer Abort (R378). -/
  | completerAbort (port : Nat)
  /-- An SPDM response on a port's DOE mailbox: its name's code and its fields' bytes (R458). -/
  | doe (port : Nat) (code : Nat) (bytes : Bytes)
  /-- A message handed to the links for a rank (R285). -/
  | message (dest : Nat) (m : Msg)
  /-- A flit sent on a link (R281). -/
  | flit (link : Nat) (bytes : Bytes)
  /-- An AVSBus voltage write in millivolts to a rail selector (R414). -/
  | avsWrite (rail mv : Nat)
  /-- Bytes written into the SPI NOR device (R447). -/
  | spiWrite (offset : Nat) (bytes : Bytes)
deriving DecidableEq, Repr

/-! ### Streams, versions and the run (chapters 01 and 08) -/

/-- The state of a stream that is not CLOSED (R241). -/
inductive StreamState where
  | opened
  | halted
  | closing
deriving DecidableEq, Repr

/-- How a sample in flight ended (R390): STATUS, CAUSE and HEALTH_BIT of its output entry. -/
structure Ending where
  status : Nat
  cause  : Nat
  bit    : Nat
deriving DecidableEq, Repr

/-- A serving sample in flight: its input entry, the versions it holds of its layers (R229), and its output or ending
once it has one. -/
structure Sample where
  seq      : Nat
  entry    : Nat
  versions : Tbl Nat := []
  output   : Option Bytes := none
  /-- Outputs of the LANE_LAST stages that have finished, by layer. -/
  parts    : Tbl Bytes := []
  /-- Its output has non-finite elements (R173). -/
  nonFinite : Bool := false
  ending   : Option Ending := none
  /-- Its output entry has been held back under R466. -/
  held     : Bool := false
  /-- LAYER, take and version digest of the versions it read, as its MANIFEST_DIGEST covers them (R462). -/
  manifest : Bytes := []
deriving DecidableEq, Repr

/-- A stream that is not CLOSED: its 64-byte descriptor, the port that opened it, where it stands, the sequence number
of its next sample and the samples in flight, in order. -/
structure Stream where
  desc    : Nat
  state   : StreamState := .opened
  nextSeq : Nat := 0
  samples : List Sample := []
  /-- The stream recipe digest (R463). -/
  recipe  : Bytes := []
  /-- Versions a PINNED stream pins, take by layer (R230). -/
  pins    : Tbl Nat := []
  /-- Keys by stage handle × 4 + binding entry (R232). -/
  keys    : Tbl Nat := []
  /-- A second formation of one of its keys drew another probe (R235): its samples fail. -/
  stuck   : Bool := false
deriving DecidableEq, Repr

/-- A closed batch that waits to be written (R464): its number, leaves, counters and root. -/
structure ClosedBatch where
  number : Nat
  count  : Nat
  first  : Nat
  last   : Nat
  root   : Bytes
deriving DecidableEq, Repr

/-- The receipts of a port: the open batch's number, leaves and counters, the root of the batch before it, the batches
closed and not written, and whether the oldest waits for its ring (R466). -/
structure Batches where
  number : Nat := 0
  leaves : List Bytes := []
  first  : Nat := 0
  last   : Nat := 0
  closed : List ClosedBatch := []
  prev   : Bytes := List.replicate 64 0
  waiting : Bool := false
deriving DecidableEq, Repr

/-- A held version of a layer's working copy (R229): the take that names it, the handles its working copy, vein weights
and fallback copy are read through, the fast-tier extents it holds beyond those objects, and whether a host supplied
it. -/
structure Version where
  take    : Nat
  objs    : List Nat
  extents : List (Nat × Nat) := []
  host    : Bool := false
  /-- The version digest of R462, once formed. -/
  digest  : Bytes := []
  /-- The hold of a PINNED stream or of a sample pins its objects (R250). -/
  pinned  : Bool := false
deriving DecidableEq, Repr

/-- The open take (R42, R178): the low 32 bits of its local health word as it gathers, the word once latched, whether
it was cut early, and what it counts. -/
structure Take where
  number  : Nat
  bits    : Nat := 0
  latched : Option Nat := none
  early   : Bool := false
  /-- The flags of the Lapidary and the collective engine in the take (R172). -/
  flags   : Nat := 0
  tiles   : Nat := 0
  overTol : Nat := 0
  skipped : Nat := 0
  /-- cg of the take (R148). -/
  cg      : Int := 0
  /-- The input entries taken, by sample index, and the indices refused (R388). -/
  entries : Tbl Nat := []
  refused : List Nat := []
  /-- The bytes the stages took of each sample, of which its DATA_DIGEST is formed (R313): by sample index × 2^33 + layer,
  the targets of the loss stage at sample index × 2^33 + 2^32. -/
  digests : Tbl Bytes := []
  /-- Samples of a replay refused until PRODUCER is written again (R315, R388). -/
  held    : List Nat := []
deriving DecidableEq, Repr

/-- The update context of a print for one group (R193): σ, η, ηλ, h_0 to h_3 and p. -/
structure GroupCtx where
  sigma    : Nat := 0
  eta      : Nat := 0
  etaDecay : Nat := 0
  h        : List Nat := []
  pos      : Nat := 0
deriving DecidableEq, Repr

/-- The context that travels with a printed take's updates: the take, its cg, and every group's part. -/
structure UpdateCtx where
  take   : Nat
  cg     : Int
  groups : List GroupCtx
deriving DecidableEq, Repr

/-- Where an arming stands (R478): the promotions of step 4, the restore of step 5, the peers of step 7. -/
inductive ArmPhase where
  | promoting
  | restoring
  /-- An older version holds an arming version up (R231). -/
  | versions
  | peers
deriving DecidableEq, Repr

/-- An object as it stood before an arming changed it: its handle, entry and bytes. -/
structure SavedObject where
  handle : Nat
  entry  : DirEntry
  cells  : List Host.Cell
deriving DecidableEq, Repr

/-- An arming in progress: where it stands, what the double has answered, and what a refusal puts back. -/
structure Arm where
  phase    : ArmPhase := .promoting
  /-- The double has answered the HELLO, with this FEED_ID. -/
  answered : Bool := false
  feed     : Nat := 0xFF
  /-- The dictionary's values that arming changes, as they were before it. -/
  prior    : Tbl Nat := []
  /-- A still has been restored; the tracker table's bytes before it. -/
  restored : Bool := false
  priorTrackers : Bytes := []
  /-- The objects arming has changed, as they were, and the versions of the layers before it made its own (R314, R318, R328). -/
  saved : List SavedObject := []
  priorVersions : Tbl (List Version) := []
  /-- Objects engines read that are not SETTLED in FAST yet, with the pins they get once they are (R250). -/
  late : Tbl Nat := []
deriving DecidableEq, Repr

/-- What arming copied and the run keeps. -/
structure Run where
  /-- Stream 0 is open (R226). -/
  stream0 : Bool := false
  /-- The arming in progress. -/
  arm     : Option Arm := none
  /-- Handles of the stage list in its order, and the objects the arming pinned beyond those its stages name (R250). -/
  listed  : List Nat := []
  pinned  : List Nat := []
  /-- The contexts of printed takes whose updates are not complete, oldest first (R193). -/
  contexts : List UpdateCtx := []
  /-- Pending error-feedback residuals by layer: the take and the values (R203). -/
  residuals : Tbl (Nat × List Nat) := []
  /-- Outcomes of a working copy's writing that count against the take that first reads it (R132, R172), by layer: tensor,
  format, flags, and ELEMENTS, the four outcome counts and the 32 bins. -/
  wcCounts : Tbl (Nat × Nat × Nat × List Nat) := []
  /-- The gradient of a learned activation scale that the reductions of the take gave, by layer (R131). -/
  actGrads : Tbl Nat := []
  /-- A wait of R231 has been announced: layers by take. -/
  pinWait : List (Nat × Nat) := []
  /-- Groups whose curve has reached its end (R199). -/
  curveEnded : List Nat := []
  /-- DICT_DIGEST as it stood at the take's admission (R312). -/
  dictDigest : Bytes := []
  /-- The digest of the stage list part of the recipe, and the whole (R311), are in the dictionary. The printed state the
  run starts from: its take and its STATE_DIGEST (R323). -/
  fromTake : Nat := 0
  fromDigest : Bytes := []
  /-- The STATE_DIGEST of the still the arming restored; empty where it restored none (R315). -/
  stillDigest : Bytes := []
  /-- The open take reruns the sample list of the one before it (R182, R308). -/
  retake : Bool := false
  /-- GRAD_SCALE_EXP of the take to be admitted next, once the verdict has set it (R149). -/
  nextCg : Option Nat := none
  /-- Objects pinned for a retake until its sample list prints or is skipped (R182, R250). -/
  retakePins : List Nat := []
  /-- Objects of the kinds R384 lists that the armed run names: no port may write them. -/
  guarded : List Nat := []
  /-- The training input and output rings of the armed run. -/
  rings   : List Nat := []
  take    : Option Take := none
  /-- Health bits charged between a take's latch and the next admission (R179). -/
  nextBits : Nat := 0
  /-- Flags of the Lapidary and the collective engine raised while no take is open (R172; log entry 92). -/
  nextFlags : Nat := 0
  /-- A contribution with the early mark has come for the open take (R183). -/
  marked : Bool := false
  /-- This device, as the root, has cut the take and sent the verdict down; it is still to latch it (R183 step 4). -/
  rootCut : Bool := false
  /-- The next take reruns the sample list of the last one, whatever DISCARD_POLICY holds (R331, R332). -/
  rerun   : Bool := false
  /-- The group and layer tables as arming copied them (R187), each entry as the number its bytes spell, and the curves
  and programs of the groups. -/
  groups  : List Nat := []
  layers  : List Nat := []
  curves  : Tbl Bytes := []
  programs : Tbl Bytes := []
  /-- Layers whose update has passed R194 step 3 and is not published: the masters no longer hold the newest version's
  values (R269). -/
  writing : List Nat := []
  /-- The statistics records of the run in their order: tensor and format (R168). -/
  stats   : List (Nat × Nat) := []
  /-- Layers whose update of a printed take is not published: Lapidary, layer, take, in their order (R194). -/
  updates : List (Nat × Nat × Nat) := []
  /-- Training outputs that wait for the output ring: the ring, SEQUENCE, SAMPLE_ID and the bytes. -/
  outputs : List (Nat × Nat × Nat × Bytes) := []
  /-- The SEQUENCE after the last one of training to leave for each output ring (R390). -/
  outNext : Tbl Nat := []
  /-- A part whose loss every later take carries has been lost since arming (R332). -/
  partLost : Bool := false
  /-- Words of the verdict tree's children that have come for the open take, by rank (R299). -/
  reports : Tbl Nat := []
  /-- The last take the run printed (R201); it outlasts the run. -/
  lastPrint : Nat := 0
  /-- The stop came while the run was ARMED, and waits for no work (R361 step 1). -/
  stopAtOnce : Bool := false
  /-- The STOP record has been made due (R361 step 4). -/
  stopLogged : Bool := false
  /-- Trackers that saw an element in the open take (R153). -/
  trackersSeen : List Nat := []
  /-- The entries of a skipped take are still to be passed, once its last one is there (R388). -/
  skipDue : Bool := false
  /-- This device's word, with its subtree's, has been sent up or formed into the verdict. -/
  upSent  : Bool := false
  /-- The verdict this device forms as the root, or as the root of its own subtree, and has not latched yet. -/
  formed  : Option Nat := none
deriving DecidableEq, Repr

/-! ### Links and collectives (chapter 10) -/

/-- The STATE of a link (R303). -/
inductive LinkState where
  | down
  | training
  | trained
  | up
  | spare
  | retraining
  | retired
  | miswired
deriving DecidableEq, Repr

/-- A DATA flit's content (R281): its channel, HOP, destination, source and 244 bytes of payload, and the link whose
receive buffer it stands in until it is sent on, where it is forwarded. -/
structure Flit where
  vc     : Nat
  hop    : Nat
  dest   : Nat
  src    : Nat
  data   : Bytes
  origin : Option Nat := none
deriving DecidableEq, Repr

/-- A message part of whose flits have arrived on a link (R289): its channel and ranks, the bytes still to come, the bytes
here (where this device is its destination) and the link that carries it on (where it is not). -/
structure Partial where
  vc   : Nat
  src  : Nat
  dest : Nat
  left : Nat
  bytes : Bytes := []
  link : Option Nat := none
deriving DecidableEq, Repr

/-- A link: its state and counts (R303), the retry buffer (R282), credits by class (R283), and the flits that wait. -/
structure Link where
  state     : LinkState := .down
  peerRank  : Nat := 0xFFFF
  matched   : Bool := false
  mismatch  : Option (Nat × Nat) := none
  /-- It was in service when it began to train (R290). -/
  service   : Bool := false
  retrains  : Nat := 0
  retries   : Nat := 0
  crcErrors : Nat := 0
  fecCorrected : Nat := 0
  fecUncorrectable : Nat := 0
  /-- Flits that wait to be sent, in order. -/
  queue     : List Flit := []
  /-- Sent and not yet covered by an ACK_SEQ: sequence number and flit, oldest first. -/
  buffer    : List (Nat × Flit) := []
  nextSeq   : Nat := 0
  /-- Replays in a row without an advance of ACK_SEQ. -/
  replays   : Nat := 0
  /-- Sequence numbers still to be replayed. -/
  replaying : List Nat := []
  /-- Cumulative credits the other end has returned, and those used, by class 4 × VC + HOP. -/
  granted   : Tbl Nat := []
  used      : Tbl Nat := []
  /-- Cumulative credits this end returns, and the class the next flit reports. -/
  returned  : Tbl Nat := []
  creditTurn : Nat := 0
  /-- The next sequence number expected; whether a NAK is to be sent, and whether one was since the last flit
  accepted. -/
  expected  : Nat := 0
  nakDue    : Bool := false
  nakSent   : Bool := false
  /-- Slots of the window of 100, and those STILL took (R284). -/
  slots     : Nat := 0
  stillSlots : Nat := 0
  partialIn : List Partial := []
deriving DecidableEq, Repr

/-- A message sent and not acknowledged (R286): destination, MSG_ID, its bytes, its channel, and the link that carries it
where one does. -/
structure Sent where
  dest : Nat
  id   : Nat
  vc   : Nat
  msg  : Bytes
  link : Option Nat
  /-- The link that carried it has left UP, and no port reached the rank since (R286, R292). -/
  again : Bool := false
deriving DecidableEq, Repr

/-- A collective on this member (R294 to R298): its entry, its ranks, the TAKE of its messages, this member's encoded
values, the values received of each child of each shard, and the shards done. -/
structure Coll where
  entry   : Nat
  ranks   : List Nat
  tag     : Nat := 0
  running : Bool := false
  invocations : Nat := 0
  own     : List Nat := []
  /-- Values received, by shard × 2^16 + relative position of the child, as (offset in the shard, value). -/
  got     : Tbl (Tbl Nat) := []
  /-- Shards whose partial has been sent up, and shards written. -/
  sentUp  : List Nat := []
  done    : List Nat := []
  /-- Result values received of a shard not complete. -/
  results : Tbl (Tbl Nat) := []
  nonFinite : Nat := 0
  /-- A HOST collective has been started and waits until its SOURCE can be read (R263, R272). -/
  waits   : Bool := false
  /-- Nothing is outstanding: it has completed or been abandoned, or none has begun. -/
  complete : Bool := true
deriving DecidableEq, Repr

/-- The links and the collective engines. -/
structure LinkSys where
  links    : Tbl Link := []
  /-- The next MSG_ID to each rank. -/
  nextId   : Tbl Nat := []
  sent     : List Sent := []
  /-- (source, MSG_ID) accepted in the open take. -/
  accepted : List (Nat × Nat) := []
  lost     : List Nat := []
  /-- The microsecond at which each peer was last heard (R300). -/
  heard    : Tbl Nat := []
  /-- Flits of other devices' messages that wait for a way to their destination (R292). -/
  parked   : List Flit := []
  /-- Ranks ROUTE_UNREACHABLE has been raised for and not since reached. -/
  unreachable : List Nat := []
  /-- The collective table's entries as arming copied them, by index. -/
  colls    : Tbl Coll := []
  /-- Links whose training waits for the link reference and the serial rails (R279 step 1). -/
  trainDue : List Nat := []
  /-- LINKS_IN_SERVICE has been below LINK_MIN. -/
  belowMin : Bool := false
  /-- Ports whose PORT_DOWN has been raised and not since been up. -/
  portsDown : List Nat := []
  /-- The route table as arming copied it, one 64-bit entry a rank. -/
  routes   : List Nat := []
deriving DecidableEq, Repr

/-! ### Risk (R329) -/

/-- The risk sources by row number: points of the condition as it is, points held, and the trailing counts. -/
structure Risk where
  now     : Tbl Nat := []
  held    : Tbl Nat := []
  /-- Corrected errors and replays: the counter's microseconds and the number, newest first. -/
  corrected : List (Nat × Nat) := []
  replays : List (Nat × Nat) := []
  /-- Takes with a dailies alarm among the last 64. -/
  alarms  : List Nat := []
  /-- Less than 1 ms has passed since the latest REPLACE_REQUEST bit (R502). -/
  pulse   : Bool := false
deriving DecidableEq, Repr

/-! ### The continuity log (R307 to R317) -/

/-- A record that waits to be written: everything of its header and body that is fixed when it is due. -/
structure LogRecord where
  kind     : Nat
  outcome  : Nat := 0
  cg       : Int := 0
  take     : Nat
  verdict  : Nat := 0
  /-- SAMPLE_ID, sample index and DATA_DIGEST. -/
  samples  : List (Nat × Nat × Bytes) := []
  trackers : List Nat := []
  retake   : Bool := false
  signed   : Bool := false
  fromTake : Nat := 0
  dict     : Bytes := []
  state    : Bytes := []
deriving DecidableEq, Repr

/-- A TAKE record of a replay (R314, R315). -/
structure ReplayRecord where
  outcome  : Nat
  cg       : Int
  take     : Nat
  verdict  : Nat
  retake   : Bool
  samples  : List (Nat × Nat × Bytes)
  trackers : List Nat
  dict     : Bytes
  digest   : Bytes
deriving DecidableEq, Repr

/-- The log: records that wait, whether the oldest has been announced as waiting for room, and the records still to be
replayed. -/
structure LogState where
  waiting  : List LogRecord := []
  full     : Bool := false
  replay   : List ReplayRecord := []
  /-- The take P the replay starts from. -/
  replayFrom : Nat := 0
deriving DecidableEq, Repr

/-! ### Stills and doubles (R318 to R328) -/

/-- A still being sent: its take, whether it is a base still, its manifest and STATE_DIGEST, the chunks still to be sent:
manifest chunks, blocks with a pending mark, and END. -/
structure StillJob where
  take     : Nat
  base     : Bool
  manifest : Bytes
  digest   : Bytes
  chunks   : Nat
  blocks   : List (Nat × Nat)
  ended    : Bool := false
deriving DecidableEq, Repr

/-- How an object is stilled (R322): by TRACE or FULL, the blocks it changed since the last base still, and the prints
since then. -/
structure StillMethod where
  trace   : Bool := false
  changed : Nat := 0
  prints  : Nat := 0
  /-- Its trace was refused: it is FULL at the next still. -/
  refused : Bool := false
deriving DecidableEq, Repr

/-- A slot of a double (R324): the take, whether it holds a base still, manifest chunks and blocks as they come (eighths of
a block by handle × 2^19 + block × 8 + part), and whether its still is complete. -/
structure StillSlot where
  take     : Nat
  base     : Bool
  manifest : Tbl Bytes := []
  parts    : Tbl Bytes := []
  /-- STATE_DIGEST of END, once that has come. -/
  ended    : Option Bytes := none
  valid    : Bool := false
deriving DecidableEq, Repr

/-- A device a double serves: rank, the blocks of its stilled state, its two slots, and the traces since its base, oldest
first: take, part key and bytes. -/
structure Served where
  rank   : Nat
  blocks : Nat
  slotA  : Option StillSlot := none
  slotB  : Option StillSlot := none
  traces : List (Nat × Nat × Bytes) := []
  /-- How many of those traces were there when the device last armed: they end with the base of that arming (R324). -/
  before : Nat := 0
deriving DecidableEq, Repr

/-- Stills: what this device sends, and what it stores for others. -/
structure StillState where
  job     : Option StillJob := none
  /-- A still due once the updates of its take are complete (R330): take and base flag. -/
  due     : Option (Nat × Bool) := none
  /-- The manifest's part fixed at the record of the due take (R321). -/
  snap    : Bytes := []
  /-- The same as the print left it, until the record adds LOG_SEQUENCE and LOG_HEAD. -/
  printed : Bytes := []
  methods : Tbl StillMethod := []
  /-- Trace blocks to be sent: handle, block, take. -/
  traces  : List (Nat × Nat × Nat) := []
  /-- What a restore has received so far. -/
  restore : Option StillSlot := none
  served  : List Served := []
  /-- Chunks sent to the double and not answered, oldest first: take, INDEX, PART and the object, or 0xFFFF_FFFF. An ACK names no
  object (R326). -/
  sent    : List (Nat × Nat × Nat × Nat) := []
  /-- The poison of the still store has been dealt with (R327). -/
  storeSeen : Bool := false
deriving DecidableEq, Repr

/-! ### Bound stages -/

/-- The rows of one sample that a source has handed to a stage's join (R224): the source's layer, lane and position, and
the rows as codes. -/
structure Delivery where
  layer  : Nat
  lane   : Nat
  pos    : Nat
  stream : Nat
  seq    : Nat
  take   : Nat
  rows   : List (List Nat)
deriving DecidableEq, Repr

/-- The forward of a sample at a stage: its input rows as they arrived (and the second operand of a PAIR join), its
targets, what the vector program, the quantiser and the tiles have made of each token, and what is still to do. -/
structure Fwd where
  stream  : Nat
  seq     : Nat
  take    : Nat
  tokens  : Nat := 0
  input   : List (List Nat) := []
  input2  : List (List Nat) := []
  targets : List Nat := []
  /-- FP32 results of the vector program, by token. -/
  rows    : Tbl (List Nat) := []
  /-- Activation codes, activation scale words and BF16 vein elements, by token. -/
  codes   : Tbl (List Nat) := []
  scales  : Tbl Nat := []
  veinX   : Tbl (List Nat) := []
  /-- Tile operations completed, as (output tile, token block). -/
  done    : List (Nat × Nat) := []
  /-- Output codes by token × 64 + output tile. -/
  out     : Tbl (List Nat) := []
  /-- A wait at the version gate has been counted (R44). -/
  gateWait : Bool := false
  /-- OUTLIER_ROW and CLIP_SATURATED raised for this sample of a serving stage. -/
  outlierSeen : Bool := false
  clipSeen : Bool := false
  /-- A recompute pass (R160): nothing is counted, and the rows go to the stage named. -/
  recompute : Option Nat := none
deriving DecidableEq, Repr

/-- The backward of a training sample at a stage: the gradient codes received from each destination, row by row (E5M2
codes with their block exponents as exponent × 2^16 + code, or BF16 codes), the stage's input once it is back, and the
input gradients in FP32 by token × 64 + input tile. -/
structure Bwd where
  seq    : Nat
  take   : Nat
  tokens : Nat := 0
  grads  : List (List (List Nat)) := []
  input  : Option (List (List Nat)) := none
  input2 : List (List Nat) := []
  codes  : Tbl (List Nat) := []
  scales : Tbl Nat := []
  veinX  : Tbl (List Nat) := []
  /-- The scale exponent k of each clip block (R130). -/
  ks     : Tbl Nat := []
  done   : List (Nat × Nat) := []
  out    : Tbl (List Nat) := []
  /-- The stash missed its deadline for this sample (R161). -/
  late   : Bool := false
  /-- Items of the sample pushed so far (R155), and where its gradients stand in the cluster store: offset and bytes. -/
  pushed : Nat := 0
  gAt    : Option (Nat × Nat) := none
  /-- Its gradient has gone below, or it sends none. -/
  sent   : Bool := false
deriving DecidableEq, Repr

/-- Gradient lines on their way to a stage: who sent them, of which sample, the tag they carry and the rows. -/
structure GradIn where
  sender : Nat
  seq    : Nat
  take   : Nat
  tag    : Nat
  /-- The sending stage's backward sample count, which the tag is checked against (R141). -/
  count  : Nat
  rows   : List (List Nat)
  /-- The side data of its block lines (R64), row after row, without BLOCK_EXP: SEQ_TAG, FORMAT, VALID and the reserved bits as the
  16 bytes hold them. Gradients in BF16 have none. -/
  sides  : List Nat := []
deriving DecidableEq, Repr

/-- An item of a deferred weight-gradient queue (R155): the stage, and its entry's BIND_POS, KIND (0 main, 1 vein), SAMPLE,
IN_TILE, TOKENS, X_ADDR and G_ADDR, with the bytes its operands take there. -/
structure WItem where
  stage   : Nat
  bindPos : Nat
  kind    : Nat
  sample  : Nat
  tile    : Nat
  tokens  : Nat
  xAddr   : Nat := 0
  gAddr   : Nat := 0
  xBytes  : Nat := 0
  gBytes  : Nat := 0
  /-- The operands at those addresses: the sample's gradients, and its codes, scales and veins once its input is back. -/
  work    : Bwd
deriving DecidableEq, Repr

/-- The record of a core DMA transfer (R266): the object, its offset, length and granules completed. -/
structure Transfer4 where
  handle : Nat
  offset : Nat
  /-- Where it goes in the core-store partition. -/
  dest   : Nat := 0
  length : Nat
  done   : Nat := 0
deriving DecidableEq, Repr

/-- A bound stage: its descriptor as the 16,384-bit number its bytes spell, the physical core d × 256 + c × 8 + k and
the binding position, its state, and the samples it holds. -/
structure Stage where
  desc  : Nat
  core  : Nat := 0
  pos   : Nat := 0
  state : StageState := .running
  /-- The layer runs in fallback (R124), or was left narrow (R126). -/
  fallback : Bool := false
  denied : Bool := false
  /-- The vein table, copied at binding (R116). -/
  veins : List Nat := []
  /-- The objects its binding pinned (R250). -/
  pinned : List Nat := []
  /-- Its input is stashed; an anchor released at arming is none (R126). -/
  anchor : Bool := false
  /-- The serving samples the stage is still to take, in the order of their admission (R223). -/
  todo  : List (Nat × Nat) := []
  /-- The next sample index of the take, in forward and in backward (R223). -/
  nextIx : Nat := 0
  bwdIx  : Nat := 0
  /-- The quantiser's row count and the backward sample count (R111, R141). -/
  rowCount : Nat := 0
  bwdCount : Nat := 0
  /-- The take of the version whose scale words the core holds (R110). -/
  version : Option Nat := none
  /-- The forward tile operation in flight. -/
  op    : Option (Nat × Nat) := none
  joins : List Delivery := []
  fwd   : Option Fwd := none
  bwd   : Option Bwd := none
  /-- Gradient lines that have arrived and are not yet received. -/
  gradIn : List GradIn := []
  /-- The stash by sample index (R159), and where in STASH_OBJECT each sample's bytes stand: offset and length. -/
  stash : Tbl (List (List Nat)) := []
  stashAt : Tbl (Nat × Nat) := []
  /-- Samples whose stash was released with its object's poison (R269). -/
  stashLost : List Nat := []
  /-- Samples whose stash missed its deadline before the stage's own backward of them began (R161, R267). -/
  missed : List Nat := []
  /-- Core DMA transfers in flight by number, up to 8 (R266). -/
  transfers : Tbl Transfer4 := []
  /-- Serving samples whose weights missed their deadline, for which WEIGHT_LATE has been raised (R268). -/
  late : List (Nat × Nat) := []
  /-- Replica that sent each sample's forward, by sample: the stages gradients go back to. -/
  origins : Tbl (List Nat) := []
  /-- The gradient of the learned activation scale gathered in the take, FP32 (R131). -/
  actGrad : Nat := 0
  /-- Dailies references outstanding, which hold up R42 step 6 alone: output tile, the row of the stage's input and the narrow
  values (R176). -/
  dailies : List (Nat × List Nat × List Nat) := []
  /-- STASH_LATE, OUTLIER_ROW and CLIP_SATURATED raised in the take. -/
  stashLate : Bool := false
  outlierSeen : Bool := false
  clipSeen : Bool := false
deriving DecidableEq, Repr

/-- The issue unit of a core (R221): the stage that holds it, and for each other stage the consecutive boundaries it was
passed over at while ready. -/
structure IssueUnit where
  holder : Option Nat := none
  passed : Tbl Nat := []
deriving DecidableEq, Repr

/-- The context of a stage in its slot of the pinned save area (R28, R222): whose it is, the sample it stands in, the tile
operations of it that are done, its tags and counts, and the rows the vector engine holds. -/
structure SavedContext where
  stage    : Nat
  sample   : Option (Nat × Nat) := none
  done     : List (Nat × Nat) := []
  rowCount : Nat := 0
  bwdCount : Nat := 0
  rows     : Tbl (List Nat) := []
deriving DecidableEq, Repr

/-- A registered generator binding (R234): KIND, tensor and purpose, the layer that holds it, its users, its key and its
probe at registration. -/
structure GenBinding where
  kind    : Nat
  tensor  : Nat
  purpose : Nat
  layer   : Nat
  users   : Nat
  key     : Nat
  probe   : Nat
deriving DecidableEq, Repr

/-! ### The whole device -/

/-- The device: everything a command may change but the queue of the commands that wait. -/
structure Device where
  ctl    : Ctl := {}
  /-- Event queues by number; an unlisted one is disabled with the other reset values of R392. -/
  evqs   : Tbl Evq := [(0, evqAtReset), (128, evqAtReset)]
  ports  : Tbl Port := []
  pwr    : Pwr := {}
  gov    : Gov := {}
  sec    : Sec := {}
  boot   : Boot := {}
  svc    : Svc := {}
  ms     : MemState := {}
  /-- Bound stages by the handle of their descriptor. -/
  stages : Tbl Stage := []
  /-- The registry of generator bindings (R234). -/
  bindings : List GenBinding := []
  /-- Scale registers by core × 4096 + register (R110). -/
  scaleRegs : Tbl Nat := []
  /-- The issue units by core (R221), and the contexts in the pinned save areas by core × 4 + binding position (R222). -/
  issue    : Tbl IssueUnit := []
  saveArea : Tbl SavedContext := []
  /-- The core, 0 to 7, whose request the side unit of each cluster took last, by core / 8 (R29). -/
  sideLast : Tbl Nat := []
  /-- The sticky engine flags by core × 4 + binding position, one 32-bit word each (R172). -/
  engineFlags : Tbl Nat := []
  /-- The deferred weight-gradient queues by core, oldest item first (R155). -/
  deferred : Tbl (List WItem) := []
  run    : Run := {}
  /-- Streams 1 to 32,767 that are not CLOSED. -/
  streams : Tbl Stream := []
  /-- Held versions of each layer, newest first. -/
  versions : Tbl (List Version) := []
  /-- Publications of hosts whose digest is still to be formed, oldest first: the values written (R462). -/
  publications : List Nat := []
  /-- The receipt batches of the ports. -/
  batches : Tbl Batches := []
  net    : LinkSys := {}
  log    : LogState := {}
  still  : StillState := {}
  risk   : Risk := {}
  /-- What the device has sent, newest first. -/
  out    : List Out := []
  /-- MONO_COUNTER's low 48 bits: microseconds since boot (R460). -/
  micros : Nat := 0
  /-- THE MODEL'S OWN FIELD: how many free values have been drawn. -/
  free   : Nat := 0
deriving DecidableEq, Repr

/-- Why a command stops the machine. -/
inductive Fault where
  /-- An obligation of the text stated with "you must" is broken and the text states no outcome (R2): raised by the
  command that breaks it. Safe: the device goes on in a way the text does not define. -/
  | obligationBroken
deriving DecidableEq, Repr

/-- Why a command is refused. -/
inductive Refusal where
  /-- A command this model gives no meaning yet, by its mnemonic: raised by the arm of `exec`. Safe. -/
  | notModelled (mnemonic : String)
deriving DecidableEq, Repr

/-- The state of the block: the device, and the commands that wait, first in first out. -/
structure State where
  dev     : Device := {}
  pending : List Instr := []
deriving DecidableEq, Repr

/-- The state right after a power-on reset, POR_N still low: every object at its default, no memory written, no command
waiting. -/
def State.reset : State := {}

/-- A command that completes: it changes the device and leaves the queue alone. -/
def onDev (s : State) (f : Device → Device) : Host.Outcome State Fault Refusal := .next { s with dev := f s.dev }

end Sys2Proof.Machine
end

