-- ==== Sys2Proof/Machine/Ops.lean ====
section
/-!
DEFINITION. The named operations over the device every command is written with: reading and writing a dictionary value,
counting, sending something out, the passing of time.
-/
namespace Sys2Proof.Machine

/-- The value in effect of a stored object (R344); an object never written has its default (R16). -/
def Device.get (d : Device) (key : Nat) : Nat := tgetD d.ctl.dict key (dfltOf key)

/-- A stored object set. -/
def Device.put (d : Device) (key v : Nat) : Device := { d with ctl := { d.ctl with dict := tset d.ctl.dict key v } }

/-- A 64-bit counter advanced by `n`. -/
def Device.addTo (d : Device) (key n : Nat) : Device := d.put key ((d.get key + n) % 2 ^ 64)

/-- A 64-bit counter advanced by one. -/
def Device.bump (d : Device) (key : Nat) : Device := d.addTo key 1

/-- A 32-bit counter advanced by `n`. -/
def Device.addTo32 (d : Device) (key n : Nat) : Device := d.put key ((d.get key + n) % 2 ^ 32)

/-- Something sent to the outside. -/
def Device.emit (d : Device) (o : Out) : Device := { d with out := o :: d.out }

/-- The number of the next free value, and the device with it drawn. -/
def Device.draw (d : Device) : Nat × Device := (d.free, { d with free := d.free + 1 })

/-- The control path changed. -/
def Device.onCtl (d : Device) (f : Ctl → Ctl) : Device := { d with ctl := f d.ctl }

/-- The power state changed. -/
def Device.onPwr (d : Device) (f : Pwr → Pwr) : Device := { d with pwr := f d.pwr }

/-- The memory state changed. -/
def Device.onMs (d : Device) (f : MemState → MemState) : Device := { d with ms := f d.ms }

/-- The trust state changed. -/
def Device.onSec (d : Device) (f : Sec → Sec) : Device := { d with sec := f d.sec }

/-- The service state changed. -/
def Device.onSvc (d : Device) (f : Svc → Svc) : Device := { d with svc := f d.svc }

/-- The run changed. -/
def Device.onRun (d : Device) (f : Run → Run) : Device := { d with run := f d.run }

/-- The links' state changed. -/
def Device.onNet (d : Device) (f : LinkSys → LinkSys) : Device := { d with net := f d.net }

/-- The governor's state changed. -/
def Device.onGov (d : Device) (f : Gov → Gov) : Device := { d with gov := f d.gov }

/-- The start-up state changed. -/
def Device.onBoot (d : Device) (f : Boot → Boot) : Device := { d with boot := f d.boot }

/-- RUN_STATE (R360). -/
def Device.runState (d : Device) : Nat := d.get Obj.runState

/-- Armed, as R344 means it: ARMING, ARMED, RUNNING or STOPPING. -/
def Device.armed (d : Device) : Bool := d.runState != 0

/-- The device-local monotonic counter (R460): BOOT_EPOCH in bits [63:48], microseconds since boot below. -/
def Device.mono (d : Device) : Nat := d.sec.bootEpoch * 2 ^ 48 + d.micros

/-- Time passes while no command waits: one microsecond on the monotonic counter, which runs once POR_N is released (log
entry 1). -/
def tick (d : Device) : Device := if d.boot.porHigh then { d with micros := (d.micros + 1) % 2 ^ 48 } else d

/-- A list of effects in order. -/
def Device.each {α : Type} (d : Device) (xs : List α) (f : Device → α → Device) : Device := xs.foldl f d

/-- A step taken only where a condition holds. -/
def Device.onlyIf (d : Device) (c : Bool) (f : Device → Device) : Device := if c then f d else d

/-- A port, at reset where it was never touched. -/
def Device.port (d : Device) (p : Nat) : Port := tgetD d.ports p {}

/-- A port changed. -/
def Device.setPort (d : Device) (p : Nat) (x : Port) : Device := { d with ports := tset d.ports p x }

/-- A port changed by a function. -/
def Device.onPort (d : Device) (p : Nat) (f : Port → Port) : Device := d.setPort p (f (d.port p))

/-- An MSI-X vector of a port is signalled (R376). -/
def Device.msix (d : Device) (p vector : Nat) : Device := d.emit (.msix p vector)

/-- The port whose grant holds a stream (R228). -/
def Device.grantPort (d : Device) (stream : Nat) : Option Nat :=
  let inside : Nat → Bool := fun g => bits g 0 16 ≤ stream && stream < bits g 0 16 + bits g 16 16
  if inside (d.get Obj.streamGrant0) then some 0
  else if inside (d.get Obj.streamGrant1) then some 1
  else none

/-- The station address of a node (R363). -/
def stationOf (node : Nat) : Nat := 0x024C56510000 + node

/-- The broadcast address. -/
def broadcast : Nat := 2 ^ 48 - 1

/-- A field-network frame sent: EtherType 0x88B5 in the standard's order, the 4-byte frame header with the Q96's own node
ID, the body, padded to the standard's minimum of 46 bytes (R363). It is handed to the port: the segment's transmit opportunities and
beacons (R362) are timing (log entry 136). -/
def Device.sendFrame (d : Device) (dst kind : Nat) (body : Bytes) : Device :=
  let b : Bytes := [0x88, 0xB5, 1, BitVec.ofNat 8 kind, BitVec.ofNat 8 d.ctl.nodeId, 0] ++ body
  d.emit (.frame dst (b ++ List.replicate (48 - b.length) 0))

end Sys2Proof.Machine
end

