-- ==== Sys2Proof/Machine/Events.lean ====
section
/-!
DEFINITION. Events and event queues: the packing of a record (R396, R397), its delivery (R398), the two sides of a queue
(R392 to R395).
-/
namespace Sys2Proof.Machine

/-! The widths of carried items (R397), as pairs of a width in bytes and a value. -/

def a8 (v : Nat) : Nat × Nat := (8, v)
def a4 (v : Nat) : Nat × Nat := (4, v)
def a2 (v : Nat) : Nat × Nat := (2, v)
def a1 (v : Nat) : Nat × Nat := (1, v)

/-- Items packed into ARGS without gaps; an item that would pass byte 22 is left out with every item after it. The
result is the bytes and whether items were left out. -/
def packArgs : Nat → List (Nat × Nat) → Bytes × Bool
  | _, [] => ([], false)
  | pos, (w, v) :: rest =>
    if 22 < pos + w then ([], true)
    else
      let (b, t) := packArgs (pos + w) rest
      (leBytes w v ++ b, t)

/-- The bits of an event record that do not depend on the queue (R396): POSITION is 0. -/
def eventRecord (code source counter : Nat) (args : List (Nat × Nat)) (inScope : Bool) : Nat :=
  let (b, t) := packArgs 0 args
  fld (code % 2 ^ 16) 0 + fld (source % 16) 32 + fld t.toNat 36 + fld inScope.toNat 37 + fld (counter % 2 ^ 40) 40 +
    fld (leNat b) 80

/-- Event queue `q`, with the reset values of R392 where it was never configured. -/
def Device.evq (d : Device) (q : Nat) : Evq := tgetD d.evqs q { vector := 256 + q % 128 }

/-- A late copy of a count catches up by a free amount, never past the count (R393). -/
def catchUp (seen late count : Nat) : Nat := late + seen % (count - late + 1)

/-- The producer writes a record (R393): it sees H late; a full queue discards its oldest item. -/
def evqPush (seen rec : Nat) (e : Evq) : Evq :=
  let hl := catchUp seen e.hLate e.h
  let low := max hl e.d
  let full := e.w - low == e.capacity
  { e with
    hLate := hl
    d := if full then low + 1 else e.d
    overwrites := if full then e.overwrites + 1 else e.overwrites
    cells := tset e.cells (e.w % e.capacity) ⟨e.w, putBits rec 16 16 e.w⟩
    w := e.w + 1 }

/-- The consumer's copy of W catches up; an armed queue whose COUNT is then above 0 sends its vector and disarms
(R395). The second part says whether it sends. -/
def evqSee (seen : Nat) (e : Evq) : Evq × Bool :=
  let e := { e with wLate := catchUp seen e.wLate e.w, overwritesLate := catchUp seen e.overwritesLate e.overwrites }
  if e.enable && e.armed && e.h < e.wLate then ({ e with armed := false }, true) else (e, false)

/-- Both parts on queue `q` of the device. -/
def Device.evqSee (d : Device) (q : Nat) : Device :=
  let r := Machine.evqSee (Config.syncSeen d.free) (d.evq q)
  let d : Device := { d with free := d.free + 1, evqs := tset d.evqs q r.1 }
  if r.2 then d.msix (q / 128) r.1.vector else d

/-- The armed queues that hold an item their consumers have not seen: the count crosses while nothing else happens, so that no item
stays unsignalled (R393, R395). -/
def Device.evqCross (d : Device) : Device :=
  d.each ((d.evqs.filter (fun p => p.2.enable && p.2.armed && decide (p.2.h < p.2.w))).map (·.1)) Device.evqSee

/-- A record written into queue `q`. -/
def Device.evqWrite (d : Device) (rec q : Nat) : Device :=
  Device.evqSee { d with free := d.free + 1, evqs := tset d.evqs q (evqPush (Config.syncSeen d.free) rec (d.evq q)) } q

/-- The codes that reach queues 0 and 128 whatever their masks (R398): RUN_STATE_CHANGED and REPLACE_REQUEST. -/
def alwaysDelivered (code : Nat) : Bool := code == 0x0C03 || code == 0x0B0D

/-- Queue `q` takes an event of a code and stream scope (R398). -/
def Device.admits (d : Device) (code : Nat) (scope : Option Nat) (q : Nat) (e : Evq) : Bool :=
  e.enable &&
  (match scope with
   | some s => d.grantPort s == some (q / 128)
   | none => true) &&
  (bit e.mask (code / 256) || (alwaysDelivered code && (q == 0 || q == 128)))

/-- An event raised (R398): its record goes to every queue that admits it, or counts in EVENTS_UNDELIVERED. -/
def Device.raiseRec (d : Device) (code rec : Nat) (scope : Option Nat) : Device :=
  let d := d.bump Obj.eventsRaised
  let qs := (d.evqs.filter (fun p => d.admits code scope p.1 p.2)).map (·.1)
  match qs with
  | [] => d.bump Obj.eventsUndelivered
  | _ => qs.foldl (fun d q => d.evqWrite rec q) d

/-- An event of a source with its items. -/
def Device.raiseFrom (d : Device) (source code : Nat) (args : List (Nat × Nat)) : Device :=
  d.raiseRec code (eventRecord code source d.mono args false) none

/-- An event of the hub. -/
def Device.raise (d : Device) (code : Nat) (args : List (Nat × Nat)) : Device := d.raiseFrom 6 code args

/-- An event of a source whose first item is a stream (R396: STREAM_SCOPED). -/
def Device.raiseStreamFrom (d : Device) (source code stream : Nat) (args : List (Nat × Nat)) : Device :=
  d.raiseRec code (eventRecord code source d.mono (a2 stream :: args) true) (some stream)

/-- Such an event of the hub. -/
def Device.raiseStream (d : Device) (code stream : Nat) (args : List (Nat × Nat)) : Device := d.raiseStreamFrom 6 code stream args

/-- An event broadcast as a NOTICE frame as well, its POSITION 0 (R366, R396). -/
def Device.raiseNotice (d : Device) (code : Nat) (args : List (Nat × Nat)) : Device :=
  (d.raise code args).sendFrame broadcast 2 (leBytes 32 (eventRecord code 6 d.mono args false))

/-- Cells held by enabled queues (R392). -/
def Device.evqCellsHeld (d : Device) : Nat :=
  ((d.evqs.filter (fun p => p.2.enable)).map (fun p => p.2.capacity)).sum

/-- EVQ_CONFIG as a record (R392). -/
def evqConfigOf (e : Evq) : Nat := fld e.enable.toNat 0 + fld e.capacity 16 + fld e.mask 32 + fld e.vector 64

/-- A queue enabled anew: empty, its counts and positions 0, armed (R392, R395). -/
def evqFresh (e : Evq) : Evq :=
  { enable := e.enable, capacity := e.capacity, mask := e.mask, vector := e.vector, armed := e.enable }

/-- A write of EVQ_CONFIG for queue `q` from port `p` (R392): the status, and the queue it leaves. A value out of range is
order 8 of R348, before the object's own checks. -/
def evqConfigWrite (d : Device) (p : Option Nat) (q v : Nat) : Nat × Option Evq :=
  let e := d.evq q
  let en := bit v 0
  let cap := bits v 16 16
  let vec := bits v 64 11
  let always := q == 0 || q == 128
  if cap < 4 || 16384 < cap || vec < 8 || bits v 1 15 != 0 || bits v 75 53 != 0 then (0xA004, none)
  else if p ≠ some (q / 128) then (0xA005, none)
  else if e.enable && cap != e.capacity then (0xA007, none)
  else if always && (!en || cap < 64) then (0xA004, none)
  else
    let e' := { e with enable := en, capacity := cap, mask := bits v 32 32, vector := vec }
    if en && !e.enable then
      if 16384 < d.evqCellsHeld + cap then (0xA00D, none) else (0xA000, some (evqFresh e'))
    else if e.enable && !en then (0xA000, some (evqFresh e'))
    else (0xA000, some e')

/-- The item at the consumer's position, past the items already overwritten (R393): the position it is at, the items
lost on the way, its record. -/
def evqFind (e : Evq) : Nat → Nat → Nat → Nat × Nat × Nat
  | 0, h, lost => (h, lost, 0)
  | n + 1, h, lost =>
    match tget e.cells (h % e.capacity) with
    | none => (h, lost, 0)
    | some c =>
      if c.pos = h then (h, lost, c.item)
      else
        let h' := c.pos - e.capacity + 1
        evqFind e n h' (lost + (h' - h))

/-- A pop (R393, R394). -/
def evqPop (e : Evq) : Evq :=
  if !e.enable then e
  else if e.wLate ≤ e.h then { e with underrun := true }
  else
    let (h, lost, rec) := evqFind e (e.capacity + 1) e.h 0
    { e with h := h + 1, lost := e.lost + lost, latch := rec }

end Sys2Proof.Machine
end

