-- ==== Sys2Proof/Machine/Dict.lean ====
section
/-!
DEFINITION. The control surface (R340 to R366): the header of a request and of a response, the roles, the checks of R348
in their order, the write of an object by its update class, and the responses on both paths.
-/
namespace Sys2Proof.Machine

/-! The status codes of R347. -/
namespace St
def ok : Nat := 0xA000
def noObject : Nat := 0xA001
def noSub : Nat := 0xA002
def type : Nat := 0xA003
def range : Nat := 0xA004
def role : Nat := 0xA005
def frozen : Nat := 0xA006
def busy : Nat := 0xA007
def notReady : Nat := 0xA008
def childInUse : Nat := 0xA009
def coFedPartner : Nat := 0xA00A
def pinnedVersion : Nat := 0xA00B
def duplicateGenerator : Nat := 0xA00C
def noSpace : Nat := 0xA00D
def badSignature : Nat := 0xA00E
def rollback : Nat := 0xA00F
def objectLost : Nat := 0xA010
def pending : Nat := 0xA011
/-- A final status no rule names for the case: one of the table's, PENDING aside. -/
def unsaid (n : Nat) : Nat := 0xA000 + Config.unstated n % 17
end St

/-! The operations of R350. -/
namespace Op
def read : Nat := 0x01
def write : Nat := 0x02
def readStaged : Nat := 0x03
def segReadInit : Nat := 0x04
def segReadNext : Nat := 0x05
def segWriteInit : Nat := 0x06
def segWriteNext : Nat := 0x07
def segAbort : Nat := 0x08
def authChallenge : Nat := 0x10
def authResponse : Nat := 0x11
def authEnd : Nat := 0x12
end Op

/-- A requester: a port, or a field-network source address. -/
def requester : Path → Nat
  | .mailbox p _ => p
  | .field src => 2 ^ 48 + src

/-- The port a mailbox request comes from. -/
def portOf (rq : Req) : Option Nat :=
  match rq.path with
  | .mailbox p _ => some p
  | .field _ => none

/-- The path byte of R357: the port, or 2 for the field network. -/
def pathByte : Path → Nat
  | .mailbox p _ => p
  | .field _ => 2

/-- What an event carries as "port or source address" (R397). -/
def originOf : Path → Nat
  | .mailbox p _ => p
  | .field src => src

/-- A requester's authentication state. -/
def Device.authOf (d : Device) (p : Path) : Auth := tgetD d.ctl.auth (requester p) {}

/-- A requester's authentication state changed. -/
def Device.setAuth (d : Device) (p : Path) (a : Auth) : Device :=
  d.onCtl (fun c => { c with auth := tset c.auth (requester p) a })

/-- The role of a request (R356): 0 FACILITY, 1 OPERATOR, 2 SERVICE; none where SERVICE is set without a session. -/
def Device.roleOf (d : Device) (rq : Req) : Option Nat :=
  if rq.service then (if (d.authOf rq.path).session.isSome then some 2 else none)
  else match rq.path with
    | .mailbox _ _ => some 1
    | .field _ => some 0

/-- The role-write map lets a role write the block of an index (R358). -/
def mapAllows (map role index : Nat) : Bool := bit map (4 * (index / 256) + role)

/-! ### Responses -/

/-- The header of a response (R349). -/
def pduHeader (op trans key type status : Nat) (service staged last : Bool) (len seg : Nat) : Nat :=
  fld op 0 + fld 1 7 + fld service.toNat 8 + fld staged.toNat 9 + fld last.toNat 10 + fld trans 16 +
    fld (key / 256) 32 + fld (key % 256) 48 + fld type 56 + fld status 64 + fld len 80 + fld seg 112

/-- What a response carries beside its status. -/
structure Answer where
  status : Nat
  staged : Bool := false
  last   : Bool := false
  len    : Option Nat := none
  seg    : Nat := 0
  value  : Bytes := []
deriving DecidableEq, Repr

/-- The PDU of a response: the request's OP, TRANSACTION, INDEX, SUB and TYPE repeated (R349). -/
def responsePdu (rq : Req) (op key type : Nat) (a : Answer) : Bytes :=
  leBytes 16 (pduHeader op rq.trans key type a.status rq.service a.staged a.last (a.len.getD a.value.length) a.seg) ++ a.value

/-- The key of a mailbox slot. -/
def slotKey (p s : Nat) : Nat := 8 * p + s

/-- A mailbox slot. -/
def Device.slot (d : Device) (p s : Nat) : MailSlot := tgetD d.ctl.slots (slotKey p s) {}

/-- A mailbox slot set. -/
def Device.setSlot (d : Device) (p s : Nat) (m : MailSlot) : Device :=
  d.onCtl (fun c => { c with slots := tset c.slots (slotKey p s) m })

/-- A response written into a slot: PENDING or DONE, and the slot's interrupt (R355, R376). -/
def Device.answerSlot (d : Device) (p s status : Nat) (pdu : Bytes) : Device :=
  let st := if status = St.pending then SlotState.pending else SlotState.done
  (d.setSlot p s { d.slot p s with state := st, response := pdu }).msix p s

/-- The responses kept for a source: the last 16 transactions (R364). -/
def keepResponse (src trans key op now : Nat) (pdu : Bytes) (kept : List Kept) : List Kept :=
  let same : Kept → Bool := fun k => k.src == src && k.trans == trans && k.key == key && k.op == op
  let others := kept.filter (fun k => !same k)
  let mine := (others.filter (fun k => k.src == src)).take 15
  ⟨src, trans, key, op, now, pdu⟩ :: (others.filter (fun k => k.src != src || mine.contains k))

/-- A response sent on the path of its request. -/
def Device.respond (d : Device) (rq : Req) (op key type : Nat) (a : Answer) : Device :=
  let pdu := responsePdu rq op key type a
  match rq.path with
  | .mailbox p s => d.answerSlot p s a.status pdu
  | .field src =>
    (d.onCtl (fun c => { c with kept := keepResponse src rq.trans key op d.micros pdu c.kept })).sendFrame src 0 pdu

/-- The number of the last segment of an object's value (R352). -/
def lastSegment (key : Nat) : Nat := (match rowOfKey key with
  | some row => ceilDiv row.len 1024
  | none => 0) - 1

/-- What the response to a write carries: its status, and for the last segment of a transfer SEGMENT and LAST as the request has them
(R349). -/
def writeAnswer (op key status : Nat) : Answer :=
  if op = Op.segWriteNext then { status := status, last := true, seg := lastSegment key } else { status := status }

/-- The final response of a request answered with PENDING (R353). A slot a reset freed receives none (R373). -/
def Device.respondFinal (d : Device) (w : Waiting) (a : Answer) : Device :=
  let a := { a with last := (writeAnswer w.op w.key a.status).last, seg := (writeAnswer w.op w.key a.status).seg }
  match w.rq.path with
  | .mailbox p s => if (d.slot p s).state = .pending then d.respond w.rq w.op w.key w.type a else d
  | .field _ => d.respond w.rq w.op w.key w.type a

/-- A waiting request whose work ends gets its final response later: the field network sends none while the management pair restarts
(R41). -/
def Device.defers (d : Device) (w : Waiting) : Bool := !d.ctl.serving && d.ctl.restart.isSome && (portOf w.rq).isNone

/-- The final responses of every waiting request that `sel` names. -/
def Device.finish (d : Device) (sel : Waiting → Bool) (a : Answer) : Device :=
  let ends : Waiting → Bool := fun w => sel w && w.final.isNone
  let ws := d.ctl.waiting.filter (fun w => ends w && !d.defers w)
  let d := d.onCtl (fun c => { c with
    waiting := (c.waiting.filter (fun w => !ends w || d.defers w)).map (fun w => if ends w then { w with final := some a.status } else w) })
  ws.foldl (fun d w => d.respondFinal w a) d

/-- The final status of the requests that wait on an object of the dictionary. -/
def Device.finishKey (d : Device) (key status : Nat) : Device := d.finish (fun w => w.key == key) { status := status }

/-- The same, for one value written. -/
def Device.finishArg (d : Device) (key arg status : Nat) : Device :=
  d.finish (fun w => w.key == key && w.arg == arg) { status := status }

/-! ### The checks of R348 -/

/-- A value a range rule accepts. An FP32 range takes −0 as +0 (R505). -/
def RangeRule.accepts : RangeRule → Nat → Bool
  | .any, _ => true
  | .nat lo hi, v => lo ≤ v && v ≤ hi
  | .natOr lo hi x, v => (lo ≤ v && v ≤ hi) || v == x
  | .oneOf xs, v => xs.contains v
  | .int126, v => -126 ≤ toSigned 32 v && toSigned 32 v ≤ 126
  | .f32 lo hi, v => let v := if v == 2 ^ 31 then 0 else v; lo ≤ v && v ≤ hi
  | .f32Pos, v => 0 < v && v < 0x7F80_0000
  | .f32NonNeg, v => v < 0x7F80_0000 || v == 2 ^ 31

/-- The objects an OPERATOR writes only from the port that holds the conductor token (R359): the commands of the run,
every object of class TAKE or ARMED, and the stream grants (R228). -/
def holderOnly (key : Nat) (cls : UpdateClass) : Bool :=
  key == Obj.runControl || key == Obj.stageHold || key == Obj.streamGrant0 || key == Obj.streamGrant1 ||
  cls == .take || cls == .armed

/-- Order 5 of R348 for a write. -/
def Device.mayWrite (d : Device) (rq : Req) (row : ObjRow) (key v : Nat) : Bool :=
  match d.roleOf rq with
  | none => false
  | some role =>
    (mapAllows d.sec.fuses.roleMap role row.index || (role == 0 && key == Obj.powerRequest && v == 1)) &&
    (role != 1 || !holderOnly key row.cls || portOf rq == some (d.get Obj.conductorToken))

/-- Order 5 of R348 for a read: blocks 0xF0 to 0xFF are SERVICE's (R358). -/
def Device.mayRead (d : Device) (rq : Req) (row : ObjRow) : Bool :=
  match d.roleOf rq with
  | none => false
  | some role => row.index < 0xF000 || role == 2

/-- Orders 2 to 7 of R348 for a write of `len` bytes: the status of the first check that fails, or the row. -/
def Device.checkWrite (d : Device) (rq : Req) (index sub type len v : Nat) : Except Nat ObjRow :=
  if type = 0 ∨ 0x0E < type then .error St.range
  else match rowOf index sub with
    | none => .error (if indexKnown index then St.noSub else St.noObject)
    | some row =>
      if row.access = .ro ∨ row.access = .const then .error St.role
      else if !d.mayWrite rq row (index * 256 + sub) v then .error St.role
      else if type ≠ row.ty ∨ len ≠ row.len then .error St.type
      else if row.cls = .armed ∧ d.armed then .error St.frozen
      else .ok row

/-- Orders 2 to 6 of R348 for a read; on the field network a value above 1,024 bytes needs a segmented transfer
(R363). -/
def Device.checkRead (d : Device) (rq : Req) (segmented : Bool) (index sub type : Nat) : Except Nat ObjRow :=
  if type = 0 ∨ 0x0E < type then .error St.range
  else match rowOf index sub with
    | none => .error (if indexKnown index then St.noSub else St.noObject)
    | some row =>
      if row.access = .wo then .error St.role
      else if !d.mayRead rq row then .error St.role
      else if type ≠ row.ty ∨ (portOf rq = none ∧ segmented = false ∧ 1024 < row.len) then .error St.type
      else .ok row

/-- Orders 2 to 6 of R348 for a later segment of a write; the transfer has the value's length. -/
def Device.checkSegment (d : Device) (rq : Req) (index sub type : Nat) : Nat :=
  if type = 0 ∨ 0x0E < type then St.range
  else match rowOf index sub with
    | none => if indexKnown index then St.noSub else St.noObject
    | some row =>
      if row.access = .ro ∨ row.access = .const then St.role
      else if !d.mayWrite rq row (index * 256 + sub) 0 then St.role
      else if type ≠ row.ty then St.type
      else St.ok

/-- Orders 2 to 6 of R348 for SEG_ABORT, which neither reads nor writes the object it names. -/
def Device.checkAbort (d : Device) (rq : Req) (index sub type : Nat) : Nat :=
  if type = 0 ∨ 0x0E < type then St.range
  else match rowOf index sub with
    | none => if indexKnown index then St.noSub else St.noObject
    | some row => if (d.roleOf rq).isNone then St.role else if type ≠ row.ty then St.type else St.ok

/-- A refusal's side effect where the rule states one: FROZEN counts and raises FROZEN_WRITE (R345). -/
def Device.refuse (d : Device) (rq : Req) (key status : Nat) : Device :=
  if status = St.frozen then
    (d.bump Obj.frozenWrites).raise 0x0C01 [a4 key, a1 ((d.roleOf rq).getD 0), a8 (originOf rq.path)]
  else d

/-- A request counts for the port it comes from. -/
def Device.counted (d : Device) : Path → Device
  | .mailbox p _ => d.bump (if p = 0 then Obj.mailboxRequests0 else Obj.mailboxRequests1)
  | .field _ => d

/-- A SERVICE request renews its session's idle time (R357). -/
def Device.renewed (d : Device) (rq : Req) : Device :=
  let a := d.authOf rq.path
  if rq.service && a.session.isSome then d.setAuth rq.path { a with session := some d.micros } else d

/-- Every request that is served: it is counted, and renews a session it uses. -/
def Device.served (d : Device) (rq : Req) : Device := (d.counted rq.path).renewed rq

/-- The management pair does not serve (R41): the mailbox answers NOT_READY, the field network nothing. -/
def Device.notServing (d : Device) (rq : Req) (op key type : Nat) : Device :=
  match rq.path with
  | .mailbox _ _ => d.respond rq op key type { status := St.notReady }
  | .field _ => d

/-- What a write of an object does after orders 1 to 8: its status, and the device. -/
abbrev Effect := Device → Req → Nat → Nat × Device

/-- A request answered with a status; PENDING is kept until its work ends (R353). -/
def Device.answer (d : Device) (rq : Req) (op key type arg status : Nat) : Device :=
  let d := if status = St.pending then
      d.onCtl (fun c => { c with waiting := c.waiting ++ [{ rq := rq, op := op, key := key, type := type, arg := arg }] })
    else d
  d.respond rq op key type (writeAnswer op key status)

/-- Orders 8 and 9 of R348 and the effect. -/
def Device.writeValue (d : Device) (rq : Req) (op key type v : Nat) (row : ObjRow) (eff : Effect) : Device :=
  if row.range.accepts v then
    let (st, d) := eff d rq v
    d.answer rq op key type v st
  else d.answer rq op key type v St.range

/-- A dictionary WRITE (R348): the checks in their order, then the object's effect, then the response. -/
def Device.dictWrite (d : Device) (rq : Req) (key type : Nat) (value : Bytes) (eff : Effect) : Device :=
  if !d.ctl.serving then d.notServing rq Op.write key type
  else
    let d := d.served rq
    let v := leNat value
    let tooLong := portOf rq = none ∧ 1024 < value.length
    match d.checkWrite rq (key / 256) (key % 256) type (if tooLong then 0 else value.length) v with
    | .error st => (d.refuse rq key st).answer rq Op.write key type v st
    | .ok row => d.writeValue rq Op.write key type v row eff

/-- The write that each row of a command object makes: its own type and the number of bytes of its type. -/
def Device.command (d : Device) (rq : Req) (key v : Nat) (eff : Effect) : Device :=
  match rowOfKey key with
  | some row => d.dictWrite rq key row.ty (leBytes row.len v) eff
  | none => d

/-- FP32 values are stored with −0 as +0 (R505). -/
def storedValue (row : ObjRow) (v : Nat) : Nat := if row.ty = Ty.f32 ∧ v = 2 ^ 31 then 0 else v

/-- The effect of a stored object by its update class (R344), after its own checks (order 9). -/
def storeEffect (key : Nat) (check : Device → Req → Nat → Nat) : Effect := fun d rq v =>
  let st := check d rq v
  if st ≠ St.ok then (st, d)
  else match rowOfKey key with
    | none => (St.noSub, d)
    | some row =>
      let v := storedValue row v
      match row.cls with
      | .take =>
        if d.armed then (St.ok, d.onCtl (fun c => { c with staged := tset c.staged key v })) else (St.ok, d.put key v)
      | .boot => (St.ok, d.onCtl (fun c => { c with held := tset c.held key v }))
      | .live => (St.ok, d.put key v)
      | .armed => (St.ok, d.put key v)
      | .fused => (St.role, d)

/-- Staged values take effect together (R346). -/
def Device.applyStaged (d : Device) : Device :=
  (d.ctl.staged.foldl (fun d p => d.put p.1 p.2) d).onCtl (fun c => { c with staged := [] })

/-- A requester reuses a TRANSACTION that is PENDING, which R353 forbids with no outcome stated (R2). -/
def Device.reused (d : Device) (rq : Req) : Bool :=
  d.ctl.waiting.any (fun w => requester w.rq.path == requester rq.path && w.rq.trans == rq.trans)

/-- A request's command: it stops only where the requester breaks R353. -/
def onReq (s : State) (rq : Req) (f : Device → Device) : Host.Outcome State Fault Refusal :=
  if s.dev.reused rq then .fault .obligationBroken else onDev s f

/-- RUN_STATE changed, and RUN_STATE_CHANGED raised (R361). -/
def Device.setRunState (d : Device) (new : Nat) : Device :=
  let old := d.runState
  let d := d.put Obj.runState new
  d.raise 0x0C03 [a1 old, a1 new, a8 (d.get Obj.takeNumber), a2 (d.get Obj.armStatus)]

end Sys2Proof.Machine
end

