-- ==== Sys2Proof/Machine/Sha.lean ====
section
/-!
DEFINITION. The digests and signatures the hub's signing engine forms: SHA-512 (FIPS 180-4) and Ed25519 (RFC 8032), the
two standards of R3's table. Their byte strings keep the order their algorithm emits (R14).
-/
namespace Sys2Proof.Machine

/-! ### SHA-512 -/

/-- Words are 64 bits. -/
def w64 : Nat := 2 ^ 64

def rotr64 (x n : Nat) : Nat := (x >>> n) ||| ((x <<< (64 - n)) % w64)

/-- The round constants of FIPS 180-4. -/
def shaK : List Nat :=
  [0x428A2F98D728AE22, 0x7137449123EF65CD, 0xB5C0FBCFEC4D3B2F, 0xE9B5DBA58189DBBC,
   0x3956C25BF348B538, 0x59F111F1B605D019, 0x923F82A4AF194F9B, 0xAB1C5ED5DA6D8118,
   0xD807AA98A3030242, 0x12835B0145706FBE, 0x243185BE4EE4B28C, 0x550C7DC3D5FFB4E2,
   0x72BE5D74F27B896F, 0x80DEB1FE3B1696B1, 0x9BDC06A725C71235, 0xC19BF174CF692694] ++
  [0xE49B69C19EF14AD2, 0xEFBE4786384F25E3, 0x0FC19DC68B8CD5B5, 0x240CA1CC77AC9C65,
   0x2DE92C6F592B0275, 0x4A7484AA6EA6E483, 0x5CB0A9DCBD41FBD4, 0x76F988DA831153B5,
   0x983E5152EE66DFAB, 0xA831C66D2DB43210, 0xB00327C898FB213F, 0xBF597FC7BEEF0EE4,
   0xC6E00BF33DA88FC2, 0xD5A79147930AA725, 0x06CA6351E003826F, 0x142929670A0E6E70] ++
  [0x27B70A8546D22FFC, 0x2E1B21385C26C926, 0x4D2C6DFC5AC42AED, 0x53380D139D95B3DF,
   0x650A73548BAF63DE, 0x766A0ABB3C77B2A8, 0x81C2C92E47EDAEE6, 0x92722C851482353B,
   0xA2BFE8A14CF10364, 0xA81A664BBC423001, 0xC24B8B70D0F89791, 0xC76C51A30654BE30,
   0xD192E819D6EF5218, 0xD69906245565A910, 0xF40E35855771202A, 0x106AA07032BBD1B8] ++
  [0x19A4C116B8D2D0C8, 0x1E376C085141AB53, 0x2748774CDF8EEB99, 0x34B0BCB5E19B48A8,
   0x391C0CB3C5C95A63, 0x4ED8AA4AE3418ACB, 0x5B9CCA4F7763E373, 0x682E6FF3D6B2B8A3,
   0x748F82EE5DEFB2FC, 0x78A5636F43172F60, 0x84C87814A1F0AB72, 0x8CC702081A6439EC,
   0x90BEFFFA23631E28, 0xA4506CEBDE82BDE9, 0xBEF9A3F7B2C67915, 0xC67178F2E372532B] ++
  [0xCA273ECEEA26619C, 0xD186B8C721C0C207, 0xEADA7DD6CDE0EB1E, 0xF57D4F7FEE6ED178,
   0x06F067AA72176FBA, 0x0A637DC5A2C898A6, 0x113F9804BEF90DAE, 0x1B710B35131C471B,
   0x28DB77F523047D84, 0x32CAAB7B40C72493, 0x3C9EBE0A15C9BEBC, 0x431D67C49C100D4C,
   0x4CC5D4BECB3E42B6, 0x597F299CFC657E2A, 0x5FCB6FAB3AD6FAEC, 0x6C44198C4A475817]

/-- The initial hash value of SHA-512. -/
def shaH0 : List Nat :=
  [0x6A09E667F3BCC908, 0xBB67AE8584CAA73B, 0x3C6EF372FE94F82B, 0xA54FF53A5F1D36F1,
   0x510E527FADE682D1, 0x9B05688C2B3E6C1F, 0x1F83D9ABFB41BD6B, 0x5BE0CD19137E2179]

def shaSmall0 (x : Nat) : Nat := rotr64 x 1 ^^^ rotr64 x 8 ^^^ (x >>> 7)
def shaSmall1 (x : Nat) : Nat := rotr64 x 19 ^^^ rotr64 x 61 ^^^ (x >>> 6)
def shaBig0 (x : Nat) : Nat := rotr64 x 28 ^^^ rotr64 x 34 ^^^ rotr64 x 39
def shaBig1 (x : Nat) : Nat := rotr64 x 14 ^^^ rotr64 x 18 ^^^ rotr64 x 41

/-- The eight working variables. -/
structure ShaState where
  a : Nat
  b : Nat
  c : Nat
  d : Nat
  e : Nat
  f : Nat
  g : Nat
  h : Nat
deriving DecidableEq, Repr

def ShaState.ofList (l : List Nat) : ShaState :=
  ⟨l.getD 0 0, l.getD 1 0, l.getD 2 0, l.getD 3 0, l.getD 4 0, l.getD 5 0, l.getD 6 0, l.getD 7 0⟩

/-- One round with its constant and message word. -/
def shaRound (s : ShaState) (k w : Nat) : ShaState :=
  let ch := (s.e &&& s.f) ^^^ ((w64 - 1 - s.e) &&& s.g)
  let t1 := (s.h + shaBig1 s.e + ch + k + w) % w64
  let maj := (s.a &&& s.b) ^^^ (s.a &&& s.c) ^^^ (s.b &&& s.c)
  let t2 := (shaBig0 s.a + maj) % w64
  ⟨(t1 + t2) % w64, s.a, s.b, s.c, (s.d + t1) % w64, s.e, s.f, s.g⟩

/-- The rounds of a block over a sliding window of the 16 latest message words, oldest first. -/
def shaRounds : List Nat → List Nat → ShaState → ShaState
  | [], _, s => s
  | k :: ks, win, s =>
    let w0 := win.headD 0
    let new := (shaSmall1 (win.getD 14 0) + win.getD 9 0 + shaSmall0 (win.getD 1 0) + w0) % w64
    shaRounds ks (win.drop 1 ++ [new]) (shaRound s k w0)

/-- The eight 64-bit words, most-significant byte first, of up to `n` words of a block. -/
def shaWords : Nat → Bytes → List Nat
  | 0, _ => []
  | n + 1, b => beNat (b.take 8) :: shaWords n (b.drop 8)

/-- One block compressed into the hash value. -/
def shaBlock (h : List Nat) (block : Bytes) : List Nat :=
  let s := shaRounds shaK (shaWords 16 block) (ShaState.ofList h)
  List.zipWith (fun x y => (x + y) % w64) h [s.a, s.b, s.c, s.d, s.e, s.f, s.g, s.h]

def shaBlocks : Nat → List Nat → Bytes → List Nat
  | 0, h, _ => h
  | n + 1, h, b => shaBlocks n (shaBlock h (b.take 128)) (b.drop 128)

/-- The padding of a message of `n` bytes. -/
def shaPad (n : Nat) : Bytes :=
  (0x80 : Byte) :: List.replicate ((239 - n % 128) % 128) 0 ++ beBytes 16 (8 * n)

/-- SHA-512 of a byte string: 64 bytes in the order the algorithm emits. -/
def sha512 (m : Bytes) : Bytes :=
  let p := m ++ shaPad m.length
  (shaBlocks (p.length / 128) shaH0 p).flatMap (beBytes 8)

/-! ### Ed25519 -/

/-- The prime of the field. -/
def edP : Nat := 2 ^ 255 - 19
/-- The order of the base point. -/
def edL : Nat := 2 ^ 252 + 27742317777372353535851937790883648493
/-- The curve's constant. -/
def edD : Nat := 37095705934669439343138083508754565189542113879843219016388785533085940283555
/-- A square root of −1. -/
def edSqrtM1 : Nat := 19681161376707505956807079304988542015446066515923890162744021073123829784752
def edBx : Nat := 15112221349535400772501151409588531511454012693041857206046113283949847762202
def edBy : Nat := 46316835694926478169428394003475163141307993866256225615783033603165251855960

/-- `b ^ e` in the field, from bit `i − 1` of `e` down. -/
def edPowFrom (b e : Nat) : Nat → Nat → Nat
  | 0, acc => acc
  | i + 1, acc =>
    let sq := acc * acc % edP
    edPowFrom b e i (if bit e i then sq * b % edP else sq)

def edPow (b e : Nat) : Nat := edPowFrom b e 256 1
def edInv (a : Nat) : Nat := edPow a (edP - 2)
def edSub (a b : Nat) : Nat := (a + edP - b % edP) % edP

/-- A point in extended coordinates. -/
structure EdPoint where
  x : Nat
  y : Nat
  z : Nat
  t : Nat
deriving DecidableEq, Repr

def edZero : EdPoint := ⟨0, 1, 1, 0⟩
def edBase : EdPoint := ⟨edBx, edBy, 1, edBx * edBy % edP⟩

/-- The sum of two points (RFC 8032, section 5.1.4). -/
def edAdd (p q : EdPoint) : EdPoint :=
  let a := edSub p.y p.x * edSub q.y q.x % edP
  let b := (p.y + p.x) * (q.y + q.x) % edP
  let c := p.t * 2 * edD % edP * q.t % edP
  let d := p.z * 2 * q.z % edP
  let e := edSub b a
  let f := edSub d c
  let g := (d + c) % edP
  let h := (b + a) % edP
  ⟨e * f % edP, g * h % edP, f * g % edP, e * h % edP⟩

/-- A multiple of a point, from bit `i − 1` of the scalar down. -/
def edMulFrom (p : EdPoint) (n : Nat) : Nat → EdPoint → EdPoint
  | 0, acc => acc
  | i + 1, acc =>
    let d := edAdd acc acc
    edMulFrom p n i (if bit n i then edAdd d p else d)

def edMul (p : EdPoint) (n : Nat) : EdPoint := edMulFrom p n 256 edZero

/-- Equality of the points two representations stand for. -/
def edEq (p q : EdPoint) : Bool := p.x * q.z % edP == q.x * p.z % edP && p.y * q.z % edP == q.y * p.z % edP

/-- The 32-byte encoding of a point. -/
def edEncode (p : EdPoint) : Bytes :=
  let zi := edInv p.z
  let x := p.x * zi % edP
  let y := p.y * zi % edP
  leBytes 32 (y + (x % 2) * 2 ^ 255)

/-- The point a 32-byte string encodes, where it encodes one (RFC 8032, section 5.1.3). -/
def edDecode (b : Bytes) : Option EdPoint :=
  let v := leNat b
  let s := bits v 255 1
  let y := bits v 0 255
  if y ≥ edP then none
  else
    let u := edSub (y * y) 1
    let w := (edD * (y * y % edP) + 1) % edP
    let w3 := w * w % edP * w % edP
    let w7 := w3 * w3 % edP * w % edP
    let x := u * w3 % edP * edPow (u * w7 % edP) ((edP - 5) / 8) % edP
    let vx := w * (x * x % edP) % edP
    let x := if vx = u then some x else if vx = edSub 0 u then some (x * edSqrtM1 % edP) else none
    match x with
    | none => none
    | some x =>
      if x = 0 ∧ s = 1 then none
      else
        let x := if x % 2 = s then x else edP - x
        some ⟨x, y, 1, x * y % edP⟩

/-- The scalar of a private key and the prefix of its nonces. -/
def edExpand (seed : Bytes) : Nat × Bytes :=
  let h := sha512 seed
  let a := leNat (h.take 32)
  (bits a 3 251 * 8 + 2 ^ 254, h.drop 32)

/-- The public key of a private key of 32 bytes. -/
def edPublic (seed : Bytes) : Bytes := edEncode (edMul edBase (edExpand seed).1)

/-- The 64-byte signature of a message. -/
def edSign (seed m : Bytes) : Bytes :=
  let (a, pre) := edExpand seed
  let pk := edEncode (edMul edBase a)
  let r := leNat (sha512 (pre ++ m)) % edL
  let rr := edEncode (edMul edBase r)
  let k := leNat (sha512 (rr ++ pk ++ m)) % edL
  rr ++ leBytes 32 ((r + k * a) % edL)

/-- A signature of 64 bytes verifies under a public key of 32 bytes. -/
def edVerify (pk m sig : Bytes) : Bool :=
  if sig.length = 64 ∧ pk.length = 32 then
    match edDecode pk, edDecode (sig.take 32) with
    | some a, some r =>
      let s := leNat (sig.drop 32)
      let k := leNat (sha512 (sig.take 32 ++ pk ++ m)) % edL
      s < edL && edEq (edMul edBase s) (edAdd r (edMul a k))
    | _, _ => false
  else false

/-! ### CRC-32C -/

/-- Eight steps of the reflected CRC-32C polynomial. -/
def crcBits : Nat → Nat → Nat
  | 0, c => c
  | n + 1, c => crcBits n (if c % 2 = 1 then (c / 2) ^^^ 0x82F63B78 else c / 2)

/-- CRC-32C of a byte string (R255, R281, R450). -/
def crc32c (m : Bytes) : Nat :=
  (m.foldl (fun c b => crcBits 8 (c ^^^ b.toNat)) 0xFFFFFFFF) ^^^ 0xFFFFFFFF

end Sys2Proof.Machine
end

