-- ==== Sys2Proof/Machine/Memory.lean ====
section
/-!
DEFINITION. Object memory and the directory (chapter 09): the bytes of objects, the entries, room and placement in the
fast tier, space in the slow tier, moves, evictions, pins, and the requests that create, delete, pin and move objects.
-/
namespace Sys2Proof.Machine

/-! ### Object bytes -/

/-- The byte at an address; an unlisted byte is 0 (R248: a new object reads as all zeros). -/
def memGet : List Host.Cell → Nat → Byte
  | [], _ => 0
  | (k, v) :: m, a => if k = a then v else memGet m a

/-- A byte written, in the canonical form: addresses ascend and no listed byte is 0. -/
def memSet : List Host.Cell → Nat → Byte → List Host.Cell
  | [], a, b => if b = 0 then [] else [(a, b)]
  | (k, v) :: m, a, b =>
    if k = a then (if b = 0 then m else (a, b) :: m)
    else if a < k then (if b = 0 then (k, v) :: m else (a, b) :: (k, v) :: m)
    else (k, v) :: memSet m a b

/-- A byte string written from an address. -/
def memWrite : List Host.Cell → Nat → Bytes → List Host.Cell
  | m, _, [] => m
  | m, a, b :: bs => memWrite (memSet m a b) (a + 1) bs

/-- The addresses from `a` on are above every address below: the order half of the canonical form. -/
def memSorted : List Host.Cell → Bool
  | [] => true
  | [_] => true
  | (a, _) :: (b, v) :: m => decide (a < b) && memSorted ((b, v) :: m)

/-- The canonical form of object memory: addresses strictly rising, no entry equal to what an unlisted address reads. -/
def Memory.wf (m : List Host.Cell) : Bool := memSorted m && m.all (fun c => c.2 != 0)

/-- The address of a byte of an object: objects do not overlap, since no offset reaches 2^32 (R247: SIZE is at most 65,536
blocks). -/
def addrOf (h off : Nat) : Nat := h * 2 ^ 32 + off

/-- `n` bytes of an object from an offset. -/
def Device.readBytes (d : Device) (h off n : Nat) : Bytes := (List.range n).map (fun i => memGet d.ms.mem (addrOf h (off + i)))

/-- A little-endian field of an object. -/
def Device.readNat (d : Device) (h off n : Nat) : Nat := leNat (d.readBytes h off n)

/-- Bytes of an object written. -/
def Device.writeBytes (d : Device) (h off : Nat) (bs : Bytes) : Device :=
  d.onMs (fun m => { m with mem := memWrite m.mem (addrOf h off) bs })

/-- An object no engine, Lapidary or collective engine may write (R247, R263). -/
def Device.dataRo (d : Device) (h : Nat) : Bool := match (if h < 2 ^ 18 then tget d.ms.dir h else none) with
  | some e => e.dataRo
  | none => false

/-- A little-endian field of an object written. -/
def Device.writeNat (d : Device) (h off n v : Nat) : Device := d.writeBytes h off (leBytes n v)

/-- Every byte of an object cleared. -/
def Device.clearObject (d : Device) (h : Nat) : Device :=
  d.onMs (fun m => { m with mem := m.mem.filter (fun c => c.1 / 2 ^ 32 != h) })

/-! ### The directory -/

/-- A 64 KiB block. -/
def blockBytes : Nat := 65536

/-- The value that names no object (R246). -/
def noObject : Nat := 0xFFFF_FFFF

/-- The Q96's own range of indices (R246). -/
def ownRange (h : Nat) : Bool := 0x3FF00 ≤ h && h ≤ 0x3FFFF

/-- The entry a handle names; none where it names no object (R246). The Q96's own objects are not in the table. -/
def Device.entry (d : Device) (h : Nat) : Option DirEntry := if h < 2 ^ 18 then tget d.ms.dir h else none

/-- Blocks of an object. -/
def Device.sizeOf (d : Device) (h : Nat) : Nat := match d.entry h with
  | some e => e.size
  | none => 0

/-- A handle that names an object of the host's range. -/
def Device.names (d : Device) (h : Nat) : Bool := (d.entry h).isSome

/-- An entry set. -/
def Device.setEntry (d : Device) (h : Nat) (e : DirEntry) : Device := d.onMs (fun m => { m with dir := tset m.dir h e })

/-- An entry changed where it is present. -/
def Device.modEntry (d : Device) (h : Nat) (f : DirEntry → DirEntry) : Device := d.onMs (fun m => { m with dir := tmod m.dir h f })

/-- The MOVE code of R247. -/
def Move.code : Move → Nat
  | .settled => 0
  | .promoting => 1
  | .demoting => 2
  | .crossing => 3
  | .resupply => 4
  | .rebuilding => 5

/-- The 32-byte entry as DIR_ENTRY reads it (R247). -/
def entryWord (e : DirEntry) : Nat :=
  fld e.tier 0 + fld e.move.code 3 + fld e.compressed.toNat 6 + fld e.poisoned.toNat 7 + fld e.kind 8 +
    fld e.dataRo.toNat 12 + fld e.hostRo.toNat 13 + fld e.hintValid.toNat 14 + fld e.lost.toNat 15 + fld e.hint 16 +
    fld e.pins 24 + fld e.size 32 + fld e.location 64 + fld e.target 96 + fld e.moveDone 128 + fld e.degraded.toNat 152 +
    fld e.version 160 + fld e.sectors 192 + fld e.epoch 224

/-- An object engines can read: SETTLED in FAST and unpoisoned (R263). -/
def DirEntry.ready (e : DirEntry) : Bool := e.tier == 2 && e.move == .settled && !e.poisoned

/-- The same, of a handle. -/
def Device.ready (d : Device) (h : Nat) : Bool :=
  match d.entry h with
  | some e => e.ready
  | none => false

/-- The homes R245 allows a kind: the TIER codes. -/
def tierAllowed (kind tier : Nat) : Bool :=
  match kind with
  | 0 => 1 ≤ tier && tier ≤ 4
  | 1 => tier == 3 || tier == 4
  | 2 => tier == 3 || tier == 4
  | 3 => tier == 3 || tier == 4
  | 4 => tier == 3 || tier == 4
  | 5 => 1 ≤ tier && tier ≤ 4
  | 6 => 2 ≤ tier && tier ≤ 4
  | 7 => 2 ≤ tier && tier ≤ 4
  | 8 => tier == 1 || tier == 2
  | _ => false

/-- The hub invalidates an object in every translation cache (R260). -/
def Device.invalidate (d : Device) (h : Nat) : Device :=
  d.onMs (fun m => { m with tcache := m.tcache.map (fun p => (p.1, p.2.filter (· != h))) })

/-- A completed write counts in VERSION, a 32-bit field (R247). -/
def Device.bumpVersion (d : Device) (h : Nat) : Device :=
  d.modEntry h (fun e => { e with version := (e.version + 1) % 2 ^ 32 })

/-! ### Room in the fast tier (R251, R261) -/

/-- 64 KiB units of one compute die. -/
def dieUnits : Nat := 1572864

/-- The extents of the fast tier an entry holds: its home, and the target of a move that goes there. -/
def fastExtents (e : DirEntry) : List (Nat × Nat) :=
  (if e.tier = 2 then [(e.location, e.size)] else []) ++
  (if e.move ≠ .settled ∧ e.moveTier = 2 ∧ ¬(e.tier = 2 ∧ e.target = e.location) then [(e.target, e.size)] else [])

/-- A part of LOST_UNITS is lost (R338). -/
def Device.lostUnit (d : Device) (b : Nat) : Bool := bit (d.get Obj.lostUnits) b

/-- Units no object can be placed on: a lost die's, one half of those of a die with one stack left (R332). Which half the
surviving stack's contiguous units are numbered as is not stated: the lower one (DESIGN CHOICE, log entry 8). -/
def Device.lostExtents (d : Device) : List (Nat × Nat) :=
  (List.range 4).flatMap (fun die =>
    let gone := (d.lostUnit (2 + 2 * die)).toNat + (d.lostUnit (3 + 2 * die)).toNat
    if d.lostUnit (10 + die) ∨ gone = 2 then [(die * dieUnits, dieUnits)]
    else if gone = 1 then [(die * dieUnits + dieUnits / 2, dieUnits / 2)]
    else [])

/-- Units held by versions of working copies beyond their objects' own (R229). -/
def Device.versionExtents (d : Device) : List (Nat × Nat) := d.versions.flatMap (fun l => l.2.flatMap (·.extents))

/-- Units of the objects an arming under way has changed, which a refusal gives them back. -/
def Device.savedExtents (d : Device) : List (Nat × Nat) :=
  ((d.run.arm.map (·.saved)).getD []).filterMap (fun o => if o.entry.tier = 2 then some (o.entry.location, o.entry.size) else none)

/-- The extents of the entries that `keep` takes, the locations scrub has not yet returned (R271), those of held versions, those
an arming may have to give back and those that are lost. -/
def Device.fastUsed (d : Device) (keep : Nat → DirEntry → Bool) : List (Nat × Nat) :=
  ((d.ms.dir.filter (fun p => keep p.1 p.2)).map (fun p => fastExtents p.2)).flatten ++
    (d.ms.quarantine.filter (fun q => q.1 == 2)).map (fun q => q.2) ++ d.versionExtents ++ d.savedExtents ++ d.lostExtents

/-- Extents in ascending order. -/
def insertExtent (x : Nat × Nat) : List (Nat × Nat) → List (Nat × Nat)
  | [] => [x]
  | y :: ys => if x.1 ≤ y.1 then x :: y :: ys else y :: insertExtent x ys

def sortExtents : List (Nat × Nat) → List (Nat × Nat)
  | [] => []
  | x :: xs => insertExtent x (sortExtents xs)

/-- The free runs between `lo` and `hi`, as starts and lengths. -/
def gaps (lo hi : Nat) : List (Nat × Nat) → List (Nat × Nat)
  | [] => if lo < hi then [(lo, hi - lo)] else []
  | (a, n) :: xs =>
    if a + n ≤ lo then gaps lo hi xs
    else if hi ≤ a then (if lo < hi then [(lo, hi - lo)] else [])
    else (if lo < a then [(lo, a - lo)] else []) ++ gaps (a + n) hi xs

/-- The free runs of a die past the given extents. -/
def dieGaps (die : Nat) (used : List (Nat × Nat)) : List (Nat × Nat) :=
  gaps (die * dieUnits) ((die + 1) * dieUnits) (sortExtents used)

/-- Units free on a die. -/
def dieFree (die : Nat) (used : List (Nat × Nat)) : Nat := ((dieGaps die used).map (·.2)).sum

/-- The number of places a run of `size` units has among free runs. -/
def places (size : Nat) (gs : List (Nat × Nat)) : Nat := (gs.map (fun g => g.2 + 1 - size)).sum

/-- The `k`-th of those places. -/
def placeAt (size : Nat) : List (Nat × Nat) → Nat → Nat
  | [], _ => 0
  | (a, n) :: gs, k => if k < n + 1 - size then a + k else placeAt size gs (k - (n + 1 - size))

/-- Everything that holds fast-tier units now. -/
def Device.usedNow (d : Device) : List (Nat × Nat) := d.fastUsed (fun _ _ => true)

/-- A candidate for eviction (R261). -/
def DirEntry.candidate (e : DirEntry) : Bool :=
  e.ready && e.pins == 0 && (e.kind == 6 || e.kind == 0 || e.kind == 8 || e.kind == 5)

/-- Room for a FAST object (R251): some die has a run of SIZE units, each free or a candidate's. -/
def Device.roomFast (d : Device) (size : Nat) : Bool :=
  let used := d.fastUsed (fun _ e => !e.candidate)
  (List.range 4).any (fun die => places size (dieGaps die used) != 0)

/-- The dies in the order an object is placed on them (R251): its hint, else the requester's die, else the die with the
most free space. The remaining dies follow by their free space. -/
def Device.dieOrder (d : Device) (hint asked : Option Nat) : List Nat :=
  let used := d.usedNow
  let first := match hint with
    | some x => [x]
    | none => match asked with
      | some x => [x]
      | none => []
  let byFree := (List.range 4).foldl (fun l die =>
    (l.filter (fun x => dieFree die used ≤ dieFree x used)) ++ [die] ++ (l.filter (fun x => dieFree x used < dieFree die used))) []
  first ++ byFree.filter (fun x => !first.contains x)

/-- A place of SIZE free units on the first die of the order that has one; which of its places is not stated, a free
value (DESIGN CHOICE, log entry 6). -/
def Device.place (d : Device) (size : Nat) (order : List Nat) : Option (Nat × Device) :=
  let used := d.usedNow
  match order.find? (fun die => places size (dieGaps die used) != 0) with
  | none => none
  | some die =>
    let gs := dieGaps die used
    let (n, d) := d.draw
    some (placeAt size gs (Config.unstated n % places size gs), d)

/-- The preferred die of an entry. -/
def DirEntry.hintDie (e : DirEntry) : Option Nat := if e.hintValid then some e.hint else none

/-- Free units of the fast tier. -/
def Device.fastFree (d : Device) : Nat := ((List.range 4).map (fun die => dieFree die d.usedNow)).sum

/-- An object gives up its space. -/
def Device.makeAbsent (d : Device) (h : Nat) : Device :=
  (((d.invalidate h).clearObject h).modEntry h (fun o => { o with
    tier := 1, location := 0, sectors := 0, poisoned := false })).onMs (fun m => { m with maps := tdel m.maps h })

/-- An object stands in the fast tier. -/
def Device.inFast (d : Device) (h : Nat) : Bool := ((d.entry h).map (·.tier)).getD 0 == 2

/-! ### Space in the slow tier (R255 to R257) -/

/-- Sectors of an object's block map: 16 bytes a block, padded to whole sectors (R255). -/
def mapSectors (size : Nat) : Nat := ceilDiv (size * 16) 512

/-! The channels of a Lapidary's data space, by unit number `u` (R252). -/

/-- The line of a unit, and its position in it. -/
def unitLine (u : Nat) : Nat := u / 11
def unitPosition (u : Nat) : Nat := u % 11

/-- The local channel of a line's parity unit. -/
def parityChannel (line : Nat) : Nat := line % 12

/-- The local channel a unit lies on: the p-th of the other 11, in ascending order. -/
def unitChannel (u : Nat) : Nat :=
  if unitPosition u < parityChannel (unitLine u) then unitPosition u else unitPosition u + 1

/-- The unit's channel among M0 to M23, its offset there, and the sector it belongs to. -/
def unitModule (lap u : Nat) : Nat := 12 * lap + unitChannel u
def unitOffset (u : Nat) : Nat := 64 * unitLine u
def unitSector (u : Nat) : Nat := u / 8

/-- The parity unit of a line is the XOR of its data units; the XOR of the other ten and the parity unit is the one missing. -/
def lineParity (units : List Byte) : Byte := units.foldl (· ^^^ ·) 0

/-- The stack of a byte of the fast tier: 4 KiB pieces alternate between H(2d) and H(2d + 1) (R251). -/
def fastStack (location off : Nat) : Nat :=
  2 * (location / dieUnits) + (location % dieUnits * 65536 + off) / 4096 % 2

/-- The bytes of block `b` of an object that are not 0, as cells. -/
def Device.blockCells (d : Device) (h b : Nat) : List Host.Cell :=
  d.ms.mem.filter (fun c => c.1 / blockBytes == addrOf h 0 / blockBytes + b)

/-- STORED_LEN of a block of a COMPRESSED object, or 0 where it is RAW (R255, R256): within one sector where the block is all zero,
else what the coding needs, which the text does not state. -/
def Device.blockLength (d : Device) (h b : Nat) : Nat :=
  let n := Config.oreLength (d.readBytes h (b * blockBytes) blockBytes)
  if d.blockCells h b = [] then 8 + n % 505
  else if 8 ≤ n ∧ n ≤ 65024 then n else 0

/-- Sectors of one stored block of a COMPRESSED object (R256): 128 where it is RAW, 1 where it is all zero, else what its coded bytes
fill. -/
def Device.blockSectors (d : Device) (h b : Nat) : Nat :=
  if d.blockCells h b = [] then 1
  else
    let n := d.blockLength h b
    if n = 0 then 128 else ceilDiv n 512

/-- The CRC-32C of 65,536 zero bytes. -/
def zeroBlockCrc : Nat := 0x72C0C4A4

/-- The CRC of a block's uncompressed bytes (R255). -/
def Device.blockCrc (d : Device) (h b : Nat) : Nat :=
  if d.blockCells h b = [] then zeroBlockCrc else crc32c (d.readBytes h (b * blockBytes) blockBytes)

/-- The map entry of a block as it is stored, before its place is found. -/
def Device.oreBlock (d : Device) (h : Nat) (compressed : Bool) (b : Nat) : OreBlock :=
  let n := if compressed then d.blockSectors h b else 128
  { sectors := n, raw := !compressed || n == 128, crc := d.blockCrc h b, storedLen := if n = 128 then 0 else d.blockLength h b }

/-- The 16-byte map entry (R255). -/
def OreBlock.word (o : OreBlock) : Nat := fld o.sector 0 + fld o.sectors 32 + fld o.raw.toNat 40 + fld o.crc 64

/-- The 8-byte header a compressed block begins with; a RAW block has none (R255). -/
def OreBlock.header (o : OreBlock) (block : Nat) : Option Nat :=
  if o.raw then none else some (fld o.storedLen 0 + fld 1 16 + fld block 32)

/-- STORED_SECTORS of an object homed in the slow tier: its blocks and its block map. -/
def Device.storedSectors (d : Device) (h : Nat) (e : DirEntry) : Nat :=
  mapSectors e.size +
    (if e.compressed then ((List.range e.size).map (d.blockSectors h)).sum else 128 * e.size)

/-- The sectors of the fresh location a supply fills (R271): as if every block were RAW, since its contents are not there yet. -/
def Device.freshSectors (_ : Device) (e : DirEntry) : Nat := mapSectors e.size + 128 * e.size

/-- The sectors of Lapidary `lap` (0 A, 1 B) that are held: homes, targets of moves, fresh locations of supplies, the
reservation of a layer's update (R258), and locations not yet scrubbed. -/
def Device.slowUsed (d : Device) (lap : Nat) : Nat :=
  (d.ms.dir.map (fun p =>
    (if p.2.tier = 3 + lap then p.2.sectors else 0) +
    (if p.2.move ≠ .settled ∧ p.2.moveTier = 3 + lap ∧ p.2.move ≠ .resupply then d.storedSectors p.1 p.2
     else if p.2.move = .resupply ∧ p.2.tier = 3 + lap then d.freshSectors p.2
     else if 0 < p.2.back ∧ p.2.backTier = 3 + lap then d.storedSectors p.1 p.2 else 0))).sum +
  tgetD d.ms.reserved lap 0 +
  ((d.ms.quarantine.filter (fun q => q.1 == 3 + lap)).map (fun q => q.2.2)).sum

/-- Free sectors of a Lapidary (R257); a lost one has none (R332). -/
def Device.slowFree (d : Device) (lap : Nat) : Nat :=
  if d.lostUnit lap then 0 else (if lap = 0 then d.ms.sectorsA else d.ms.sectorsB) - d.slowUsed lap

/-- A charge of sectors that a Lapidary can take: not below SLOW_LOW_WATER, and not while a layer's update waits for
space there (R257, R258). -/
def Device.slowTakes (d : Device) (lap sectors : Nat) : Bool :=
  !d.lostUnit lap && !d.ms.spaceHold.contains lap && d.get Obj.slowLowWater + sectors ≤ d.slowFree lap

/-- The Lapidary a demotion goes to: the one with the most free sectors, A on a tie (R257). -/
def Device.demoteTo (d : Device) : Nat := if d.slowFree 0 < d.slowFree 1 then 1 else 0

/-- SLOW_SPACE_LOW when a Lapidary's free space first falls below SLOW_LOW_WATER (R257). -/
def Device.checkLowWater (d : Device) (lap needed : Nat) : Device :=
  let low := d.slowFree lap < d.get Obj.slowLowWater
  let was := if lap = 0 then d.ms.lowA else d.ms.lowB
  let d := d.onMs (fun m => if lap = 0 then { m with lowA := low } else { m with lowB := low })
  if low && !was then d.raise 0x0906 [a1 lap, a4 (d.slowFree lap), a4 needed] else d

/-- Space has been freed: a later fall below SLOW_LOW_WATER is a first one again (R257). -/
def Device.spaceFreed (d : Device) : Device :=
  d.onMs (fun m => { m with
    lowA := m.lowA && decide (d.slowFree 0 < d.get Obj.slowLowWater)
    lowB := m.lowB && decide (d.slowFree 1 < d.get Obj.slowLowWater) })

/-! ### Block maps (R255) -/

/-- The sectors a block map lists. -/
def oreExtents (m : List OreBlock) : List (Nat × Nat) := m.map (fun b => (b.sector, b.sectors))

/-- The sectors an object holds in the slow tier: its block map and its stored blocks. -/
def Device.storedExtents (d : Device) (h : Nat) (e : DirEntry) : List (Nat × Nat) :=
  (e.location, mapSectors e.size) :: oreExtents (tgetD d.ms.maps h [])

/-- A move or a supply goes to this Lapidary, or a reversed demotion comes back from it. -/
def DirEntry.lands (e : DirEntry) (lap : Nat) : Bool :=
  e.move != .settled && (e.moveTier == 3 + lap || (decide (0 < e.back) && e.backTier == 3 + lap))

/-- The blocks a move or a supply has put on a Lapidary, as they are stored there. -/
def Device.landed (d : Device) (lap h : Nat) (e : DirEntry) : List OreBlock := if e.lands lap then tgetD d.ms.forming h [] else []

/-- The runs of sectors of a Lapidary that no repacking moves: the block maps there, the blocks of moves and supplies under way,
the locations not yet scrubbed, the retired sectors. -/
def Device.fixedExtents (d : Device) (lap : Nat) : List (Nat × Nat) :=
  d.ms.dir.flatMap (fun p =>
    (if p.2.tier = 3 + lap then [(p.2.location, mapSectors p.2.size)] else []) ++
    (if p.2.move ≠ .settled ∧ p.2.moveTier = 3 + lap then [(p.2.target, mapSectors p.2.size)] else []) ++
    oreExtents (d.landed lap p.1 p.2)) ++
  (d.ms.quarantine.filter (fun q => q.1 == 3 + lap)).map (·.2) ++
  (d.ms.badSectors.filter (fun b => b.1 == 3 + lap)).map (fun b => (b.2, 1))

/-- Every run of sectors of a Lapidary that holds something or is out of use. -/
def Device.slowExtents (d : Device) (lap : Nat) : List (Nat × Nat) :=
  d.ms.dir.flatMap (fun p => if p.2.tier = 3 + lap then oreExtents (tgetD d.ms.maps p.1 []) else []) ++ d.fixedExtents lap

/-- One past the last sector of a Lapidary that is laid out. -/
def Device.sectorEnd (d : Device) (lap : Nat) : Nat :=
  (if lap = 0 then d.ms.sectorsA else d.ms.sectorsB) + (d.ms.badSectors.filter (fun b => b.1 == 3 + lap)).length

/-- A place of `k` sectors beside those used. Which one is not stated, a free value (DESIGN CHOICE, log entry 114). -/
def slowPlace (hi : Nat) (used : List (Nat × Nat)) (k v : Nat) : Option Nat :=
  let gs := gaps 0 hi (sortExtents used)
  if places k gs = 0 then none else some (placeAt k gs (v % places k gs))

/-- Blocks laid one after another from sector `lo`, past the runs `used`; the sector after the last, and the blocks. -/
def packBlocks (hi : Nat) (used : List (Nat × Nat)) : Nat → List OreBlock → Nat × List OreBlock
  | lo, [] => (lo, [])
  | lo, b :: rest =>
    let x := ((gaps lo hi (sortExtents used)).find? (fun g => b.sectors ≤ g.2)).map (·.1)
    let at_ := x.getD (hi - b.sectors)
    let r := packBlocks hi used (if x.isSome then at_ + b.sectors else lo) rest
    (r.1, { b with sector := at_ } :: r.2)

/-- The block maps of some objects packed one after another. -/
def packMaps (hi : Nat) (used : List (Nat × Nat)) : Nat → List (Nat × List OreBlock) → List (Nat × List OreBlock)
  | _, [] => []
  | lo, (h, m) :: rest =>
    let r := packBlocks hi used lo m
    (h, r.2) :: packMaps hi used r.1 rest

/-- Where the free sectors of a Lapidary lie in pieces too small, its stored blocks are packed anew, which no interface shows
(R256; DESIGN CHOICE, log entry 114). -/
def Device.repack (d : Device) (lap : Nat) : Device :=
  let mine := d.ms.maps.filter (fun p => ((d.entry p.1).map (·.tier)).getD 0 == 3 + lap)
  let packed := packMaps (d.sectorEnd lap) (d.fixedExtents lap) 0 mine
  d.onMs (fun m => { m with maps := packed.foldl (fun t p => tset t p.1 p.2) m.maps })

/-- A place of `k` free sectors of a Lapidary, within its data space. -/
def Device.sectorPlace (d : Device) (lap k : Nat) : Nat × Device :=
  let (n, d) := d.draw
  match slowPlace (d.sectorEnd lap) (d.slowExtents lap) k (Config.unstated n) with
  | some x => (x, d)
  | none =>
    let d := d.repack lap
    ((slowPlace (d.sectorEnd lap) (d.slowExtents lap) k (Config.unstated n)).getD (d.sectorEnd lap - k), d)

/-- Blocks stored one after another: one that stays has its sector already, each of the others gets a place; none where one finds
no place. -/
def storeBlocks (hi : Nat) : Nat → List (Nat × Nat) → List (OreBlock × Option Nat) → Option (List OreBlock)
  | _, _, [] => some []
  | v, used, (b, some x) :: rest => (storeBlocks hi v used rest).map (fun l => { b with sector := x } :: l)
  | v, used, (b, none) :: rest =>
    match slowPlace hi used b.sectors (v % 2 ^ 64) with
    | none => none
    | some x => (storeBlocks hi (v / 2 ^ 64) ((x, b.sectors) :: used) rest).map (fun l => { b with sector := x } :: l)

/-- The block map of an object of the slow tier after its bytes or its home have changed: a block that needs as many sectors as
before stays where it is, unless its old place is `left`. -/
def Device.setMap (d : Device) (h : Nat) (left : OreBlock → Bool) : Device :=
  match d.entry h with
  | none => d
  | some e =>
    let lap := e.tier - 3
    let (n, d) := d.draw
    let old := tgetD d.ms.maps h []
    let now := (List.range e.size).map (fun b =>
      let o := d.oreBlock h e.compressed b
      (o, match old[b]? with
        | some x => if x.sectors = o.sectors ∧ !left x then some x.sector else none
        | none => none))
    let put : List OreBlock → Device := fun m => d.onMs (fun s => { s with maps := tset s.maps h m })
    match storeBlocks (d.sectorEnd lap) (Config.unstated n) (d.slowExtents lap) now with
    | some m => put m
    | none => (put (now.map (·.1))).repack lap

/-- A move or a supply has put block `b` on a Lapidary: it is stored there beside what else is. -/
def Device.landBlock (d : Device) (lap h b : Nat) : Device :=
  match d.entry h with
  | none => d
  | some e =>
    let o := d.oreBlock h e.compressed b
    let (x, d) := d.sectorPlace lap o.sectors
    d.onMs (fun m => { m with forming := tset m.forming h (tgetD m.forming h [] ++ [{ o with sector := x }]) })

/-- What a move or a supply has put on its Lapidary becomes the object's block map there. -/
def Device.takeLanded (d : Device) (h : Nat) : Device :=
  d.onMs (fun m => { m with maps := tset m.maps h (tgetD m.forming h []), forming := tdel m.forming h })

/-- An object leaves the slow tier: its map goes. -/
def Device.dropMap (d : Device) (h : Nat) : Device := d.onMs (fun m => { m with maps := tdel m.maps h })

/-! ### Waiters (R264, R270) -/

/-- A stage's state changed. -/
def Device.setStage (d : Device) (h : Nat) (st : StageState) : Device :=
  { d with stages := tmod d.stages h (fun x => { x with state := st }) }

/-- Room taken anew by an object of the slow tier whose bytes changed (R256). -/
def Device.restored (d : Device) (h : Nat) : Device :=
  match d.entry h with
  | none => d
  | some e =>
    if e.tier = 3 ∨ e.tier = 4 then
      let need := d.storedSectors h e
      ((d.modEntry h (fun e => { e with sectors := need })).setMap h (fun _ => false)).checkLowWater (e.tier - 3) need
    else d

/-- The memory of a tier answers: HBM and MRDIMMs in self-refresh do not, so that in P2, P3 and a clock hold an access waits
until they leave it (R407, R416). -/
def Device.answers (d : Device) (tier : Nat) : Bool :=
  !(tier == 2 && d.pwr.hbmSelf) && !(3 ≤ tier && d.pwr.ddrSelf)

/-- A held BAR2 access completes once its object has settled (R378). -/
def Device.finishHeld (d : Device) (p : Nat) (a : HeldAccess) : Device :=
  match a.write with
  | some bs => (d.writeBytes a.handle a.offset bs).restored a.handle
  | none => d.emit (.readData p (d.readBytes a.handle a.offset a.length))

/-- The BAR2 accesses of a port that an object holds complete. -/
def Device.wakeBar2 (d : Device) (p h : Nat) : Device :=
  let held := (d.port p).heldAccess.filter (fun a => a.handle == h)
  let d := d.onPort p (fun x => { x with heldAccess := x.heldAccess.filter (fun a => a.handle != h) })
  d.each held (fun d a => d.finishHeld p a)

/-- A stage that is parked becomes ready (R264). -/
def Device.wakeStage (d : Device) (h : Nat) : Device :=
  { d with stages := tmod d.stages h (fun x => { x with state := if x.state = .parked then .ready else x.state }) }

/-- An object the arming promotes has settled: it gets the pins the run holds on it (R250), where PIN_COUNT takes them. -/
def Device.pinLate (d : Device) (h : Nat) : Device :=
  match d.run.arm.bind (fun a => tget a.late h) with
  | none => d
  | some n =>
    if ((d.entry h).map (fun e => decide (255 < e.pins + n))).getD true then d
    else (d.modEntry h (fun e => { e with pins := e.pins + n })).onRun (fun r => { r with
      arm := r.arm.map (fun a => { a with late := tdel a.late h }) })

/-- The waiters of an object that has settled become ready (R264, R271). -/
def Device.wake (d : Device) (h : Nat) : Device :=
  let ws := d.ms.waiters.filter (fun w => w.1 == h)
  let d := d.onMs (fun m => { m with waiters := m.waiters.filter (fun w => w.1 != h) })
  d.each ws (fun d w => match w.2 with
    | .stage s => d.wakeStage s
    | .bar2 p => d.wakeBar2 p h
    | .arm => d.pinLate h
    | _ => d)

/-- A waiter parks on an object. -/
def Device.waitOn (d : Device) (h : Nat) (w : Waiter) : Device :=
  d.onMs (fun m => if m.waiters.contains (h, w) then m else { m with waiters := m.waiters ++ [(h, w)] })

/-! ### Moves (R259 to R262) -/

/-- A move begins: the object is invalidated first, and its entry names the target (R259 step 1). -/
def Device.startMove (d : Device) (h : Nat) (mv : Move) (tier target : Nat) : Device :=
  ((d.invalidate h).modEntry h (fun e => { e with move := mv, moveTier := tier, target := target, moveDone := 0 })).onMs (fun m =>
    { m with forming := tdel m.forming h })

/-- A demotion begins, to the Lapidary of R257; it is not started where that would breach SLOW_LOW_WATER. Where its
block map goes is not stated. -/
def Device.demote (d : Device) (h : Nat) : Option Device :=
  match d.entry h with
  | none => none
  | some e =>
    let lap := d.demoteTo
    let need := d.storedSectors h e
    if d.slowTakes lap need then
      let (at_, d) := d.sectorPlace lap (mapSectors e.size)
      some ((d.startMove h .demoting (3 + lap) at_).checkLowWater lap need)
    else none

/-- The order of kinds in R261. -/
def evictRank (kind : Nat) : Nat :=
  match kind with
  | 6 => 0
  | 0 => 1
  | 8 => 2
  | _ => 3

/-- Candidate `a` goes before `b`: kind, then ACCESS_EPOCH, then handle (R261). -/
def evictBefore (a b : Nat × DirEntry) : Bool :=
  let ka := evictRank a.2.kind
  let kb := evictRank b.2.kind
  ka < kb || (ka == kb && (a.2.epoch < b.2.epoch || (a.2.epoch == b.2.epoch && a.1 < b.1)))

def insertCandidate (x : Nat × DirEntry) : List (Nat × DirEntry) → List (Nat × DirEntry)
  | [] => [x]
  | y :: ys => if evictBefore x y then x :: y :: ys else y :: insertCandidate x ys

/-- The candidates of R261 on a die, in their order. -/
def Device.candidates (d : Device) (die : Nat) : List (Nat × DirEntry) :=
  (d.ms.dir.filter (fun p => p.2.candidate && p.2.location / dieUnits == die)).foldl (fun l x => insertCandidate x l) []

/-- The units held once the demotions under way are done. -/
def Device.usedAfterMoves (d : Device) : List (Nat × Nat) := d.fastUsed (fun _ e => e.move != .demoting)

/-- Demotions begin on one die, candidate after candidate, until a run of `size` units will be free there (R261). -/
def Device.evictOn (d : Device) (die size : Nat) : List (Nat × DirEntry) → Device
  | [] => d
  | (h, _) :: rest =>
    if places size (dieGaps die d.usedAfterMoves) ≠ 0 then d
    else (match d.demote h with
      | some d => d
      | none => d).evictOn die size rest

/-- The objects of one die that relocation may carry elsewhere on it: unpinned, settled, unpoisoned. -/
def DirEntry.movable (e : DirEntry) : Bool := e.ready && e.pins == 0

/-- Relocation within a die (R251): the unpinned objects of the die are packed anew, largest extents first, about the
ones that stay; where that leaves a run of `size` units, each object that changes place begins a CROSSING move. -/
def packAround (used : List (Nat × Nat)) (die : Nat) : List (Nat × DirEntry) → List (Nat × Nat × Nat)
  | [] => []
  | (h, e) :: rest =>
    match (dieGaps die used).find? (fun g => e.size ≤ g.2) with
    | some g => (h, g.1, e.size) :: packAround ((g.1, e.size) :: used) die rest
    | none => (h, e.location, e.size) :: packAround ((e.location, e.size) :: used) die rest

def insertBySize (x : Nat × DirEntry) : List (Nat × DirEntry) → List (Nat × DirEntry)
  | [] => [x]
  | y :: ys => if y.2.size ≤ x.2.size then x :: y :: ys else y :: insertBySize x ys

/-- Two extents share a unit. -/
def overlaps (a b : Nat × Nat) : Bool := a.1 < b.1 + b.2 && b.1 < a.1 + a.2

/-- The relocation of a die, or none where packing leaves no run of `size` units. A move starts only where its target is wholly free
now, since every block has one place (R244); the others follow once these have settled. -/
def Device.relocation (d : Device) (die size : Nat) : Option (List (Nat × Nat)) :=
  let onDie : Nat → DirEntry → Bool := fun _ e => e.movable && e.location / dieUnits == die
  let stay := d.fastUsed (fun h e => !onDie h e)
  let mine := (d.ms.dir.filter (fun p => onDie p.1 p.2)).foldl (fun l x => insertBySize x l) []
  let plan := packAround stay die mine
  if places size (dieGaps die (stay ++ plan.map (·.2))) = 0 then none
  else
    let held := d.usedNow
    match (plan.filter (fun p => !held.any (overlaps p.2))).map (fun p => (p.1, p.2.1)) with
    | [] => none
    | moves => some moves

/-- A relocation is under way on a die. -/
def Device.relocating (d : Device) (die : Nat) : Bool :=
  d.ms.dir.any (fun p => p.2.move == .crossing && p.2.tier == 2 && p.2.moveTier == 2 && p.2.location / dieUnits == die &&
    p.2.target / dieUnits == die)

/-- Room is made for an object that no die has a free run for (R251, R261): a relocation where one makes room, else
evictions on the dies in their order. -/
def Device.makeRoom (d : Device) (size : Nat) (order : List Nat) : Device :=
  if order.any (fun die => places size (dieGaps die d.usedAfterMoves) != 0) ∨ order.any d.relocating then d
  else match order.findSome? (fun die => d.relocation die size) with
    | some moves => d.each moves (fun d m => d.startMove m.1 .crossing 2 m.2)
    | none => d.each order (fun d die =>
        if order.any (fun x => places size (dieGaps x d.usedAfterMoves) != 0) then d
        else d.evictOn die size (d.candidates die))

/-- A promotion, or a move to another die that was asked for, begins where a run is free; otherwise room is made and the object waits its turn (R261, R262). -/
def Device.tryPromote (d : Device) (h : Nat) (asked : Option Nat) : Device × Bool :=
  match d.entry h with
  | none => (d, true)
  | some e =>
    if e.poisoned ∨ !tierAllowed e.kind 2 then (d, true)
    else if (e.tier = 3 ∨ e.tier = 4) ∧ e.move = .settled then
      let order := d.dieOrder e.hintDie asked
      match d.place e.size order with
      | some (loc, d) => (d.startMove h .promoting 2 loc, true)
      | none => (d.makeRoom e.size order, false)
    else if e.tier = 2 ∧ e.move = .settled ∧ asked.isSome ∧ asked ≠ some (e.location / dieUnits) then
      let order := asked.toList
      match d.place e.size order with
      | some (loc, d) => (d.startMove h .crossing 2 loc, true)
      | none => (d.makeRoom e.size order, false)
    else (d, true)

/-- The promotions that wait for room, in the order of their faults; the first that finds none holds the rest back
(R262). -/
def Device.serveWanting (d : Device) : List (Nat × Option Nat) → Device
  | [] => d
  | (h, asked) :: rest =>
    match d.tryPromote h asked with
    | (d, true) => (d.onMs (fun m => { m with wanting := m.wanting.filter (fun w => w.1 != h) })).serveWanting rest
    | (d, false) => d

/-- A promotion is requested (R259, R262): a DEMOTING object returns to its place, a moving one is joined, a slow one is
promoted when there is room. -/
def Device.promote (d : Device) (h : Nat) (asked : Option Nat) : Device :=
  match d.entry h with
  | none => d
  | some e =>
    if e.move = .demoting then
      let d := (d.bump Obj.evictionsRedirected).modEntry h (fun e => { e with
        move := .promoting, moveTier := 2, target := e.location, moveDone := e.size - e.moveDone
        back := e.moveDone, backTier := e.moveTier })
      d.serveWanting d.ms.wanting
    else if (e.tier = 3 ∨ e.tier = 4) ∧ e.move = .settled ∧ tierAllowed e.kind 2 then
      if d.ms.wanting.any (fun w => w.1 == h) then d
      else
        let d := d.onMs (fun m => { m with wanting := m.wanting ++ [(h, asked)] })
        d.serveWanting d.ms.wanting
    else d

/-- A pin is added (R250); a pin on a DEMOTING object reverses the demotion (R262). -/
def Device.addPin (d : Device) (h : Nat) : Device :=
  let d := d.modEntry h (fun e => { e with pins := e.pins + 1 })
  match d.entry h with
  | some e => if e.move = .demoting then d.promote h none else d
  | none => d

/-- A pin is removed; promotions that wait may find a candidate in it. -/
def Device.dropPin (d : Device) (h : Nat) : Device :=
  let d := d.modEntry h (fun e => { e with pins := e.pins - 1 })
  d.serveWanting d.ms.wanting

/-- The tier a block lies in: its home's, or the target's once MOVE_DONE has passed it (R244, R259). A reversed demotion returns its
first `back` blocks in order (R262). An object that is being supplied has the blocks that have landed. -/
def DirEntry.blockTier (e : DirEntry) (b : Nat) : Option Nat :=
  match e.move with
  | .promoting => some (if e.tier = 2 then (if b < e.back ∧ e.size - e.back + b ≥ e.moveDone then e.backTier else 2)
      else if b < e.moveDone then 2 else e.tier)
  | .demoting => some (if b < e.moveDone then e.moveTier else e.tier)
  | .crossing => some (if b < e.moveDone then e.moveTier else e.tier)
  | .resupply => if b < e.moveDone then some e.moveTier else none
  | _ => if e.tier = 1 then none else some e.tier

/-- A move that carries blocks between two homes. -/
def Move.carries : Move → Bool
  | .promoting => true
  | .demoting => true
  | .crossing => true
  | _ => false

/-- The blocks a move has still to carry. -/
def DirEntry.remaining (e : DirEntry) : Nat := if e.move.carries then e.size - e.moveDone else 0

/-- One block of a move lands: its home changes as MOVE_DONE passes it, and it counts in BYTES_MOVED (R259 steps 2 and 3). -/
def Device.moveBlock (d : Device) (h : Nat) : Device :=
  match d.entry h with
  | none => d
  | some e =>
    if e.remaining = 0 then d
    else
      let d := d.onlyIf (decide (3 ≤ e.moveTier)) (·.landBlock (e.moveTier - 3) h e.moveDone)
      (d.addTo Obj.bytesMoved blockBytes).modEntry h (fun e => { e with moveDone := e.moveDone + 1 })

/-- The entry of a move that has settled. -/
def DirEntry.settle (e : DirEntry) (sectors : Nat) (degraded : Bool) : DirEntry :=
  { e with tier := e.moveTier, location := e.target, target := 0, moveDone := 0, move := .settled, moveTier := 0, sectors := sectors
           degraded := degraded, back := 0, backTier := 0 }

/-- A demotion settles: the object is homed on its Lapidary (R259). -/
def Device.demoted (d : Device) (h : Nat) (e : DirEntry) : Device :=
  let lap := e.moveTier - 3
  let need := d.storedSectors h e
  let seam := bits (d.get Obj.channelMap) (12 * lap) 12 != 0xFFF
  let d := (((d.bump Obj.demotions).modEntry h (·.settle need seam)).takeLanded h).setMap h (fun _ => false)
  (d.wake h).checkLowWater lap need

/-- A move settles (R259 step 4): the blocks still to be carried land, the home and its space are the target's, the source's space
is free; the counters of R276; the waiters become ready. A demotion that was reversed settles where it was. -/
def Device.moveSettle (d : Device) (h : Nat) : Device :=
  match d.entry h with
  | none => d
  | some e =>
    let lap := e.moveTier - 3
    let seam := bits (d.get Obj.channelMap) (12 * lap) 12 != 0xFFF
    let d := d.onlyIf e.move.carries (·.addTo Obj.bytesMoved (e.remaining * blockBytes))
    match e.move with
    | .promoting =>
      let d := ((d.onlyIf (e.tier != 2) (·.bump Obj.promotions)).modEntry h (·.settle 0 false)).dropMap h
      let d := (d.wake h).spaceFreed
      d.serveWanting d.ms.wanting
    | .demoting =>
      let d := d.demoted h e
      d.serveWanting d.ms.wanting
    | .crossing =>
      let slow := decide (3 ≤ e.moveTier)
      let d := d.modEntry h (·.settle e.sectors (slow && seam))
      let d := d.onlyIf slow (fun d => (d.takeLanded h).setMap h (fun _ => false))
      let d := (d.wake h).spaceFreed
      d.serveWanting d.ms.wanting
    | _ => d

/-- The residency epoch advances every millisecond (R247). -/
def execResidencyEpochTick (s : State) := onDev s (fun d => d.onMs (fun m => { m with epoch := (m.epoch + 1) % 2 ^ 32 }))

/-! ### Creating and deleting (R248, R249) -/

/-- The entry an OBJECT_CREATE request asks for (R248). -/
def createEntry (v : Nat) : DirEntry :=
  { tier := bits v 49 3, kind := bits v 52 4, compressed := bit v 56, dataRo := bit v 57, hostRo := bit v 58,
    hintValid := bit v 59, hint := bits v 60 2, size := bits v 32 17 }

/-- The RANGE row of R249 for a create. -/
def createRange (v : Nat) : Bool :=
  let e := createEntry v
  bits v 18 14 != 0 || bits v 62 66 != 0 || e.size == 0 || 65536 < e.size || e.tier == 0 || 4 < e.tier ||
    ownRange (bits v 0 18) || !tierAllowed e.kind e.tier

/-- An object is made: its entry, and all its bytes 0. -/
def Device.makeObject (d : Device) (h : Nat) (e : DirEntry) : Device := (d.clearObject h).setEntry h e

/-- The requester is an OPERATOR. -/
def Device.isOperator (d : Device) (rq : Req) : Bool := d.roleOf rq == some 1

/-- OBJECT_CREATE (R249). -/
def createEffect : Effect := fun d rq v =>
  let h := bits v 0 18
  let e := createEntry v
  if !d.isOperator rq then (St.role, d)
  else if createRange v then (St.range, d)
  else if d.get Obj.deviceState ≠ 3 then (St.notReady, d)
  else if d.get Obj.powerTransition ≠ 0 then (St.busy, d)
  else if d.names h || (tget d.ms.creating h).isSome then (St.busy, d)
  else if e.tier = 1 then (St.ok, d.makeObject h e)
  else if e.tier = 2 then
    if !d.roomFast e.size then (St.noSpace, d)
    else
      let order := d.dieOrder e.hintDie none
      match d.place e.size order with
      | some (loc, d) => (St.ok, d.makeObject h { e with location := loc })
      | none => (St.pending, (d.onMs (fun m => { m with creating := tset m.creating h e })).makeRoom e.size order)
  else
    let lap := e.tier - 3
    let need := mapSectors e.size + (if e.compressed then e.size else 128 * e.size)
    if d.lostUnit lap then (St.notReady, d)
    else if !d.slowTakes lap need then (St.noSpace, d)
    else
      let (at_, d) := d.sectorPlace lap (mapSectors e.size)
      let d := d.makeObject h { e with
        location := at_, sectors := need, degraded := bits (d.get Obj.channelMap) (12 * lap) 12 != 0xFFF }
      (St.ok, d.setMap h (fun _ => false))

/-- OBJECT_CREATE (R248, R249). -/
def execObjectCreate (rq : Req) (value : Nat) (s : State) :=
  onReq s rq (fun d => d.command rq Obj.objectCreate value createEffect)

/-- A pending create goes on (R249): it is placed and answered OK once a run is free; it is answered NO_SPACE where no
run is free, no move is under way and no more can be started. -/
def Device.createPlaced (d : Device) (h : Nat) : Device :=
  match tget d.ms.creating h with
  | none => d
  | some e =>
    let order := d.dieOrder e.hintDie none
    let drop : Device → Device := fun d => d.onMs (fun m => { m with creating := tdel m.creating h })
    let done : Device → Nat → Device := fun d st =>
      d.finish (fun w => w.key == Obj.objectCreate && bits w.arg 0 18 == h) { status := st }
    match d.place e.size order with
    | some (loc, d) => done ((drop d).makeObject h { e with location := loc }) St.ok
    | none =>
      let d := d.makeRoom e.size order
      if d.ms.dir.any (fun p => p.2.move == .demoting || p.2.move == .crossing) then d else done (drop d) St.noSpace

/-- OBJECT_CREATE_PLACED (R249). -/
def execObjectCreatePlaced (index : Nat) (s : State) := onDev s (fun d => d.createPlaced index)

/-- Something waits on an object. -/
def Device.waitedOn (d : Device) (h : Nat) : Bool := d.ms.waiters.any (fun w => w.1 == h)

/-- A descriptor in progress carries an object (R383). -/
def Device.dmaCarries (d : Device) (h : Nat) : Bool :=
  d.ports.any (fun p => p.2.queues.any (fun q => q.2.taken.any (fun t =>
    t.status.isNone && bits t.desc 32 32 == h && bits t.desc 0 4 != 0)))

/-- OBJECT_DELETE (R249, R260): the object is invalidated, its space freed, its entry UNUSED. -/
def deleteEffect : Effect := fun d rq h =>
  if !d.isOperator rq then (St.role, d)
  else match d.entry h with
    | none => (St.range, d)
    | some e =>
      if 0 < e.pins ∨ e.move ≠ .settled ∨ d.waitedOn h ∨ d.dmaCarries h then (St.busy, d)
      else
        let d := (((d.invalidate h).clearObject h).onMs (fun m => { m with dir := tdel m.dir h })).dropMap h
        let d := d.spaceFreed
        (St.ok, d.serveWanting d.ms.wanting)

/-- OBJECT_DELETE (R249). -/
def execObjectDelete (rq : Req) (handle : Nat) (s : State) :=
  onReq s rq (fun d => d.command rq Obj.objectDelete handle deleteEffect)

/-- The pins a port added to a handle by OBJECT_PIN. -/
def pinKey (port h : Nat) : Nat := port * 2 ^ 32 + h

/-- The port whose pins a request adds and removes; the field network's own count where there is none. -/
def pinPort (rq : Req) : Nat := (portOf rq).getD 2

/-- OBJECT_PIN (R250): a handle that names no object is refused with RANGE. -/
def pinEffect : Effect := fun d rq h =>
  match d.entry h with
  | none => (St.range, d)
  | some e =>
    if 255 ≤ e.pins then (St.noSpace, d)
    else
      let k := pinKey (pinPort rq) h
      (St.ok, (d.addPin h).onMs (fun m => { m with portPins := tset m.portPins k (tgetD m.portPins k 0 + 1) }))

/-- OBJECT_PIN (R250). -/
def execObjectPin (rq : Req) (handle : Nat) (s : State) :=
  onReq s rq (fun d => d.command rq Obj.objectPin handle pinEffect)

/-- OBJECT_UNPIN (R250). -/
def unpinEffect : Effect := fun d rq h =>
  let k := pinKey (pinPort rq) h
  let n := tgetD d.ms.portPins k 0
  if n = 0 then (St.range, d)
  else
    let d := d.onMs (fun m => { m with portPins := if n = 1 then tdel m.portPins k else tset m.portPins k (n - 1) })
    (St.ok, d.dropPin h)

/-- OBJECT_UNPIN (R250). -/
def execObjectUnpin (rq : Req) (handle : Nat) (s : State) :=
  onReq s rq (fun d => d.command rq Obj.objectUnpin handle unpinEffect)

/-- The die a move to FAST asks for. -/
def moveDie (v : Nat) : Option Nat := if bit v 35 then some (bits v 36 2) else none

/-- A move that goes where the object already is. -/
def moveIsHome (e : DirEntry) (v : Nat) : Bool :=
  e.tier == bits v 32 3 && (e.tier != 2 || !bit v 35 || e.location / dieUnits == bits v 36 2)

/-- The refusals of OBJECT_MOVE in their order (R277), and the move. A move to FAST waits its turn for the room that
evictions make. -/
def moveEffect : Effect := fun d rq v =>
  let h := bits v 0 32
  let tier := bits v 32 3
  match d.entry h with
  | none => (St.range, d)
  | some e =>
    let crosses := e.tier == tier && !moveIsHome e v || (3 ≤ e.tier && 3 ≤ tier && e.tier != tier)
    if bits v 38 26 ≠ 0 ∨ tier < 2 ∨ 4 < tier ∨ !tierAllowed e.kind tier then (St.range, d)
    else if !d.isOperator rq then (St.role, d)
    else if d.get Obj.powerTransition ≠ 0 then (St.busy, d)
    else if e.tier = 1 then (St.range, d)
    else if e.lost then (St.objectLost, d)
    else if e.move ≠ .settled ∨ e.poisoned then (St.busy, d)
    else if 0 < e.pins ∧ (crosses ∨ (e.tier = 2 ∧ tier ≠ 2)) then (St.busy, d)
    else if moveIsHome e v then (St.ok, d)
    else if tier = 2 then
      if d.roomFast e.size then
        let d := d.onMs (fun m => { m with wanting := m.wanting ++ [(h, moveDie v)] })
        (St.ok, d.serveWanting d.ms.wanting)
      else (St.noSpace, d)
    else if d.slowTakes (tier - 3) (d.storedSectors h e) then
      let (at_, d) := d.sectorPlace (tier - 3) (mapSectors e.size)
      let mv := if e.tier = 2 then Move.demoting else Move.crossing
      (St.ok, (d.startMove h mv tier at_).checkLowWater (tier - 3) 0)
    else (St.noSpace, d)

/-- OBJECT_MOVE (R259, R277). -/
def execObjectMove (rq : Req) (value : Nat) (s : State) :=
  onReq s rq (fun d => d.command rq Obj.objectMove value moveEffect)

end Sys2Proof.Machine
end

