-- ==== Sys2Proof/Machine/Risk.lean ====
section
/-!
DEFINITION. The risk level (R329), the bits of REPLACE_REQUEST (R333) and the pin ALERT_N (R502).
-/
namespace Sys2Proof.Machine

/-! The sources of R329, numbered by row. -/
namespace Src
def corrected : Nat := 0
def retries : Nat := 1
def thermal : Nat := 2
def standIn : Nat := 3
def lostParts : Nat := 4
def dailies : Nat := 5
def neighbour : Nat := 6
def power : Nat := 7
def coFed : Nat := 8
end Src

/-- The risk sources changed. -/
def Device.onRisk (d : Device) (f : Risk → Risk) : Device := { d with risk := f d.risk }

/-- RISK_POINTS and RISK_LEVEL follow the sources; a change of level raises RISK_CHANGED, on the field network too (R366). -/
def Device.riskUpdate (d : Device) : Device :=
  let pts := (List.range 9).map (fun s => tgetD d.risk.held s 0)
  let word := (List.range 9).foldl (fun w s => w + fld (min 3 (tgetD d.risk.held s 0)) (2 * s)) 0
  let level := min 7 (max (d.get Obj.riskFloor) pts.sum)
  let old := d.get Obj.riskLevel
  let d := (d.put Obj.riskPoints word).put Obj.riskLevel level
  if level = old then d else d.raiseNotice 0x0B09 [a1 old, a1 level, a4 word]

/-- A source whose condition ends holds its points for a time (R329). -/
def hasHold (s : Nat) : Bool := s == Src.corrected || s == Src.retries || s == Src.thermal || s == Src.power

/-- The condition of a source now stands at some points (R329); its hold keeps the higher ones. -/
def Device.riskSource (d : Device) (s points : Nat) : Device :=
  (d.onRisk (fun r => { r with
    now := tset r.now s points
    held := tset r.held s (if hasHold s then max points (tgetD r.held s 0) else points) })).riskUpdate

/-- The sum of the counts of the last `span` microseconds. -/
def trailing (now span : Nat) (xs : List (Nat × Nat)) : Nat := ((xs.filter (fun x => now < x.1 + span)).map (·.2)).sum

/-- One hour and one minute in microseconds. -/
def hourUs : Nat := 3_600_000_000
def minuteUs : Nat := 60_000_000

/-- The points of the corrected errors of the trailing hour. -/
def Device.correctedPoints (d : Device) : Nat :=
  let n := trailing d.micros hourUs d.risk.corrected
  let lim := d.get Obj.riskCePerHour
  if 10 * lim < n then 2 else if lim < n then 1 else 0

/-- The points of the replays of the last minute. -/
def Device.replayPoints (d : Device) : Nat := if 1000 < trailing d.micros minuteUs d.risk.replays then 1 else 0

/-- Corrected errors in SRAM or a tier are found. -/
def Device.countCorrected (d : Device) (n : Nat) : Device :=
  let d := d.onRisk (fun r => { r with corrected := (d.micros, n) :: r.corrected.filter (fun x => d.micros < x.1 + hourUs) })
  d.riskSource Src.corrected d.correctedPoints

/-- A replay of R282. -/
def Device.countReplay (d : Device) : Device :=
  let d := d.onRisk (fun r => { r with replays := (d.micros, 1) :: r.replays.filter (fun x => d.micros < x.1 + minuteUs) })
  d.riskSource Src.retries d.replayPoints

/-- A power event (R415): its condition is over at once, and its points are held. -/
def Device.powerEvent (d : Device) : Device := (d.riskSource Src.power 2).onRisk (fun r => { r with now := tset r.now Src.power 0 })

/-- The hold of a source ends: it keeps the points of its condition as it stands (R329). -/
def Device.riskHoldEnds (d : Device) (s : Nat) : Device :=
  if 8 < s then d
  else
    let now := if s = Src.corrected then d.correctedPoints else if s = Src.retries then d.replayPoints
      else tgetD d.risk.now s 0
    (d.onRisk (fun r => { r with now := tset r.now s now, held := tset r.held s now })).riskUpdate

/-- RISK_HOLD_EXPIRY (R329). -/
def execRiskHoldExpiry (source : Nat) (s : State) := onDev s (fun d => d.riskHoldEnds source)

/-- A bit of REPLACE_REQUEST newly set: its event on the queues and the field network, ALERT_N for 1 ms, and the
lost-parts source (R333). -/
def Device.replaceBit (d : Device) (b : Nat) : Device :=
  let old := d.get Obj.replaceRequest
  if bit old b then d
  else
    let d := (d.put Obj.replaceRequest (setBit old b)).raiseNotice 0x0B0D [a4 (setBit old b)]
    (d.onRisk (fun r => { r with pulse := true })).riskSource Src.lostParts 2

/-- ALERT_N is driven low (R502). -/
def Device.alertLow (d : Device) : Bool := d.pwr.hold || d.gov.trip || d.sec.bootFailed || d.risk.pulse

/-- ALERT_PULSE_END (R502). -/
def execAlertPulseEnd (s : State) := onDev s (fun d => d.onRisk (fun r => { r with pulse := false }))

end Sys2Proof.Machine
end

