-- ==== Sys2Proof/Machine/Net.lean ====
section
/-!
DEFINITION. The links below and above the flit: ports and routes (R287 to R293), the header of a message (R285), its
sending and acknowledgement (R286), and the states of a link.
-/
namespace Sys2Proof.Machine

/-! The channels of R281 and the message kinds of R285. -/
namespace Vc
def control : Nat := 0
def collective : Nat := 1
def still : Nat := 2
end Vc

namespace Kind
def contribution : Nat := 1
def result : Nat := 2
def verdictUp : Nat := 3
def verdictDown : Nat := 4
def msgAck : Nat := 5
def live : Nat := 6
def identity : Nat := 7
def still : Nat := 8
def stillAck : Nat := 9
end Kind

/-- The channel of a kind: stills on STILL, collectives on COLLECTIVE, the rest on CONTROL. -/
def kindVc (k : Nat) : Nat :=
  if k = Kind.still then Vc.still else if k = Kind.contribution ∨ k = Kind.result then Vc.collective else Vc.control

/-- The kinds R286 acknowledges end to end. -/
def kindAcked (k : Nat) : Bool := (1 ≤ k && k ≤ 4) || k == Kind.still

/-! ### Links and ports -/

/-- A link, DOWN where it never trained. -/
def Device.link (d : Device) (l : Nat) : Link := tgetD d.net.links l {}

/-- A link changed. -/
def Device.onLink (d : Device) (l : Nat) (f : Link → Link) : Device :=
  d.onNet (fun n => { n with links := tset n.links l (f (tgetD n.links l {})) })

/-- PORT_CONFIG of a port (R287). -/
def Device.portConfig (d : Device) (p : Nat) : Nat := d.get (Obj.portConfig + p)
def portEnabled (c : Nat) : Bool := bit c 48
def portMembers (c : Nat) : Nat := bits c 0 24
def portSpares (c : Nat) : Nat := bits c 24 24
def portPeer (c : Nat) : Nat := bits c 64 10
def portPeerPort (c : Nat) : Nat := bits c 80 7

/-- The link that bit `n` of a port's masks names. -/
def linkOf (p n : Nat) : Nat := 24 * (p / 24) + n

/-- The links of a mask of a port, lowest first. -/
def maskLinks (p mask : Nat) : List Nat := (bitsSet mask 24).map (linkOf p)

/-- The enabled port that holds a link, as member or spare. -/
def Device.portOfLink (d : Device) (l : Nat) : Option Nat :=
  (List.range 96).find? (fun p =>
    let c := d.portConfig p
    portEnabled c && p / 24 == l / 24 && (bit (portMembers c) (l % 24) || bit (portSpares c) (l % 24)))

/-- The links that carry a port's traffic: the UP ones of its members and of the spares that replaced members. -/
def Device.upLinks (d : Device) (p : Nat) : List Nat :=
  let c := d.portConfig p
  if portEnabled c then (maskLinks p (portMembers c ||| portSpares c)).filter (fun l => (d.link l).state == .up) else []

/-- LINKS_IN_SERVICE: the UP links (R293). -/
def Device.linksInService (d : Device) : Nat := (d.net.links.filter (fun x => x.2.state == .up)).length

/-- The first fall of LINKS_IN_SERVICE below LINK_MIN raises LINKS_BELOW_MIN and sets REPLACE_REQUEST (R293). -/
def Device.checkLinkMin (d : Device) : Device :=
  let min := d.get Obj.linkMin
  if min ≠ 0 ∧ d.linksInService < min ∧ !d.net.belowMin then
    ((d.onNet (fun n => { n with belowMin := true })).raise 0x0A0A [a1 d.linksInService, a1 min]).replaceBit 5
  else d

/-! ### Credits (R283) -/

/-- The credit class of a channel and a hop class. -/
def creditClass (vc hop : Nat) : Nat := 4 * vc + hop

/-- Buffers per hop class of a channel. -/
def classBuffers (cls : Nat) : Nat := if cls / 4 = 0 then 8 else if cls / 4 = 1 then 96 else 24

/-- Free credits of a class. -/
def Link.free (x : Link) (cls : Nat) : Nat := tgetD x.granted cls 0 - tgetD x.used cls 0

/-- The UP link of a port with the most free credits in a class, the lowest-numbered on a tie (R289). -/
def Device.pickLink (d : Device) (p cls : Nat) : Option Nat :=
  (d.upLinks p).foldl (fun best l => match best with
    | none => some l
    | some b => if (d.link b).free cls < (d.link l).free cls then some l else some b) none

/-! ### Messages (R285) -/

/-- A message's bytes: its 32-byte header and its payload. -/
def messageBytes (kind : Nat) (early : Bool) (entry id take offset format check : Nat) (payload : Bytes) : Bytes :=
  leBytes 32 (fld kind 0 + fld early.toNat 8 + fld entry 16 + fld id 32 + fld take 64 + fld offset 128 +
    fld payload.length 160 + fld format 176 + fld check 192) ++ payload

/-- A flit that carries IDENTITY, which is one flit long. It belongs to its link: it needs no credit, none is returned for it, and it
is never forwarded (R279, R288). -/
def Flit.identity (f : Flit) : Bool := f.vc == Vc.control && leAt f.data 0 1 == Kind.identity

/-- The flits of a message: 244 bytes each, the last filled with zero bytes (R281). -/
def flitsOf (vc hop dest src : Nat) : Nat → Bytes → List Flit
  | 0, _ => []
  | n + 1, b => if b.isEmpty then [] else { vc := vc, hop := hop, dest := dest, src := src, data := slice b 0 244 } :: flitsOf vc hop dest src n (b.drop 244)

/-- A message's bytes put on a link's queue. -/
def Device.queueOn (d : Device) (l vc dest : Nat) (msg : Bytes) : Device :=
  d.onLink l (fun x => { x with queue := x.queue ++ flitsOf vc 0 dest (d.get Obj.jobRank) (msg.length + 1) msg })

/-- The port a rank is reached through now (R291, R292): PRIMARY, or ALTERNATE, and whether it is the latter. -/
def Device.routePort (d : Device) (rank : Nat) : Option (Nat × Bool) :=
  let e := d.net.routes.getD rank 0x7F7F
  let ok : Nat → Bool := fun p => p < 96 && d.upLinks p != []
  if ok (bits e 0 7) then some (bits e 0 7, false)
  else if ok (bits e 8 7) then some (bits e 8 7, true)
  else none

/-- A message goes on its route, or waits while no port reaches the rank, for which ROUTE_UNREACHABLE is raised once
(R292). The answer is the link that carries it. -/
def Device.transmit (d : Device) (dest vc : Nat) (msg : Bytes) : Option Nat × Device :=
  match d.routePort dest with
  | none =>
    (none, if d.net.unreachable.contains dest then d
      else (d.onNet (fun n => { n with unreachable := dest :: n.unreachable })).raise 0x0A04 [a2 dest])
  | some (p, alt) =>
    match d.pickLink p (creditClass vc 0) with
    | none => (none, d)
    | some l =>
      let d := d.onNet (fun n => { n with unreachable := n.unreachable.filter (· != dest) })
      (some l, (d.onlyIf alt (fun d => d.bump Obj.reroutes)).queueOn l vc dest msg)

/-- A message sent to a rank (R285, R286): it takes the next MSG_ID of its destination, and is kept until it is
acknowledged, or, where its kind is not acknowledged, until it is on a link. -/
def Device.send (d : Device) (dest kind : Nat) (early : Bool) (entry take offset format check : Nat) (payload : Bytes) : Device :=
  let id := tgetD d.net.nextId dest 0
  let d := d.onNet (fun n => { n with nextId := tset n.nextId dest ((id + 1) % 2 ^ 32) })
  let msg := messageBytes kind early entry id take offset format check payload
  let d := d.emit (.message dest ⟨d.get Obj.jobRank, entry, id, take, offset, format, check, false, payload⟩)
  let (l, d) := d.transmit dest (kindVc kind) msg
  if kindAcked kind || l.isNone then
    d.onNet (fun n => { n with sent := n.sent ++ [{ dest := dest, id := id, vc := kindVc kind, msg := msg, link := l }] })
  else d

/-- The acknowledgement of a message (R286): it carries the message's own MSG_ID. -/
def Device.sendAck (d : Device) (dest id : Nat) : Device :=
  let msg := messageBytes Kind.msgAck false 0xFFFF id 0 0 0 0 []
  let d := d.emit (.message dest ⟨d.get Obj.jobRank, 0xFFFF, id, 0, 0, 0, 0, false, []⟩)
  let (l, d) := d.transmit dest Vc.control msg
  if l.isNone then d.onNet (fun n => { n with sent := n.sent ++ [{ dest := dest, id := id, vc := Vc.control, msg := msg, link := none }] }) else d

/-- A kept message goes again on the current route, at once or once a port reaches its rank. One that was never on a link counts as
no resend. -/
def Device.resend (d : Device) (m : Sent) : Device :=
  let (l, d) := d.transmit m.dest m.vc m.msg
  let acked := kindAcked (leAt m.msg 0 1)
  let d := d.onNet (fun n => { n with sent := (n.sent.map (fun x =>
    if x.dest == m.dest && x.id == m.id && x.msg == m.msg then
      { x with link := l, again := l.isNone && (m.again || m.link.isSome) } else x)).filter (fun x =>
      !(x.dest == m.dest && x.id == m.id && x.msg == m.msg && !acked && l.isSome)) })
  if (m.again || m.link.isSome) && l.isSome then d.bump Obj.msgResent else d

/-- Messages that waited for a way to their rank go on. -/
def Device.flushWaiting (d : Device) : Device := d.each (d.net.sent.filter (fun m => m.link.isNone)) (fun d m => d.resend m)

/-! ### Credits returned, and flits that wait for a way (R283, R292) -/

/-- A receive buffer is free again: its credit goes back (R283). -/
def Device.giveCredit (d : Device) (l cls : Nat) : Device :=
  d.onLink l (fun x => { x with returned := tset x.returned cls (tgetD x.returned cls 0 + 1) })

/-- The buffer a forwarded flit stood in is free. -/
def Device.freeBuffer (d : Device) (f : Flit) : Device :=
  match f.origin with
  | some l => d.giveCredit l (creditClass f.vc (f.hop - 1))
  | none => d

/-- The flits of one message, and of those that follow it between the same ranks. -/
def Flit.sameWay (f g : Flit) : Bool := f.vc == g.vc && f.src == g.src && f.dest == g.dest

/-- Parked flits whose rank can be reached again go on, each message on one link. -/
def Device.unpark (d : Device) : Nat → Device
  | 0 => d
  | n + 1 =>
    match d.net.parked.find? (fun f => (d.routePort f.dest).isSome) with
    | none => d
    | some f =>
      match (d.routePort f.dest).bind (fun p => d.pickLink p.1 (creditClass f.vc f.hop)) with
      | none => d
      | some l =>
        let mine := d.net.parked.filter (fun g => g.sameWay f)
        let d := d.onlyIf ((d.routePort f.dest).any (·.2)) (·.bump Obj.reroutes)
        let d := d.onNet (fun (x : LinkSys) => { x with
          parked := x.parked.filter (fun g => !g.sameWay f),
          links := x.links.map (fun (q : Nat × Link) => (q.1, { q.2 with partialIn := q.2.partialIn.map (fun y =>
            if y.vc == f.vc && y.src == f.src && y.dest == f.dest then { y with link := some l } else y) })) })
        (d.onLink l (fun x => { x with queue := x.queue ++ mine })).unpark n

/-- A peer is heard (R300). -/
def Device.hear (d : Device) (src : Nat) : Device := d.onNet (fun n => { n with heard := tset n.heard src d.micros })

/-! ### States of a link -/

/-- A port without an UP link raises PORT_DOWN once (R304). -/
def Device.checkPort (d : Device) (p : Nat) : Device :=
  if portEnabled (d.portConfig p) then
    if d.upLinks p = [] then
      (if d.net.portsDown.contains p then d
       else (d.onNet (fun n => { n with portsDown := p :: n.portsDown })).raise 0x0A03 [a2 p, a2 (portPeer (d.portConfig p))])
    else d.onNet (fun n => { n with portsDown := n.portsDown.filter (· != p) })
  else d

/-- A link's state changes. Where it becomes UP, the ranks it reaches are unreachable no more (R292). Where it leaves UP, the messages it carried are sent again on the current route (R286, R290)
and its flits are dropped. -/
def Device.linkTo (d : Device) (l : Nat) (st : LinkState) : Device :=
  let was := (d.link l).state
  let d := d.onLink l (fun x => { x with state := st })
  let port := d.portOfLink l
  if was = .up ∧ st ≠ .up then
    let dropped := (d.link l).queue
    let d := d.onLink l (fun x => { x with queue := [], buffer := [], replaying := [], partialIn := [] })
    let d := d.each dropped Device.freeBuffer
    let d := match port with
      | some p => d.checkPort p
      | none => d
    let d := d.checkLinkMin
    d.each (d.net.sent.filter (fun m => m.link == some l)) (fun d m => d.resend m)
  else if st = .up then
    let d := match port with
      | some p => d.checkPort p
      | none => d
    let d := d.onNet (fun n => { n with unreachable := n.unreachable.filter (fun r => (d.routePort r).isNone) })
    d.flushWaiting.unpark d.net.parked.length
  else d

/-- Training begins (R279 step 1): the link starts with nothing sent, received or granted. -/
def Device.linkTrain (d : Device) (l : Nat) (st : LinkState) : Device :=
  (d.linkTo l st).onLink l (fun x => { x with
    matched := false, mismatch := none, service := st == .retraining, peerRank := 0xFFFF, queue := [], buffer := [], nextSeq := 0, replays := 0,
    replaying := [], granted := [], used := [], returned := [], creditTurn := 0, expected := 0, nakDue := false,
    nakSent := false, slots := 0, stillSlots := 0, partialIn := [] })

/-- The condition of R279 step 1: the link reference is qualified and the serial rails are in range. -/
def Device.serialReady (d : Device) : Bool := bit d.pwr.pwrGood 0 && bit d.pwr.pwrGood 1 && (tgetD d.pwr.refs 2 {}).ready

/-- A link starts R279: its training begins at once, or once the condition of step 1 holds. -/
def Device.linkStarts (d : Device) (l : Nat) : Device :=
  if d.serialReady then d.linkTrain l .training
  else d.onNet (fun n => { n with trainDue := n.trainDue.filter (· != l) ++ [l] })

/-- The links whose training waited for the condition of step 1 begin. -/
def Device.linksDue (d : Device) : Device :=
  if d.serialReady then (d.onNet (fun n => { n with trainDue := [] })).each d.net.trainDue (fun d l => d.linkTrain l .training) else d

/-- Every link starts R279 at step 1. -/
def Device.linksTrain (d : Device) : Device := d.each (List.range 96) Device.linkStarts

/-- Every link becomes DOWN, as at a clock hold (R407) or an entry to P2 or P3 (R420). -/
def Device.linksDown (d : Device) : Device :=
  (d.onNet (fun n => { n with trainDue := [] })).each (List.range 96) (fun d l => d.linkTo l .down)

end Sys2Proof.Machine
end

