-- ==== Sys2Proof/Machine/Take.lean ====
section
/-!
DEFINITION. The local health word and the verdict's way up the tree (R178 to R180, R183, R299, R301): charging a cause to
the open take, latching the word, and what a device sends to its parent.
-/
namespace Sys2Proof.Machine

/-! The bits of the health word (R178). -/
namespace Hb
def nonfiniteLoss : Nat := 0
def nonfiniteGrad : Nat := 1
def nonfiniteAct : Nat := 2
def detectedFault : Nat := 3
def scaleSkew : Nat := 4
def fallbackIncomplete : Nat := 5
def objectLost : Nat := 6
def linkLoss : Nat := 7
def dailiesAlarm : Nat := 16
def saturationAlarm : Nat := 17
def clipSaturated : Nat := 22
def outlierRow : Nat := 23
def trackerClamp : Nat := 24
def gradScaleFloor : Nat := 25
def earlyCut : Nat := 26
end Hb

/-- A word with no device index: no discard bit set. -/
def noDevice : Nat := 0xFFFF * 2 ^ 48

/-- A local health word of its low bits: DEVICE_INDEX is the device's rank where a discard bit is set (R178). -/
def Device.healthWord (d : Device) (low : Nat) : Nat :=
  low % 2 ^ 32 + fld (if bits low 0 16 = 0 then 0xFFFF else d.get Obj.jobRank % 2 ^ 16) 48

/-- Two words combined (R180): bits [31:0] by OR, bits [63:48] by minimum. -/
def combineWords (a b : Nat) : Nat := (bits a 0 32 ||| bits b 0 32) + fld (min (bits a 48 16) (bits b 48 16)) 48

/-! ### The verdict tree (R299, R301) -/

/-- The parent of a rank in the tree. -/
def Device.treeParent (d : Device) (r : Nat) : Nat := (r - 1) / d.get Obj.verdictFanout

/-- The children of a rank. -/
def Device.treeChildren (d : Device) (r : Nat) : List Nat :=
  let f := d.get Obj.verdictFanout
  (rangeFrom (f * r + 1) f).filter (· < d.get Obj.jobSize)

/-- A rank that has been declared lost. -/
def Device.isLost (d : Device) (r : Nat) : Bool := d.net.lost.contains r

/-- The nearest living ancestor of a rank. -/
def Device.livingAncestor (d : Device) : Nat → Nat → Option Nat
  | 0, _ => none
  | n + 1, r =>
    if r = 0 then none
    else
      let p := d.treeParent r
      if d.isLost p then d.livingAncestor n p else some p

/-- Rank `top` is an ancestor of a rank. -/
def Device.below (d : Device) (top : Nat) : Nat → Nat → Bool
  | 0, _ => false
  | n + 1, r => r != 0 && (d.treeParent r == top || d.below top n (d.treeParent r))

/-- The rank that acts as root when rank 0 is lost: the lowest living one among its children. -/
def Device.actingRoot (d : Device) : Option Nat := (d.treeChildren 0).find? (fun r => !d.isLost r)

/-- Where a device sends its word: its parent, the nearest living ancestor, or the acting root; none for a root. -/
def Device.verdictTarget (d : Device) : Option Nat :=
  let me := d.get Obj.jobRank
  if me = 0 then none
  else match d.livingAncestor 11 me with
    | some p => some p
    | none => if d.actingRoot = some me then none else d.actingRoot

/-- The living ranks that report below some ranks, the children of lost ones reattached, and the lost ones among them. -/
def Device.reporters (d : Device) : Nat → List Nat → List Nat × List Nat
  | 0, _ => ([], [])
  | n + 1, rs => rs.foldl (fun acc r =>
      if d.isLost r then
        let (a, b) := d.reporters n (d.treeChildren r)
        (acc.1 ++ a, acc.2 ++ r :: b)
      else (acc.1 ++ [r], acc.2)) ([], [])

/-- The ranks this device waits for, and the lost ones it answers for. An acting root takes the place of rank 0. -/
def Device.myReporters (d : Device) : List Nat × List Nat :=
  let me := d.get Obj.jobRank
  let own := d.reporters 11 (d.treeChildren me)
  if me ≠ 0 ∧ d.isLost 0 ∧ d.actingRoot = some me then
    let rest := d.reporters 11 ((d.treeChildren 0).filter (· != me))
    (own.1 ++ rest.1, own.2 ++ 0 :: rest.2)
  else own

/-- The word this device holds for its subtree: its own once latched, those that have come, and one for each lost
child with LINK_LOSS and its rank (R301). -/
def Device.subtreeWord (d : Device) : Nat :=
  let own := match d.run.take with
    | some t => t.latched.getD noDevice
    | none => noDevice
  let w := d.run.reports.foldl (fun w r => combineWords w r.2) own
  d.myReporters.2.foldl (fun w r => combineWords w (2 ^ Hb.linkLoss + fld r 48)) w

/-- Every word this device waits for has come. -/
def Device.subtreeReady (d : Device) : Bool :=
  (match d.run.take with
   | some t => t.latched.isSome
   | none => false) && d.myReporters.1.all (fun r => (tget d.run.reports r).isSome)

/-- The verdict goes down to every living child, and to every rank that reported (R299, R301). -/
def Device.sendDown (d : Device) (take w : Nat) : Device :=
  let kids := (d.myReporters.1 ++ tkeys d.run.reports).eraseDups.filter (fun r => !d.isLost r)
  d.each kids (fun d r => d.send r Kind.verdictDown false 0xFFFF take 0 0 0 (leBytes 8 w))

/-- The device's word goes up, or forms the verdict where the device is a root, or can reach no ancestor: such a verdict of a subtree
carries LINK_LOSS (R301). A root that cuts its own take sends the
verdict down at once (R183 step 4), and latches it with its next step (log entry 93). -/
def Device.sendUp (d : Device) (early : Bool) : Device :=
  match d.run.take with
  | none => d
  | some t =>
    let w := d.subtreeWord
    let d := d.onRun (fun r => { r with upSent := true })
    match d.verdictTarget with
    | some p => d.send p Kind.verdictUp early 0xFFFF t.number 0 0 0 (leBytes 8 w)
    | none =>
      if d.run.formed.isSome then d
      else
        let me := d.get Obj.jobRank
        let w := if me = 0 then w else combineWords w (2 ^ Hb.linkLoss + fld me 48)
        let d := d.onRun (fun r => { r with formed := some w })
        if early then (d.sendDown t.number w).onRun (fun r => { r with rootCut := true }) else d

/-- The word goes up once, when every contribution of the subtree is here (R299). -/
def Device.tryVerdict (d : Device) : Device := if d.subtreeReady && !d.run.upSent then d.sendUp false else d

/-! ### Charging a cause (R179, R183) -/

/-- The open take changed. -/
def Device.onTake (d : Device) (f : Take → Take) : Device := d.onRun (fun r => { r with take := r.take.map f })

/-- Causes still count for the take: its word is not latched, or was latched early, before R42 step 6 (R179, R183). -/
def Take.gathers (t : Take) : Bool := t.latched.isNone || t.early

/-- A take is open: admitted, and not at R42 step 6. -/
def Device.takeOpen (d : Device) : Bool :=
  match d.run.take with
  | some t => t.gathers
  | none => false

/-- LOCAL_HEALTH follows the open take (R185). -/
def Device.showHealth (d : Device) : Device :=
  match d.run.take with
  | some t => d.put Obj.localHealth (d.healthWord (if t.gathers then t.bits else d.run.nextBits))
  | none => d.put Obj.localHealth (d.healthWord d.run.nextBits)

/-- Bits 18 to 21 of the word: any engine's overflow, underflow, inexact or invalid flag (R172, R178). -/
def flagBits (flags : Nat) : Nat :=
  (List.range 4).foldl (fun w k => if (List.range 8).any (fun e => bit flags (4 * e + k)) then w ||| 2 ^ (18 + k) else w) 0

/-- Where a stage's engines keep their flags (R172): by core and binding position. -/
def Stage.unit (s : Stage) : Nat := 4 * s.core + s.pos

/-- The engine flags of the run (R171): those of the Lapidary and the collective engine in the take, and of every core and
binding position of a training stage. -/
def Device.runFlags (d : Device) (t : Take) : Nat :=
  d.stages.foldl (fun w p => if Desc.serving p.2.desc then w else w ||| tgetD d.engineFlags p.2.unit 0) t.flags

/-- The local word is latched and goes into the verdict collective (R183 steps 1 and 2): EARLY_CUT is raised. -/
def Device.earlyLatch (d : Device) : Device :=
  match d.run.take with
  | none => d
  | some t =>
    if t.latched.isSome then d
    else
      let low := t.bits ||| flagBits (d.runFlags t)
      let w := d.healthWord low
      let d := d.onTake (fun t => { t with bits := low, latched := some w, early := true })
      ((d.raise 0x0606 [a8 t.number, a8 w]).sendUp true).showHealth

/-- Bits of the health word charged to the open take (R179); with EARLY_CUT 1, a discard bit cuts it (R183). Between a
latch and the next admission they count for the take to be admitted next. -/
def Device.charge (d : Device) (mask : Nat) : Device :=
  if d.takeOpen then
    let d := (d.onTake (fun t => { t with bits := t.bits ||| mask })).showHealth
    if bits mask 0 16 ≠ 0 ∧ d.get Obj.earlyCut = 1 then d.earlyLatch else d
  else if d.runState = 3 then (d.onRun (fun r => { r with nextBits := r.nextBits ||| mask })).showHealth
  else d

/-- One bit charged. -/
def Device.chargeBit (d : Device) (b : Nat) : Device := d.charge (2 ^ b)

/-- A detected fault (R178 bit 3). -/
def Device.detectedFault (d : Device) : Device := d.chargeBit Hb.detectedFault

/-- The open take is cut whatever EARLY_CUT holds (R331, R332). -/
def Device.cutTake (d : Device) : Device := if d.takeOpen then d.earlyLatch else d

/-- Flags of an engine in the word of R172. -/
def flagWord (engine flags : Nat) : Nat := flags % 16 * 16 ^ engine

/-- Flags of the Lapidary or the collective engine are sticky for the open take, or, where none is open, for the take to be
admitted next (R172, R179; log entry 92). -/
def Device.takeFlags (d : Device) (engine flags : Nat) : Device :=
  if d.takeOpen then d.onTake (fun t => { t with flags := t.flags ||| flagWord engine flags })
  else d.onRun (fun r => { r with nextFlags := r.nextFlags ||| flagWord engine flags })

/-- Flags of an engine of a core are sticky for the stage's binding position (R172). -/
def Device.coreFlags (d : Device) (s : Stage) (engine flags : Nat) : Device :=
  { d with engineFlags := tset d.engineFlags s.unit (tgetD d.engineFlags s.unit 0 ||| flagWord engine flags) }

end Sys2Proof.Machine
end

