-- ==== Sys2Proof/Machine/Samples.lean ====
section
/-!
DEFINITION. Serving samples in flight and how they fail (R173): a detected fault in the work of a sample, a halt of an
AUDIT stream, and what the stages drop.
-/
namespace Sys2Proof.Machine

/-! The fields of a stream descriptor (R226). -/

def Stream.cls (x : Stream) : Nat := bits x.desc 48 3
def Stream.pinned (x : Stream) : Bool := bit x.desc 51
def Stream.laneMask (x : Stream) : Nat := bits x.desc 64 64
def Stream.inRing (x : Stream) : Nat := bits x.desc 128 32
def Stream.outRing (x : Stream) : Nat := bits x.desc 160 32
def Stream.pinTake (x : Stream) : Nat := bits x.desc 192 64
def Stream.maxInFlight (x : Stream) : Nat := bits x.desc 256 16

/-- The class AUDIT. -/
def clsAudit : Nat := 1

/-- The forward of a sample is at a stage. -/
def Stage.holds (x : Stage) (stream seq : Nat) : Bool :=
  match x.fwd with
  | some f => f.stream == stream && f.seq == seq
  | none => false

/-- The serving sample a stage works on or takes next. -/
def Stage.awaited (s : Stage) : Option (Nat × Nat) :=
  match s.fwd with
  | some w => if w.stream = 0 then none else some (w.stream, w.seq)
  | none => s.todo.head?

/-- A stage without the work of one sample. A stage that was parked on a serving sample, or failed with it, goes on with
its next one (R173). -/
def Stage.dropSample (x : Stage) (stream seq : Nat) : Stage :=
  let gone := x.holds stream seq
  { x with
    state := if x.awaited == some (stream, seq) && stream != 0 && (x.state == .parked || x.state == .failed) then .ready else x.state
    op := if gone then none else x.op
    transfers := if gone then [] else x.transfers
    joins := x.joins.filter (fun j => !(j.stream == stream && j.seq == seq))
    todo := x.todo.filter (fun t => !(t == (stream, seq)))
    fwd := match x.fwd with
      | some f => if f.stream = stream ∧ f.seq = seq then none else some f
      | none => none
    bwd := match x.bwd with
      | some b => if stream = 0 ∧ b.seq = seq then none else some b
      | none => none
    stash := if stream = 0 then tdel (tdel x.stash seq) (2 ^ 32 + seq) else x.stash
    stashAt := if stream = 0 then tdel x.stashAt seq else x.stashAt
    gradIn := x.gradIn.filter (fun g => !(stream == 0 && g.seq == seq)) }

/-- Every stage drops the work of one sample. -/
def Device.dropSample (d : Device) (stream seq : Nat) : Device :=
  { d with stages := d.stages.map (fun p => (p.1, p.2.dropSample stream seq)) }

/-- A stream changed where it is not CLOSED. -/
def Device.onStream (d : Device) (s : Nat) (f : Stream → Stream) : Device := { d with streams := tmod d.streams s f }

/-- A sample that has neither an output nor an ending. -/
def Sample.open (x : Sample) : Bool := x.output.isNone && x.ending.isNone

/-! ### Contexts (R222) -/

/-- The outgoing stage's context is written to its slot: offset 28 MiB + (4k + p) × 128 KiB of its cluster's store (R28, R222). -/
def Device.saveContext (d : Device) (h : Nat) : Device :=
  match tget d.stages h with
  | none => d
  | some s =>
    let c : SavedContext :=
      { stage := h, sample := s.fwd.map (fun w => (w.stream, w.seq)), done := (s.fwd.map (·.done)).getD []
        rowCount := s.rowCount, bwdCount := s.bwdCount, rows := (s.fwd.map (·.rows)).getD [] }
    { d with saveArea := tset d.saveArea (4 * s.core + s.pos) c }

/-- The incoming stage's context is read from its slot, which is then free. What the slot holds is what the stage's own
fields hold: nothing changes it while the stage is out. -/
def Device.restoreContext (d : Device) (h : Nat) : Device :=
  match tget d.stages h with
  | none => d
  | some s => { d with saveArea := tdel d.saveArea (4 * s.core + s.pos) }

/-! ### Held versions (R229, R230) -/

/-- A stream pins a version of a layer, or a sample in flight reads it. -/
def Device.versionUsed (d : Device) (layer take : Nat) : Bool :=
  d.streams.any (fun p => tget p.2.pins layer == some take ||
    p.2.samples.any (fun y => y.open && tget y.versions layer == some take))

/-- The streams that pin a version of a layer. -/
def Device.pinningStreams (d : Device) (layer : Nat) : List Nat :=
  (d.streams.filter (fun p => (tget p.2.pins layer).isSome)).map (·.1)

/-- A handle no host names: the place of a version's own copy. -/
def ownCopy (h : Nat) : Bool := 2 ^ 60 ≤ h

/-- An engine can read an object, or a version's own copy, which stands in the fast tier. -/
def Device.canRead (d : Device) (h : Nat) : Bool := ownCopy h || d.ready h

/-- The objects of the directory a version is read through. -/
def Device.versionHandles (d : Device) (v : Version) : List Nat := (v.objs.filter d.names).eraseDups

/-- A hold of a PINNED stream or of a sample in flight pins the version's objects (R229, R250): one pin on each while any such
hold lasts. An object that carries 255 pins takes none (DESIGN CHOICE, log entry 112). -/
def Device.syncHold (d : Device) (layer : Nat) (v : Version) : Device :=
  let used := d.versionUsed layer v.take
  if used = v.pinned then d
  else
    let hs := d.versionHandles v
    let mark : Device → Device := fun d => { d with versions := tmod d.versions layer (fun l => l.map (fun (o : Version) =>
      if o.take = v.take then { o with pinned := used } else o)) }
    if used then
      (if hs.any (fun h => ((d.entry h).map (fun e => decide (255 ≤ e.pins))).getD false) then d
       else mark (d.each hs Device.addPin))
    else mark (d.each hs Device.dropPin)

/-- A version that is held no longer: the pins of its hold and the pin VERSION_PUBLISH set go, and its own places are freed. -/
def Device.freeVersion (d : Device) (o : Version) : Device :=
  let d := d.each (if o.pinned then d.versionHandles o else []) Device.dropPin
  let d := d.each (o.objs.filter ownCopy) Device.clearObject
  d.onlyIf (o.host && d.names (o.objs.headD noObject)) (·.dropPin (o.objs.headD noObject))

/-- Versions no longer held are released, their pins dropped and their space freed (R229): that of their own places, and the
pin VERSION_PUBLISH set on a host's object. -/
def Device.releaseVersions (d : Device) (layer : Nat) : Device :=
  let d := d.each (tgetD d.versions layer []) (fun d v => d.syncHold layer v)
  match tgetD d.versions layer [] with
  | [] => d
  | v :: rest =>
    let gone := rest.filter (fun o => !d.versionUsed layer o.take)
    let d := { d with versions := tset d.versions layer (v :: rest.filter (fun o => d.versionUsed layer o.take)) }
    let d := d.each gone Device.freeVersion
    if gone = [] then d else d.serveWanting d.ms.wanting

/-- Every layer releases what nothing holds. -/
def Device.releaseAll (d : Device) : Device := d.each (tkeys d.versions) Device.releaseVersions

/-- A sample of a stream ends in some way: its work is dropped, and its holds go (R229). -/
def Device.endSample (d : Device) (s seq : Nat) (e : Ending) : Device :=
  (d.onStream s (fun x => { x with samples := x.samples.map (fun y =>
    if y.seq = seq then { y with ending := some e, output := none } else y) })).dropSample s seq |>.releaseAll

/-- A stream halts (R173): no further sample is admitted, and every sample of it in flight is dropped. -/
def Device.haltStream (d : Device) (s : Nat) : Device :=
  match tget d.streams s with
  | none => d
  | some x =>
    let d := d.each (x.samples.filter (fun y => y.ending.isNone)) (fun d y => d.endSample s y.seq ⟨St.ok, 3, 0xFF⟩)
    d.onStream s (fun x => { x with state := if x.state = .closing then .closing else .halted })

/-- The work of a serving sample meets a detected fault (R173): the sample fails, the stream is told of the health bit,
and an AUDIT stream halts. -/
def Device.failSample (d : Device) (s seq b : Nat) : Device :=
  match tget d.streams s with
  | none => d
  | some x =>
    if x.samples.any (fun y => y.seq == seq && y.ending.isNone) then
      let d := (d.endSample s seq ⟨if b = Hb.objectLost then St.objectLost else St.ok, 4, b⟩).raiseStream 0x0608 s [a8 seq, a2 b]
      if x.cls = clsAudit then d.haltStream s else d
    else d

/-- A sample fails with a status and no health bit. -/
def Device.refuseSample (d : Device) (s seq status : Nat) : Device :=
  (d.endSample s seq ⟨status, 0, 0xFF⟩).raiseStream 0x0608 s [a8 seq, a2 status]

/-- The serving samples whose work a set of stages holds. -/
def Device.samplesAt (d : Device) (sel : Stage → Bool) : List (Nat × Nat) :=
  ((d.stages.filter (fun p => sel p.2)).flatMap (fun p =>
    (p.2.joins.map (fun j => (j.stream, j.seq))) ++ (match p.2.fwd with
      | some f => [(f.stream, f.seq)]
      | none => []))).filter (fun x => x.1 != 0)

/-- Every serving sample in flight fails with a health bit. -/
def Device.failAllServing (d : Device) (b : Nat) : Device :=
  d.each (d.streams.flatMap (fun p => (p.2.samples.filter (·.open)).map (fun y => (p.1, y.seq)))) (fun d x => d.failSample x.1 x.2 b)

/-- The serving samples that chosen stages hold fail with a health bit. -/
def Device.failAt (d : Device) (sel : Stage → Bool) (b : Nat) : Device :=
  d.each (d.samplesAt sel) (fun d x => d.failSample x.1 x.2 b)

/-- The training work of a stage is dropped, its operation in flight with it, as at a discard or a cut (R181, R183). -/
def Stage.dropTraining (x : Stage) : Stage :=
  { x with
    op := match x.fwd with
      | some f => if f.stream = 0 then none else x.op
      | none => none
    joins := x.joins.filter (fun j => j.stream != 0)
    fwd := match x.fwd with
      | some f => if f.stream = 0 then none else some f
      | none => none
    bwd := none
    transfers := []
    gradIn := []
    stash := []
    stashAt := []
    stashLost := []
    missed := []
    origins := []
    dailies := [] }

/-! ### Stashes (R161, R269) -/

/-- A stage changed. -/
def Device.onStage (d : Device) (h : Nat) (f : Stage → Stage) : Device := { d with stages := tmod d.stages h f }

/-- The backward of a stage changed. -/
def Device.onBwd (d : Device) (h : Nat) (f : Bwd → Bwd) : Device := d.onStage h (fun s => { s with bwd := s.bwd.map f })

/-- A stage's stash does not serve a sample: it missed its deadline (R161), or was released with its poison (R269). -/
def Stage.lateFor (s : Stage) (seq : Nat) : Bool :=
  s.stashLost.contains seq || s.missed.contains seq || (match s.bwd with
    | some w => w.seq == seq && w.late
    | none => false)

/-- A stage whose input for a backward sample comes from its own stash. -/
def Stage.stashes (s : Stage) (seq : Nat) : Bool := s.anchor && !s.lateFor seq

/-- The nearest lower anchor of a stage, by its lane's positions, whose stash has not missed its own deadline for the sample:
it is resident, or within that deadline (R161). -/
def Device.lowerAnchor (d : Device) (s : Stage) (seq : Nat) : Option Stage :=
  (d.stages.filter (fun p => Desc.lane p.2.desc == Desc.lane s.desc && Desc.kind p.2.desc == 0 && p.2.stashes seq &&
    Desc.lanePosition p.2.desc < Desc.lanePosition s.desc && (tget p.2.stash seq).isSome)).foldl (fun best p => match best with
      | none => some p.2
      | some b => if Desc.lanePosition b.desc < Desc.lanePosition p.2.desc then some p.2 else some b) none

/-- An anchor takes the cheaper path of R161 for a sample of a take: the event is raised once per anchor in a take. The anchor may
be in its own backward of the sample, or still before it. -/
def Device.stashLateFor (d : Device) (h : Nat) (s a : Stage) (seq take : Nat) : Device :=
  let d := d.bump Obj.stashLate
  let d := d.onlyIf (!s.stashLate) (·.raise 0x0501 [a4 (Desc.layer s.desc), a4 (Desc.layer a.desc), a2 seq, a8 take])
  let own := (s.bwd.map (fun w => w.seq == seq)).getD false
  (if own then d.onBwd h (fun w => { w with late := true }) else d.onStage h (fun s => { s with missed := seq :: s.missed })).onStage h
    (fun s => { s with stashLate := true, state := if s.state = .parked then .ready else s.state })

/-- The same, for the sample of the anchor's own backward. -/
def Device.stashGone (d : Device) (h : Nat) (s a : Stage) (w : Bwd) : Device := d.stashLateFor h { s with bwd := some w } a w.seq w.take

end Sys2Proof.Machine
end

