-- ==== Sys2Proof/Machine/Parts.lean ====
section
/-!
DEFINITION. What the device does when a part of it fails: poisoned objects (R265, R269, R270), a lost channel, Lapidary,
compute die or stack (R254, R332), a retired cluster and its stand-in (R331), scrubbing (R273), the D2D modules (R20,
R21).
-/
namespace Sys2Proof.Machine

/-! ### Poison -/

/-- The version list a handle belongs to, with the newest version's. -/
def Device.newestCopy (d : Device) (h : Nat) : Option (Nat × Version) :=
  d.versions.findSome? (fun l => match l.2 with
    | v :: _ => if v.objs.contains h then some (l.1, v) else none
    | [] => none)

/-- The row of R269 an object is handled by, counted from 0. -/
def Device.poisonRow (d : Device) (h kind : Nat) : Nat :=
  if 1 ≤ kind ∧ kind ≤ 4 then 0
  else if kind = 5 then
    match d.newestCopy h with
    | some (layer, v) => if v.host ∨ d.run.writing.contains layer then 2 else 1
    | none => 2
  else if kind = 6 then 3
  else if kind = 7 then 4
  else 5

/-- A move that poison or a loss meets stops, and the object is whole at its source again (R262). -/
def DirEntry.stopMove (e : DirEntry) : DirEntry :=
  if e.move.carries then { e with move := .settled, target := 0, moveDone := 0, moveTier := 0, back := 0, backTier := 0 } else e

/-- The blocks whose home had passed from the source, which a stopped move copies back (R262). -/
def DirEntry.passed (e : DirEntry) : Nat :=
  if e.move = .promoting ∧ e.tier = 2 then e.remaining else if e.move.carries then e.moveDone else 0

/-- A waiter fails (R270): a training stage counts as finished with bit 6 set, a serving sample fails. -/
def Device.failStage (d : Device) (h : Nat) : Device :=
  match tget d.stages h with
  | none => d
  | some x =>
    let d := d.setStage h .failed
    if Desc.serving x.desc then
      (match x.awaited with
       | some (stream, seq) => d.failSample stream seq Hb.objectLost
       | none => d)
    else d.chargeBit Hb.objectLost

/-- The poisoned stash object of an anchor is released (R269): every stashed sample that has a lower anchor takes the cheaper
path of R161, the one a stage waits with at once. A first anchor's stash stays poisoned and is re-supplied. -/
def Device.releaseStash (d : Device) (o : Nat) : Device :=
  d.each (d.stages.filter (fun p => !Desc.serving p.2.desc && p.2.anchor && Desc.stash p.2.desc == o)) (fun d p =>
    let gone := ((tkeys p.2.stash).filter (· < 2 ^ 32)).filter (fun q => (d.lowerAnchor p.2 q).isSome)
    if gone = [] then d
    else
      let d := (d.onStage p.1 (fun s => { s with stashLost := gone ++ s.stashLost })).modEntry o (fun e => { e with poisoned := false })
      let d := d.onMs (fun m => { m with waiters := m.waiters.filter (· != (o, .stage p.1)) })
      match p.2.bwd with
      | none => d
      | some w => match (if w.input.isNone && gone.contains w.seq then d.lowerAnchor p.2 w.seq else none) with
        | some a => d.stashGone p.1 p.2 a w
        | none => d)

/-- An object is poisoned (R265): its translations end, a move of it stops, OBJECT_POISONED is raised, and it is handled
by its kind (R269). -/
def Device.poison (d : Device) (h cause : Nat) : Device :=
  match d.entry h with
  | none => d
  | some e =>
    if e.move = .resupply then
      -- A supply whose bytes are lost stops, and the object stands as it did before it (DESIGN CHOICE, log entry 124).
      let fresh := if e.moveTier = 2 then [(2, e.target, e.size)]
        else ((e.target, mapSectors e.size) :: oreExtents (d.landed (e.moveTier - 3) h e)).map (fun x => (e.moveTier, x))
      ((d.onMs (fun m => { m with quarantine := m.quarantine ++ fresh })).modEntry h (fun e => { e with
        move := .settled, moveTier := 0, target := 0, moveDone := 0, units := [], supplier := 2 })).bump Obj.objectsPoisoned
    else if e.poisoned then d
    else
      let row := d.poisonRow h e.kind
      let d := (d.invalidate h).modEntry h (fun e =>
        { e.stopMove with poisoned := true, move := if row = 1 then .rebuilding else e.stopMove.move })
      let d := (d.addTo Obj.bytesMoved (e.passed * blockBytes)).spaceFreed
      let d := (d.bump Obj.objectsPoisoned).raise 0x0902 [a4 h, a1 e.kind, a1 e.tier, a1 cause, a1 row]
      if row = 4 ∧ h ≠ d.get Obj.statsObject ∧ h ≠ d.get Obj.scratchA ∧ h ≠ d.get Obj.scratchB then
        let stages := d.ms.waiters.filterMap (fun w => match w.2 with
          | .stage s => if w.1 = h then some s else none
          | _ => none)
        (d.each stages Device.failStage).chargeBit Hb.objectLost
      else if row = 3 then d.releaseStash h
      else d

/-- The stage handle of an access that no stage made (R263). -/
def noStage : Nat := 0xFFFF_FFFF

/-- An access meets an object engines cannot read now (R263): its fault counts, and what resolves it is asked for. A moving
object that is being demoted is asked back (R262). -/
def Device.faultAt (d : Device) (h : Nat) (asked : Option Nat) (stage turn : Nat) : Device :=
  match d.entry h with
  | none => d
  | some e =>
    if e.ready then d
    else if e.poisoned then d.bump Obj.faultsPoisoned
    else if e.move ≠ .settled then (d.bump Obj.faultsMoving).promote h asked
    else if e.tier = 1 then (d.bump Obj.faultsNotResident).raise 0x0901 [a4 h, a4 stage, a8 turn]
    else (d.bump Obj.faultsNotResident).promote h asked

/-- The accessor waits for the object. -/
def Device.awaitObject (d : Device) (h : Nat) (asked : Option Nat) (w : Waiter) (stage turn : Nat) : Device :=
  if d.ready h then d else (d.waitOn h w).faultAt h asked stage turn

/-- A stage is parked on an object (R264): its context goes to its slot. -/
def Device.park (d : Device) (stage h turn : Nat) : Device :=
  match tget d.stages stage with
  | none => d
  | some s => ((d.setStage stage .parked).saveContext stage).awaitObject h (some (s.core / 256)) (.stage stage) stage turn

/-- The take or sequence number an event about a stage carries: a serving stage's own sample, else the take. -/
def Device.stageTurn (d : Device) (h : Nat) : Nat :=
  match tget d.stages h with
  | some x => (match x.awaited with
    | some (_, seq) => seq
    | none => match x.fwd with
      | some f => f.take
      | none => match x.bwd with
        | some b => b.take
        | none => d.get Obj.takeNumber)
  | none => d.get Obj.takeNumber

/-- An access that R263 forbids outright: beyond the object, a write to a DATA_RO object, an engine's access to kinds 1 to 4. -/
def DirEntry.forbids (e : DirEntry) (off : Nat) (write engine : Bool) : Bool :=
  e.size * blockBytes ≤ off || (write && e.dataRo) || (engine && 1 ≤ e.kind && e.kind ≤ 4)

/-- A PROTECTION fault is a detected fault of the work it meets (R263, R264). -/
def Device.protectionFault (d : Device) (stage h off : Nat) (write : Bool) : Device :=
  let d := (d.bump Obj.faultsProtection).raise 0x0909 [a4 h, a8 off, a4 stage, a1 write.toNat]
  match tget d.stages stage with
  | none => d.detectedFault
  | some s =>
    let d := d.setStage stage .failed
    if Desc.serving s.desc then d.failAt (fun y => y.desc == s.desc) Hb.detectedFault else d.detectedFault

/-- An access to an object fails at once: it is LOST (R270), or it is a poisoned accumulator or collective buffer (R269). -/
def Device.failsAtOnce (d : Device) (h : Nat) (e : DirEntry) : Bool :=
  e.lost || (e.poisoned && e.kind == 7 && h != d.get Obj.statsObject && h != d.get Obj.scratchA && h != d.get Obj.scratchB)

/-- The fault of such an access (R263), which nothing resolves. -/
def Device.lostFault (d : Device) (e : DirEntry) : Device := d.bump (if e.poisoned then Obj.faultsPoisoned else Obj.faultsNotResident)

/-- An access of a stage meets an object engines cannot read now: the stage parks on it, and while the object is LOST it fails at
once (R264, R270). A handle that names no object, and an object engines may not touch, are PROTECTION faults (R263). -/
def Device.meets (d : Device) (stage h : Nat) : Device :=
  match d.entry h with
  | none => d.protectionFault stage h 0 false
  | some e =>
    if e.forbids 0 false true then d.protectionFault stage h 0 false
    else if d.failsAtOnce h e then (d.lostFault e).failStage stage else d.park stage h (d.stageTurn stage)

/-- The first of some objects that engines cannot read now. -/
def Device.unreadable (d : Device) (hs : List Nat) : Option Nat := hs.find? (fun h => !d.ready h)

/-- A fetch is issued before a fault asks for it (R267): the object is promoted where the tiers hold it. -/
def Device.fetch (d : Device) (h : Nat) (asked : Option Nat) : Device :=
  match d.entry h with
  | none => d
  | some e => if e.ready ∨ e.poisoned ∨ e.tier = 1 then d else d.promote h asked

/-- An operand of a tile operation in flight has been poisoned: the operation writes none of its results (R265). -/
def Device.marked (d : Device) (hs : List Nat) : Option Nat :=
  hs.find? (fun h => match d.entry h with
    | some e => e.poisoned
    | none => false)

/-- A waiter's hold limit has passed (R270): the waiter fails, the object is LOST, and OBJECT_LOST names both. The limit bears on a
poisoned or an ABSENT object alone (R263); a serving sample whose promotion has found no room fails with NO_SPACE (R261), and
who waits on a move goes on waiting. -/
def Device.holdExpires (d : Device) (h waiter : Nat) : Device :=
  if d.ms.waiters.contains (h, .stage waiter) then
    match d.entry h with
    | none => d
    | some e =>
      let gone := d.onMs (fun m => { m with waiters := m.waiters.filter (· != (h, .stage waiter)) })
      let turn := d.stageTurn waiter
      if e.poisoned ∨ e.tier = 1 then
        let d := (gone.modEntry h (fun e => { e with lost := true })).onlyIf (!e.lost) (·.bump Obj.objectsLost)
        (d.raise 0x0903 [a4 h, a4 1, a8 turn]).failStage waiter
      else if e.move ≠ .settled then d
      else
        match (tget d.stages waiter).bind Stage.awaited with
        | some (stream, seq) =>
          (gone.onMs (fun m => { m with wanting := m.wanting.filter (fun w => w.1 != h || gone.ms.waiters.any (fun v => v.1 == h)) })).refuseSample stream seq St.noSpace
        | none => d
  else d

/-! ### Lost parts -/

/-- A part is lost (R332): its bit, UNIT_LOST, REPLACE_REQUEST, the detected fault of the open take and its cut, whose
samples the next take reruns. -/
def Device.loseUnit (d : Device) (b replace : Nat) : Device :=
  let d := (d.put Obj.lostUnits (setBit (d.get Obj.lostUnits) b)).raise 0x0B0C [a1 b, a8 (d.get Obj.takeNumber)]
  let d := d.replaceBit replace
  let again := d.takeOpen
  let d := d.onRun (fun r => { r with rerun := r.rerun || again, partLost := r.partLost || d.armed })
  d.detectedFault.cutTake

/-- Objects chosen by their entries are poisoned, in ascending handle. -/
def Device.poisonWhere (d : Device) (sel : DirEntry → Bool) (cause : Nat) : Device :=
  d.each (tkeys (d.ms.dir.filter (fun p => sel p.2))) (fun d h => d.poison h cause)

/-- The moves whose target is lost stop (R262). -/
def Device.stopMoves (d : Device) (sel : DirEntry → Bool) : Device :=
  d.onMs (fun m => { m with dir := m.dir.map (fun p => (p.1, if sel p.2 then p.2.stopMove else p.2)) })

/-- A Lapidary is lost, with its channels and every object homed on it. -/
def Device.loseLapidary (d : Device) (lap : Nat) : Device :=
  if 1 < lap ∨ d.lostUnit lap then d
  else
    let d := d.put Obj.channelMap (putBits (d.get Obj.channelMap) (12 * lap) 12 0)
    let d := d.loseUnit lap 1
    let d := d.stopMoves (fun e => e.moveTier == 3 + lap && e.tier != 3 + lap)
    d.poisonWhere (fun e => e.tier == 3 + lap) 1

/-- An entry's home lies in the fast tier of a die. -/
def DirEntry.onDie (e : DirEntry) (die : Nat) : Bool := e.tier == 2 && e.location / dieUnits == die

/-- A move goes to the fast tier of a die. -/
def DirEntry.toDie (e : DirEntry) (die : Nat) : Bool :=
  e.move != .settled && e.moveTier == 2 && e.target / dieUnits == die && !e.onDie die

/-- The fast tier of a die loses its objects. -/
def Device.loseFast (d : Device) (die : Nat) : Device :=
  (d.stopMoves (fun e => e.toDie die)).poisonWhere (fun e => e.onDie die) 0

/-- An HBM stack is lost. -/
def Device.loseStack (d : Device) (stack : Nat) : Device :=
  if 7 < stack ∨ d.lostUnit (2 + stack) then d else (d.loseUnit (2 + stack) 2).loseFast (stack / 2)

/-- A compute die is lost, with its stacks, its links and the samples its clusters serve. -/
def Device.loseDie (d : Device) (die : Nat) : Device :=
  if 3 < die ∨ d.lostUnit (10 + die) then d
  else
    let d := (d.loseUnit (10 + die) 3).failAt (fun x => x.core / 256 == die) Hb.detectedFault
    let d := d.each (rangeFrom (24 * die) 24) (fun d l => d.linkTo l .down)
    d.loseFast die

/-- A slow-tier channel is lost (R254); a second one loses its Lapidary. -/
def Device.loseChannel (d : Device) (ch cause : Nat) : Device :=
  let map := d.get Obj.channelMap
  if 23 < ch ∨ bit map ch = false then d
  else
    let lap := ch / 12
    let second := bits map (12 * lap) 12 != 0xFFF
    let d := (d.put Obj.channelMap (clearBit map ch)).raise 0x0905 [a2 ch, a1 cause]
    let d := d.onMs (fun m => { m with dir := m.dir.map (fun p =>
      (p.1, if p.2.tier = 3 + lap then { p.2 with degraded := true } else p.2)) })
    let d := d.replaceBit 4
    if second then d.loseLapidary lap else d

/-- CHANNEL_LIVENESS_READ (R254): two attempts in a row without an answer lose the channel. -/
def Device.livenessRead (d : Device) (ch : Nat) (answered : Bool) : Device :=
  if answered then d.onMs (fun m => { m with missed := m.missed.filter (· != ch) })
  else if d.ms.missed.contains ch then
    (d.onMs (fun m => { m with missed := m.missed.filter (· != ch) })).loseChannel ch 0
  else d.onMs (fun m => { m with missed := ch :: m.missed })

def execChannelLivenessRead (channel : Nat) (answered : Bool) (s : State) :=
  onDev s (fun d => d.livenessRead channel answered)

/-- CHANNEL_UE_LIMIT (R254). -/
def execChannelUeLimit (channel : Nat) (s : State) := onDev s (fun d => d.loseChannel channel 1)

/-- PART_HEARTBEAT_MISS (R332, R335): parts 0 and 1 are the Lapidaries, 2 to 5 the compute dies. The check of a Lapidary whose
component is being loaded is suspended for 500 ms (R485). -/
def Device.heartbeatMiss (d : Device) (part : Nat) : Device :=
  if part ≤ 1 then
    (match d.sec.liveUpdate with
     | some (component, _) =>
       if component = 1 ∧ d.micros ≤ d.sec.liveSince + 500000 then d else d.loseLapidary part
     | none => d.loseLapidary part)
  else d.loseDie (part - 2)

def execPartHeartbeatMiss (part : Nat) (s : State) := onDev s (fun d => d.heartbeatMiss part)

/-- The key of a stack among the parts whose last check failed; the channels are 0 to 23. -/
def stackMiss (stack : Nat) : Nat := 24 + stack

/-- HBM_PATTERN_CHECK (R335): two misses lose the stack. -/
def Device.patternCheck (d : Device) (stack : Nat) (answered : Bool) : Device :=
  let k := stackMiss stack
  let cleared := d.onMs (fun m => { m with missed := m.missed.filter (· != k) })
  if answered then cleared
  else if d.ms.missed.contains k then cleared.loseStack stack
  else d.onMs (fun m => { m with missed := k :: m.missed })

def execHbmPatternCheck (stack : Nat) (answered : Bool) (s : State) := onDev s (fun d => d.patternCheck stack answered)

/-! ### D2D modules (R19 to R22) -/

/-- The connections: the first module, the modules, and the Lapidary or compute die lost with the last of them. -/
inductive LinkedPart where
  | nothing
  | die (n : Nat)
  | lapidary (n : Nat)
deriving DecidableEq, Repr

def d2dConnections : List (Nat × Nat × LinkedPart) :=
  (List.range 6).map (fun i => (4 * i, 4, .nothing)) ++
  (List.range 8).map (fun i => (24 + 2 * i, 2, .die (i % 4))) ++
  (List.range 4).map (fun i => (40 + i, 1, .die i)) ++
  (List.range 2).map (fun i => (44 + i, 1, .lapidary i))

/-- A connection without a module in service (R21): a detected fault; its part is lost, or, between compute dies, its
traffic goes through another die and REPLACE_REQUEST bit 6 is set. -/
def Device.connectionLost (d : Device) (c : Nat × Nat × LinkedPart) : Device :=
  match c.2.2 with
  | .nothing => d.detectedFault.replaceBit 6
  | .die n => d.detectedFault.loseDie n
  | .lapidary n => d.detectedFault.loseLapidary n

/-- A module is retired (R20). -/
def Device.retireModule (d : Device) (m : Nat) : Device :=
  let map := d.get Obj.d2dModuleMap
  if 45 < m ∨ bit map m = false then d
  else
    let d := (d.put Obj.d2dModuleMap (clearBit map m)).addTo32 Obj.d2dRetirements 1
    match d2dConnections.find? (fun c => c.1 ≤ m && m < c.1 + c.2.1) with
    | some c => if bits (d.get Obj.d2dModuleMap) c.1 c.2.1 = 0 then d.connectionLost c else d
    | none => d

/-- D2D_MODULE_RETIRE (R20). -/
def execD2dModuleRetire (moduleIx : Nat) (s : State) := onDev s (fun d => d.retireModule moduleIx)

/-! ### Clusters (R30, R331) -/

/-- The physical cluster of a logical one: its entry of PLACEMENT_MAP. -/
def Device.placement (d : Device) (l : Nat) : Nat := bits (d.get Obj.placementMap) (8 * l) 8

/-- PLACEMENT_MAP written for a logical cluster. -/
def Device.setPlacement (d : Device) (l c : Nat) : Device :=
  d.put Obj.placementMap (putBits (d.get Obj.placementMap) (8 * l) 8 c)

/-- A cluster is retired. -/
def Device.retired (d : Device) (die c : Nat) : Bool := bit (d.get (Obj.retiredClusters + die)) c

/-- A cluster is named in PLACEMENT_MAP. -/
def Device.named (d : Device) (die c : Nat) : Bool := (rangeFrom (16 * die) 16).any (fun l => d.placement l == c)

/-- A cluster has been chosen for a logical one, and the stages are not bound there yet. -/
def Device.chosen (d : Device) (die c : Nat) : Bool :=
  d.svc.substs.any (fun p => p.1 / 16 == die && p.2 == c) ||
    (match d.svc.job with
     | some j => j.command == 1 && j.cluster / 17 == die && j.target == c
     | none => false)

/-- The cluster of R331 step 2: the lowest-numbered one of a die neither retired nor placed. -/
def Device.freeCluster (d : Device) (die : Nat) : Option Nat :=
  (List.range 17).find? (fun c => !d.retired die c && !d.named die c && !d.chosen die c)

/-- A logical cluster whose entry still names a retired cluster is unplaced. -/
def Device.unplaced (d : Device) (l : Nat) : Bool := d.retired (l / 16) (d.placement l)

/-- A die without a cluster neither retired nor placed sets SPARES_EXHAUSTED. -/
def Device.checkSpares (d : Device) (die : Nat) : Device :=
  if (List.range 17).all (fun c => d.retired die c || d.named die c) then d.replaceBit 0 else d

/-- The stand-in source of the risk level: some logical cluster is held by a cluster other than its own (DEDUCED, log entry 9). -/
def Device.standInRisk (d : Device) : Device :=
  d.riskSource Src.standIn (if (List.range 64).any (fun l => d.placement l != l % 16 && !d.unplaced l) then 1 else 0)

/-- A stand-in is chosen for a logical cluster; a test that runs on it stops with BUSY (R481). -/
def Device.substitute (d : Device) (l : Nat) : Device :=
  match d.freeCluster (l / 16) with
  | none => d
  | some c =>
    let key := 17 * (l / 16) + c
    let d := d.onSvc (fun v => { v with substs := v.substs ++ [(l, c)] })
    match d.svc.job with
    | some j =>
      if j.cluster = key ∧ j.command = 2 then
        (d.onSvc (fun v => { v with job := none, clusters := tdel v.clusters key })).finishKey Obj.clusterCommand St.busy
      else d
    | none => d

/-- A cluster command ends: CLUSTER_SERVICE and the final response (R488). -/
def Device.endJob (d : Device) (key state status : Nat) : Device :=
  ((d.onSvc (fun v => { v with job := none })).raise 0x1103 [a1 (key / 17), a1 (key % 17), a1 state, a2 status]).finishKey
    Obj.clusterCommand status

/-- The target of a drain has retired before the stages are bound there: another is chosen as R331 step 2; where there is none the
drain ends with NO_SPACE, its cluster PLACED (R480; DESIGN CHOICE, log entry 117). -/
def Device.retarget (d : Device) (j : ClusterJob) : Device :=
  match d.freeCluster (j.cluster / 17) with
  | some c => d.onSvc (fun v => { v with job := some { j with target := c } })
  | none => d.endJob j.cluster 0 St.noSpace

/-- A tile operation in flight on the stages a condition takes is dropped. -/
def Device.dropOps (d : Device) (on : Stage → Bool) : Device :=
  { d with stages := d.stages.map (fun p => (p.1, if on p.2 then { p.2 with op := none } else p.2)) }

/-- A cluster retires (R331 steps 1 and 2). The sample list of the cut take runs again where step 3 follows: where a stand-in is found
for a logical cluster. -/
def Device.retireCluster (d : Device) (die c cause : Nat) : Device :=
  if 3 < die ∨ 16 < c ∨ d.retired die c then d
  else
    let key := 17 * die + c
    let rc := Obj.retiredClusters + die
    let on : Stage → Bool := fun x => x.core / 8 == 32 * die + c
    let d := (d.put rc (setBit (d.get rc) c)).raise 0x0B0A [a1 die, a1 c, a1 cause]
    let d := (d.dropOps on).failAt on Hb.detectedFault
    let orphans := ((rangeFrom (16 * die) 16).filter (fun l => d.placement l == c)) ++
      (d.svc.substs.filter (fun p => p.1 / 16 == die && p.2 == c)).map (·.1)
    let again := d.takeOpen && !orphans.isEmpty && (d.freeCluster die).isSome
    let d := (d.onRun (fun r => { r with rerun := r.rerun || again })).detectedFault.cutTake
    let d := d.onSvc (fun v => { v with
      clusters := tdel v.clusters key, substs := v.substs.filter (fun p => !(p.1 / 16 == die && p.2 == c)) })
    let d := match d.svc.job with
      | some j => if j.cluster = key ∧ j.command = 1 then d.endJob key 6 St.notReady
        else if j.cluster = key then d.endJob key 6 St.ok
        else if j.command = 1 ∧ j.cluster / 17 = die ∧ j.target = c then d.retarget j
        else d
      | none => d
    ((d.each orphans Device.substitute).checkSpares die).standInRisk

/-- CLUSTER_FAULT (R30, R331). -/
def execClusterFault (die cluster cause : Nat) (s : State) := onDev s (fun d => d.retireCluster die cluster cause)

/-! ### Gate nodes named by core (R410) -/

/-- A node number. -/
def gateNode (level die cluster core engine : Nat) : Nat :=
  fld level 0 + fld die 3 + fld cluster 5 + fld core 10 + fld engine 13

/-- The nodes above and at a core. -/
def corePath (die cluster core : Nat) : List Nat :=
  [0, gateNode 1 die 0 0 0, gateNode 2 die cluster 0 0, gateNode 3 die cluster core 0]

/-- A node on the path is HELD (R412). -/
def Device.heldOn (d : Device) (path : List Nat) : Bool := path.any (fun n => d.pwr.heldNodes.contains n)

/-- A compute die stands still: the rail that feeds its cores or its memory has met a regulator fault, and is not good again (R415). -/
def Device.partOff (d : Device) (die : Nat) : Bool := bit d.pwr.faulted 4 || bit d.pwr.faulted (5 + die)

/-- A Lapidary stands still: its rail has met a regulator fault, and is not good again (R415). -/
def Device.lapidaryOff (d : Device) (lap : Nat) : Bool := bit d.pwr.faulted (2 + lap)

/-- A core runs no more: its die is lost (R332), or its cluster is retired and no stand-in has been chosen for it (R331). -/
def Device.deadCore (d : Device) (core : Nat) : Bool :=
  let die := core / 256
  let c := core / 8 % 32
  d.lostUnit (10 + die) || (d.retired die c && !d.svc.substs.any (fun p => p.1 / 16 == die && d.placement p.1 == c))

/-- The stages of a logical cluster move to another physical one, in the order of their positions; its store is left behind,
with the contexts in it, and the scale registers are loaded anew at the version gate (R331). -/
def Device.moveStages (d : Device) (die old new : Nat) : Device :=
  let on : Stage → Bool := fun x => x.core / 8 == 32 * die + old
  let mine := d.stages.filter (fun p => on p.2)
  let place : Stage → Nat := fun x => (mine.filter (fun q => q.2.core == x.core && q.2.pos < x.pos)).length
  let here : Nat → Bool := fun core => core / 8 == 32 * die + old
  { d with
    issue := d.issue.filter (fun p => !here p.1)
    saveArea := d.saveArea.filter (fun p => !here (p.1 / 4))
    stages := d.stages.map (fun p => (p.1, if on p.2 then
      { p.2 with core := (32 * die + new) * 8 + p.2.core % 8, pos := place p.2, transfers := [], version := none } else p.2)) }

/-- The nodes a stage needs on a core: the path to it, and the engines the stage uses (R411, R412). -/
def stagePath (die cluster core x : Nat) : List Nat :=
  corePath die cluster core ++ (Desc.engines x).map (gateNode 4 die cluster core)

/-- The stages of a logical cluster are bound on another cluster (R331 step 3, R480 step 3); refused where a new path
is HELD (R412). -/
def Device.rebindCluster (d : Device) (l new : Nat) : Option Device :=
  let die := l / 16
  let old := d.placement l
  let mine := d.stages.filter (fun p => p.2.core / 8 == 32 * die + old)
  if d.heldOn (corePath die new 0 |>.take 3) ∨ mine.any (fun p => d.heldOn (stagePath die new (p.2.core % 8) p.2.desc)) then none
  else
    let d := (d.setPlacement l new).moveStages die old new
    some (d.onSvc (fun v => { v with clusters := tdel v.clusters (17 * die + new) }))

/-- SUBSTITUTION_COMPLETE (R331 step 3). -/
def Device.substituted (d : Device) : Device :=
  match d.svc.substs with
  | [] => d
  | (l, c) :: rest =>
    let d := d.onSvc (fun v => { v with substs := rest })
    match d.rebindCluster l c with
    | none => d
    | some d =>
      ((d.addTo32 Obj.substitutions 1).raise 0x0B0B [a2 l, a1 c]).standInRisk.checkSpares (l / 16)

def execSubstitutionComplete (s : State) := onDev s Device.substituted

/-! ### What checked reads find (R253, R256, R265, R273) -/

/-- The blocks of an object that stand on a Lapidary now (R244): of its home, those no move has carried away, and those a move or
a supply has put there. -/
def Device.blocksOn (d : Device) (lap h : Nat) (e : DirEntry) : List OreBlock :=
  let here : List OreBlock → List OreBlock := fun m =>
    (m.zip (List.range m.length)).filterMap (fun x => if e.blockTier x.2 = some (3 + lap) then some x.1 else none)
  (if e.tier = 3 + lap then (if e.move.carries then here (tgetD d.ms.maps h []) else tgetD d.ms.maps h []) else []) ++
    here (d.landed lap h e)

/-- The sectors of a Lapidary an object's data lie on: its blocks there, and its block map where its home is there. -/
def Device.dataExtents (d : Device) (lap h : Nat) (e : DirEntry) : List (Nat × Nat) :=
  (if e.tier = 3 + lap then [(e.location, mapSectors e.size)] else []) ++ oreExtents (d.blocksOn lap h e)

/-- The objects of a Lapidary that lie on units `lo` to `lo + n − 1` of its data space, in ascending handle. -/
def Device.onUnits (d : Device) (lap lo n : Nat) : List Nat :=
  tkeys (d.ms.dir.filter (fun p => (d.dataExtents lap p.1 p.2).any (fun x => overlaps (8 * x.1, 8 * x.2) (lo, n))))

/-- A line is lost: every object with a block stored on it is poisoned (R253). -/
def Device.lineLost (d : Device) (lap line : Nat) : Device :=
  (d.bump Obj.linesLost).each (d.onUnits lap (11 * line) 11) (fun d h => d.poison h 1)

/-- A seam is DEGRADED: a channel of the Lapidary is out of service (R254). -/
def Device.seamDegraded (d : Device) (lap : Nat) : Bool := bits (d.get Obj.channelMap) (12 * lap) 12 != 0xFFF

/-- The stored blocks of a list that `on` takes get fresh sectors. -/
def Device.freshBlocks (d : Device) (lap : Nat) (on : Nat × Nat → Bool) : List OreBlock → List OreBlock × Device
  | [] => ([], d)
  | b :: rest =>
    let (x, d) := if on (b.sector, b.sectors) then d.sectorPlace lap b.sectors else (b.sector, d)
    let r := d.freshBlocks lap on rest
    ({ b with sector := x } :: r.1, r.2)

/-- A sector is retired: the blocks stored there, and a block map that lies there, move to fresh sectors of the tier (R253). A move of
a block counts in BYTES_MOVED (R259), and the Lapidary has a sector less (R257). -/
def Device.retireSector (d : Device) (lap sector : Nat) : Device :=
  let on : Nat × Nat → Bool := fun x => overlaps x (sector, 1)
  let d := (d.bump Obj.unitsRetired).onMs (fun m => { m with
    badSectors := m.badSectors ++ [(3 + lap, sector)]
    sectorsA := if lap = 0 then m.sectorsA - 1 else m.sectorsA
    sectorsB := if lap = 0 then m.sectorsB else m.sectorsB - 1 })
  let mine := tkeys (d.ms.dir.filter (fun p => p.2.tier == 3 + lap || p.2.lands lap))
  let d := d.each mine (fun d h => match d.entry h with
    | none => d
    | some e =>
      let d := if e.tier = 3 + lap ∧ on (e.location, mapSectors e.size) then
          let (at_, d) := d.sectorPlace lap (mapSectors e.size)
          d.modEntry h (fun e => { e with location := at_ })
        else d
      let d := if e.move ≠ .settled ∧ e.moveTier = 3 + lap ∧ on (e.target, mapSectors e.size) then
          let (at_, d) := d.sectorPlace lap (mapSectors e.size)
          d.modEntry h (fun e => { e with target := at_ })
        else d
      let stored := if e.tier = 3 + lap then tgetD d.ms.maps h [] else []
      let landing := d.landed lap h e
      let moved := ((oreExtents (stored ++ landing)).filter on).length
      if moved = 0 then d
      else
        let (s, d) := d.freshBlocks lap on stored
        let (l, d) := d.freshBlocks lap on landing
        let d := d.onMs (fun m => { m with
          maps := if e.tier = 3 + lap then tset m.maps h s else m.maps
          forming := if e.lands lap then tset m.forming h l else m.forming })
        d.addTo Obj.bytesMoved (moved * blockBytes))
  d.checkLowWater lap 0

/-- A unit is rebuilt from its line; the second time within one scrub interval its sector is retired (R253). -/
def Device.unitRebuilt (d : Device) (lap unit : Nat) : Device :=
  let key := lap * 2 ^ 40 + unit
  let d := d.bump Obj.seamRebuilds
  let again : Bool := match tget d.ms.rebuilt key with
    | some t => d.micros - t ≤ d.get Obj.scrubIntervalH * 3600000000
    | none => false
  if again then (d.onMs (fun m => { m with rebuilt := tdel m.rebuilt key })).retireSector lap (unitSector unit)
  else d.onMs (fun m => { m with rebuilt := tset m.rebuilt key d.micros })

/-- One finding of a checked read: a corrected error counts; a unit alone on a whole line is rebuilt; bad data, and a stored block
whose CRC does not match (R255), poison their object; a bad cluster is retired (R30), and a bad word of the hub is a detected fault. -/
def Device.finding (d : Device) : ScrubFinding → Device
  | .fastUnit h => d.poison h 0
  | .slowUnits lap units unit =>
    if units = 0 then d
    else if 2 ≤ units ∨ d.seamDegraded lap then d.lineLost lap (unitLine unit)
    else d.unitRebuilt lap unit
  | .parityUnit lap line => if d.seamDegraded lap then d.lineLost lap line else d.bump Obj.seamRebuilds
  | .crc h block =>
    if ((tgetD d.ms.maps h [])[block]?).isSome then d.detectedFault.poison h 2 else d
  | .clusterSram die cluster cause => d.retireCluster die cluster cause
  | .hubSram => d.detectedFault
  | .correctedFast n => (d.addTo Obj.correctedFast n).countCorrected n
  | .correctedSlow n => (d.addTo Obj.correctedSlow n).countCorrected n
  | .correctedSram n => d.countCorrected n

/-- The findings of a command, in their order. -/
def Device.findings (d : Device) (found : List ScrubFinding) : Device := d.each found Device.finding

/-- MOVE_SETTLE (R259): the move's own checked reads come first; poison they find stops it (R262, R273). -/
def execMoveSettle (x : CheckedRead) (s : State) := onDev s (fun d => (d.findings x.found).moveSettle x.subject)

/-! ### Scrubbing (R273) -/

/-- A pass ends: it has written and verified every location that waited for it (R271). -/
def Device.scrubbed (d : Device) (seconds : Nat) (found : List ScrubFinding) : Device :=
  let d := d.findings found
  let d := (d.bump Obj.scrubPasses).put Obj.scrubLastPassS (seconds % 2 ^ 32)
  let d := (d.onMs (fun m => { m with quarantine := [] })).spaceFreed
  d.serveWanting d.ms.wanting

/-- SCRUB_OVERDUE (R273): the pass in progress is the one after those completed. -/
def execScrubOverdue (seconds : Nat) (s : State) :=
  onDev s (fun d => d.raise 0x0907 [a8 (d.get Obj.scrubPasses), a4 seconds])

end Sys2Proof.Machine
end

