-- ==== Sys2Proof/Machine/Host.lean ====
section
/-!
DEFINITION. The host interface (chapter 13): the event queues' registers, the DMA queues and their descriptors, the BAR2
window, the supply of objects (R271), what happens to a port, and the counts of the rings.
-/
namespace Sys2Proof.Machine

/-! ### Identity (R372) -/

/-- The two identity words of both functions' configuration headers: Vendor ID 0x1F7A and Device ID 0x0096; Revision ID, which is bits
[7:0] of STEPPING, and class code 0x12_0000, a processing accelerator. -/
def Device.pciIdWord (_ : Device) : Nat := fld 0x1F7A 0 + fld 0x0096 16
def Device.pciClassWord (d : Device) : Nat := fld (d.sec.fuses.stepping % 256) 0 + fld 0x120000 8

/-! ### Event queues -/

/-- EVQ_CONFIG written (R392). -/
def evqConfigEffect (q : Nat) : Effect := fun d rq v =>
  let (st, e) := evqConfigWrite d (portOf rq) q v
  match e with
  | some e => (st, { d with evqs := tset d.evqs q e })
  | none => (st, d)

/-- EVQ_CONFIG (R392). -/
def execEvqConfig (rq : Req) (queue value : Nat) (s : State) :=
  onReq s rq (fun d => d.command rq (Obj.evqConfig + queue) value (evqConfigEffect queue))

/-- The number of local queue `j` of a port, where there is such a queue (R384). -/
def localQueue (p j : Nat) : Option Nat := if p ≤ 1 ∧ j < 128 then some (128 * p + j) else none

/-- A read of ITEM that pops (R394): the latch's bytes; a disabled queue reads as all 0. -/
def Device.popItem (d : Device) (p j : Nat) : Device :=
  match localQueue p j with
  | none => d
  | some q =>
    let d := if (d.evq q).enable then d.evqSee q else d
    let e := d.evq q
    let e' := evqPop e
    ({ d with evqs := tset d.evqs q e' }).emit (.readData p (leBytes 32 (if e.enable then e'.latch else 0)))

/-- EVQ_POP (R393, R394). -/
def execEvqPop (port queue : Nat) (s : State) := onDev s (fun d => d.popItem port queue)

/-- A write of an enabled queue's window CONTROL changes it; a disabled queue ignores the write (R394). -/
def Device.evqControl (d : Device) (p j : Nat) (f : Device → Nat → Device) : Device :=
  match localQueue p j with
  | none => d
  | some q => if (d.evq q).enable then f d q else d

/-- Arming a queue (R395): its vector is sent at once where items wait. -/
def Device.evqArm (d : Device) (p j : Nat) : Device :=
  d.evqControl p j (fun d q => ({ d with evqs := tset d.evqs q { d.evq q with armed := true } }).evqSee q)

/-- EVQ_ARM (R395). -/
def execEvqArm (port queue : Nat) (s : State) := onDev s (fun d => d.evqArm port queue)

/-- UNDERRUN cleared (R394). -/
def Device.evqClearUnderrun (d : Device) (p j : Nat) : Device :=
  d.evqControl p j (fun d q => { d with evqs := tset d.evqs q { d.evq q with underrun := false } })

/-- EVQ_CLEAR_UNDERRUN (R394). -/
def execEvqClearUnderrun (port queue : Nat) (s : State) := onDev s (fun d => d.evqClearUnderrun port queue)

/-! ### What a port may write (R384) -/

/-- The port that alone may write a ring in use; none where no rule limits it. The second part is false where no port
may. -/
def Device.ringWriter (d : Device) (h : Nat) : Option (Option Nat) :=
  match d.streams.find? (fun p => bits p.2.desc 128 32 == h || bits p.2.desc 160 32 == h) with
  | some p => some (d.grantPort p.1)
  | none =>
    if d.armed && d.run.rings.contains h then
      (let t := d.get Obj.conductorToken; some (if t ≤ 1 then some t else none))
    else none

/-- R384 denies a ring to a port. -/
def Device.ringDenied (d : Device) (p h : Nat) : Bool :=
  match d.ringWriter h with
  | some w => w != some p
  | none => false

/-- The integrity of a run, of a held version or of a bound stage depends on an object: no port may write it (R384). -/
def Device.guardedObject (d : Device) (h : Nat) : Bool :=
  (d.armed && d.run.guarded.contains h) || (tget d.stages h).isSome ||
    d.versions.any (fun l => l.2.any (fun v => v.objs.contains h))

/-! ### The supply of an object (R271) -/

/-- A write to this object supplies it. -/
def DirEntry.needsSupply (e : DirEntry) : Bool := e.tier == 1 || e.poisoned || e.lost || e.move == .resupply

/-- A write to an object a run's integrity depends on that the guard lets pass: R269 gives kinds 5 and up a re-supply by the host, and
kinds 1 to 4 none. -/
def DirEntry.guardYields (e : DirEntry) : Bool := e.needsSupply && 5 ≤ e.kind

/-- The tier a supply fills: FAST for an ABSENT object, else the object's own. -/
def DirEntry.supplyTier (e : DirEntry) : Nat := if e.tier = 1 then 2 else e.tier

/-- A supply begins in a fresh location; none where there is no room, and then evictions have begun. -/
def Device.beginSupply (d : Device) (h supplier : Nat) (e : DirEntry) : Option Device × Device :=
  let start : Device → Nat → Device := fun d loc => (d.invalidate h).modEntry h (fun x => { x with
    move := .resupply, moveTier := e.supplyTier, target := loc, moveDone := 0, supplier := supplier, units := [] })
  let start : Device → Nat → Device := fun d loc => (start d loc).onMs (fun m => { m with forming := tdel m.forming h })
  if e.supplyTier = 2 then
    let order := d.dieOrder e.hintDie none
    match d.place e.size order with
    | some (loc, d) => (some (start d loc), d)
    | none => (none, d.makeRoom e.size order)
  else
    let lap := e.tier - 3
    if d.slowTakes lap (d.freshSectors e) then
      let (at_, d) := d.sectorPlace lap (mapSectors e.size)
      (some ((start d at_).checkLowWater lap (d.freshSectors e)), d)
    else (none, d)

/-- The last block of a supply has landed: the object is whole again, its poisoned location waits for scrub,
OBJECT_RESUPPLIED is raised and its waiters become ready. -/
def Device.endSupply (d : Device) (h : Nat) : Device :=
  match d.entry h with
  | none => d
  | some e =>
    let old := if e.tier = 2 then [(2, e.location, e.size)]
      else if 3 ≤ e.tier then (d.storedExtents h e).map (fun x => (e.tier, x)) else []
    let d := d.onMs (fun m => { m with quarantine := m.quarantine ++ old })
    let d := if 3 ≤ e.moveTier then d.takeLanded h else d.dropMap h
    let d := d.modEntry h (fun x => { x with
      tier := e.moveTier, location := e.target, target := 0, move := .settled, moveTier := 0, moveDone := 0, poisoned := false,
      lost := false, units := [], supplier := 2, version := (e.version + 1) % 2 ^ 32 })
    let d := (d.restored h).raise 0x0908 [a4 h, a4 ((e.version + 1) % 2 ^ 32)]
    (d.wake h).serveWanting d.ms.wanting

/-- Whole blocks of a supply have landed. -/
def Device.supplyTo (d : Device) (h blocks : Nat) : Device :=
  match d.entry h with
  | none => d
  | some e =>
    let d := d.onlyIf (decide (3 ≤ e.moveTier)) (fun d => d.each (rangeFrom e.moveDone (blocks - e.moveDone)) (fun d b =>
      d.landBlock (e.moveTier - 3) h b))
    if e.size ≤ blocks then d.endSupply h else d.modEntry h (fun x => { x with moveDone := blocks, units := [] })

/-! ### Rings (R385, R386) -/

/-- A field of a ring's 64-byte header (R385). -/
def Device.ringField (d : Device) (h lo n : Nat) : Nat := bits (d.readNat h 0 64) lo n
def Device.ringProducer (d : Device) (h : Nat) : Nat := d.ringField h 128 64
def Device.ringConsumer (d : Device) (h : Nat) : Nat := d.ringField h 192 64
def Device.ringKind (d : Device) (h : Nat) : Nat := d.ringField h 32 4
/-- N of R385. -/
def Device.ringEntries (d : Device) (h : Nat) : Nat := 2 ^ d.ringField h 40 5

/-- The bytes a ring of a kind takes (R385, R465: a BATCH entry is 256 B). -/
def ringBytes (kind n slot : Nat) : Nat :=
  match kind with
  | 0 => 64 + 64 * n
  | 1 => 64 + 64 * n
  | 2 => 64 + 256 * n + slot * n
  | _ => 64 + 256 * n

/-- RING_ERROR (R386, R399). -/
def Device.ringError (d : Device) (h count : Nat) : Device := d.raise 0x0D04 [a4 h, a8 count]

/-- A count of a ring that the host may set: one that moves neither backward nor past the other (R386). -/
def Device.countFits (d : Device) (h count : Nat) : Bool :=
  if d.ringKind h ≤ 1 then !(count < d.ringProducer h || d.ringConsumer h + d.ringEntries h < count)
  else !(count < d.ringConsumer h || d.ringProducer h < count)

/-- The bytes a port writes from a byte of an object are a count of a ring: PRODUCER of an input ring, CONSUMER of an output or BATCH
ring, as one aligned 8-byte write (R385, R386). -/
def Device.isCount (d : Device) (h off n : Nat) : Bool :=
  n == 8 && ((d.entry h).map (·.kind)) == some 0 && d.ringField h 0 32 == 0x474E5251 &&
    ((off == 16 && d.ringKind h ≤ 1) || (off == 24 && (d.ringKind h == 2 || d.ringKind h == 3)))

/-- A port's bytes land in an object; a count is checked first (R386), and frees what a replay has refused (R388). -/
def Device.hostLand (d : Device) (h off : Nat) (bs : Bytes) : Device :=
  if d.isCount h off bs.length then
    let d := d.onlyIf (off == 16) (·.onRun (fun r => { r with take := r.take.map (fun t => { t with held := [] }) }))
    if d.countFits h (leNat bs) then d.writeBytes h off bs else d.ringError h (leNat bs)
  else d.writeBytes h off bs

/-! ### DMA queues (R379) -/

/-- A DMA queue, at reset where it was never written. -/
def Device.dmaq (d : Device) (p n : Nat) : DmaQueue := tgetD (d.port p).queues n { vector := 64 + n }

/-- A DMA queue changed. -/
def Device.onDmaq (d : Device) (p n : Nat) (f : DmaQueue → DmaQueue) : Device :=
  d.onPort p (fun x => { x with queues := tset x.queues n (f (tgetD x.queues n { vector := 64 + n })) })

/-- A port and queue number that exist. -/
def dmaExists (p n : Nat) : Bool := p ≤ 1 && n < 64

/-- A CONTROL value R379 accepts. -/
def dmaControlOk (v : Nat) : Bool :=
  bits v 6 10 == 0 && bits v 27 5 == 0 && v < 2 ^ 32 && 4 ≤ bits v 1 5 && bits v 1 5 ≤ 16 && 8 ≤ bits v 16 11

/-- A write of CONTROL (R379): ENABLE starts a queue that does not run; a running one takes VECTOR alone, and clearing
ENABLE drops what it has not started. A queue a reset of its port stopped stays STOPPED until ENABLE is set. -/
def dmaControl (v : Nat) (q : DmaQueue) : DmaQueue :=
  if !dmaControlOk v then q
  else
    let q := { q with vector := bits v 16 11 }
    match q.state with
    | .running =>
      if bit v 0 then q
      else if q.taken = [] then { q with state := .disabled, posted := [], draining := false }
      else { q with posted := [], draining := true }
    | _ =>
      let q := { q with sizeLog2 := bits v 1 5 }
      if bit v 0 then
        { q with state := .running, stopCause := 0, sqTail := 0, sqHead := 0, cqHead := 0, cqTail := 0, cqUsed := 0,
                 phase := true, posted := [], taken := [], draining := false }
      else if q.state = .stopped ∧ q.stopCause = 3 then q
      else { q with state := .disabled, stopCause := 0 }

/-- A CONTROL write of a queue that exists. -/
def Device.dmaControlWrite (d : Device) (p n v : Nat) : Device :=
  if dmaExists p n then d.onDmaq p n (dmaControl v) else d

/-- DMA_QUEUE_ENABLE (R379): a CONTROL write with ENABLE set. -/
def execDmaQueueEnable (port queue control : Nat) (s : State) :=
  onDev s (fun d => d.dmaControlWrite port queue (setBit control 0))

/-- DMA_QUEUE_DISABLE (R379): a CONTROL write with ENABLE clear. -/
def execDmaQueueDisable (port queue control : Nat) (s : State) :=
  onDev s (fun d => d.dmaControlWrite port queue (clearBit control 0))

/-- A running queue stops with a cause: its descriptors are abandoned where they stand, and DMA_QUEUE_STOPPED is raised
(R373, R379). -/
def Device.dmaStop (d : Device) (p n cause : Nat) : Device :=
  if (d.dmaq p n).state = .running then
    let d := d.onDmaq p n (fun q => { q with state := .stopped, stopCause := cause, posted := [], taken := [], draining := false })
    let d := d.onMs (fun m => { m with waiters := m.waiters.filter (fun w => w.2 != .dma p n) })
    d.raise 0x0D02 [a2 p, a1 n, a1 cause]
  else d

/-- The doorbell of a queue (R379): `ds` are the ring's entries from the old tail on, as host memory answers; where it
does not answer for all of them the queue stops with STOP_CAUSE 1. -/
def Device.sqTailWrite (d : Device) (p n tail : Nat) (ds : List Nat) : Device :=
  let q := d.dmaq p n
  if !dmaExists p n || q.state != .running || q.draining || 2 ^ q.sizeLog2 ≤ tail then d
  else
    let k := (tail + 2 ^ q.sizeLog2 - q.sqTail) % 2 ^ q.sizeLog2
    if ds.length < k then d.dmaStop p n 1
    else d.onDmaq p n (fun q => { q with sqTail := tail, posted := q.posted ++ ds.take k })

/-- SQ_TAIL (R379). -/
def execSqTail (port queue tail : Nat) (descriptors : List Nat) (s : State) :=
  onDev s (fun d => d.sqTailWrite port queue tail descriptors)

/-- The host consumes completions (R383). -/
def Device.cqHeadWrite (d : Device) (p n head : Nat) : Device :=
  let q := d.dmaq p n
  if !dmaExists p n || q.state != .running || 2 ^ q.sizeLog2 ≤ head then d
  else d.onDmaq p n (fun q => { q with
    cqHead := head, cqUsed := q.cqUsed - (head + 2 ^ q.sizeLog2 - q.cqHead) % 2 ^ q.sizeLog2 })

/-- CQ_HEAD (R379, R383). -/
def execCqHead (port queue head : Nat) (s : State) := onDev s (fun d => d.cqHeadWrite port queue head)

/-! ### Descriptors (R380 to R383) -/

/-- The fields of a descriptor (R380). -/
def descOp (x : Nat) : Nat := bits x 0 4
def descFence (x : Nat) : Bool := bit x 4
def descHandle (x : Nat) : Nat := bits x 32 32
def descOffset (x : Nat) : Nat := bits x 64 64
def descAddress (x : Nat) : Nat := bits x 128 64
def descLength (x : Nat) : Nat := bits x 192 32

/-- A descriptor with a reserved OP or a reserved bit. -/
def descReserved (x : Nat) : Bool := 3 < descOp x || bits x 6 10 != 0 || bits x 224 32 != 0

/-- A queue takes its next descriptor (R383): it runs, fewer than 16 are in progress, the completion ring has credit, and
a FENCE waits for every earlier one. -/
def DmaQueue.mayTake (q : DmaQueue) : Bool :=
  q.state == .running && !q.draining && q.taken.length < 16 && q.cqUsed + q.taken.length < 2 ^ q.sizeLog2 &&
    (match q.posted with
     | [] => false
     | x :: _ => !descFence x || q.taken.isEmpty)

/-- The status a descriptor ends with when it starts, by R382; none where it carries. A NOP ignores LENGTH (R380), and with it where its
bytes would end, but not its handle. -/
def Device.descCheck (d : Device) (p x : Nat) : Option Nat :=
  if descReserved x then some St.range
  else match d.entry (descHandle x) with
    | none => some St.range
    | some e =>
      if descOp x = 0 then some St.ok else
      let write := descOp x != 2
      let expect := if e.move = .resupply then e.moveDone else 0
      if descLength x = 0 ∨ e.size * blockBytes < descOffset x + descLength x then some St.range
      else if write && e.needsSupply && (descOffset x != expect * blockBytes || descLength x % blockBytes != 0) then
        some St.range
      else if write && (e.hostRo || d.ringDenied p (descHandle x)) then some St.role
      else if write && (d.guardedObject (descHandle x) && !e.guardYields || (e.move == .resupply && e.supplier != p)) then
        some St.busy
      else if !write && e.lost then some St.objectLost
      else none

/-- The head of the ring is taken. -/
def Device.takeHead (d : Device) (p n : Nat) : Device :=
  match (d.dmaq p n).posted with
  | [] => d
  | x :: rest =>
    let st := d.descCheck p x
    let supply := match d.entry (descHandle x) with
      | some e => st == none && descOp x != 2 && e.needsSupply
      | none => false
    d.onDmaq p n (fun q => { q with
      posted := rest, taken := q.taken ++ [{ index := q.sqHead, desc := x, status := st, supply := supply }],
      sqHead := (q.sqHead + 1) % 2 ^ q.sizeLog2 })

/-- A descriptor whose OP is reserved has no command of its own: it is taken as soon as the queue may take it. -/
def Device.takeReserved (d : Device) (p n : Nat) : Nat → Device
  | 0 => d
  | k + 1 =>
    let q := d.dmaq p n
    match q.posted with
    | x :: _ => if 3 < descOp x && q.mayTake then (d.takeHead p n).takeReserved p n k else d
    | [] => d

/-- The descriptor taken `i`-th of those in progress changed. -/
def Device.onTaken (d : Device) (p n i : Nat) (f : Taken → Taken) : Device :=
  d.onDmaq p n (fun q => { q with taken := lmod q.taken i f })

/-- The bytes a write lands of those that host memory gave: all that are left, or whole granules of 4 KiB (R383). -/
def carried (start left given : Nat) : Nat :=
  if left ≤ given then left else (start + given) / 4096 * 4096 - start

/-- A write descriptor carries bytes into its object (R383): a supply lands whole blocks (R271), with its first write
waiting for room; an object that moves holds it. -/
def Device.carryIn (d : Device) (p n i : Nat) (t : Taken) (given : Bytes) : Device :=
  let h := descHandle t.desc
  match d.entry h with
  | none => d.onTaken p n i (fun t => { t with status := some St.range })
  | some e =>
    let off := descOffset t.desc + t.bytes
    let left := descLength t.desc - t.bytes
    let land : Device → Nat → Device := fun d m =>
      ((d.hostLand h off (given.take m)).onPort p (fun x => { x with bytesIn := (x.bytesIn + m) % 2 ^ 64 })).onTaken p n i
        (fun t => { t with bytes := t.bytes + m, status := if m = left then some St.ok else none })
    if !d.answers (if t.supply then e.supplyTier else e.tier) then d
    else if t.supply then
      let blocks := min left given.length / blockBytes
      let go : Device → Device := fun d =>
        if blocks = 0 then d else (land d (blocks * blockBytes)).supplyTo h (off / blockBytes + blocks)
      if e.move = .resupply then go d
      else if e.move ≠ .settled then d
      else match d.beginSupply h p e with
        | (some d, _) => go d
        | (none, d) => d.waitOn h (.dma p n)
    else if e.move ≠ .settled then d
    else if e.needsSupply then d.waitOn h (.dma p n)
    else
      let m := carried off left given.length
      let d := (land d m).restored h
      if m = left then d.bumpVersion h else d

/-- The bytes from a place on that are left of its granule of 4 KiB (R266, R383). -/
def granule (off left : Nat) : Nat := min left (4096 - off % 4096)

/-- A read descriptor carries a granule of its object's bytes to the host (R383): a MOVING object holds it there, and a POISONED or
ABSENT one makes it a waiter under R270. -/
def Device.carryOut (d : Device) (p n i : Nat) (t : Taken) : Device :=
  let h := descHandle t.desc
  match d.entry h with
  | none => d.onTaken p n i (fun t => { t with status := some St.range })
  | some e =>
    let left := descLength t.desc - t.bytes
    if e.lost then d.onTaken p n i (fun t => { t with status := some St.objectLost })
    else if e.poisoned ∨ e.tier = 1 then d.waitOn h (.dma p n)
    else if e.move ≠ .settled ∨ !d.answers e.tier then d
    else
      let m := granule (descOffset t.desc + t.bytes) left
      let bs := d.readBytes h (descOffset t.desc + t.bytes) m
      ((d.emit (.hostWrite p (descAddress t.desc + t.bytes) true bs)).onPort p
        (fun x => { x with bytesOut := (x.bytesOut + m) % 2 ^ 64 })).onTaken p n i
        (fun t => { t with bytes := t.bytes + m, status := if m = left then some St.ok else none })

/-- The place among those in progress of the first descriptor of an OP that still carries. -/
def DmaQueue.carrying (q : DmaQueue) (op : Nat) : Option Nat :=
  q.taken.findIdx? (fun t => t.status == none && descOp t.desc == op)

/-- The work of one descriptor row (R383): the next descriptor of that OP is taken where the queue may take it, and the
oldest of that OP in progress goes on. -/
def Device.descriptorRow (d : Device) (p n op : Nat) (carry : Device → Nat → Taken → Device) : Device :=
  if !dmaExists p n then d
  else
    let d := d.takeReserved p n 16
    let q := d.dmaq p n
    let headIs := match q.posted with
      | x :: _ => descOp x == op
      | [] => false
    let d := if headIs && q.mayTake then d.takeHead p n else d
    match (d.dmaq p n).carrying op with
    | none => d
    | some i => match (d.dmaq p n).taken[i]? with
      | some t => carry d i t
      | none => d

/-- NOP (R380): it ends with OK and carries nothing. -/
def execNop (port queue : Nat) (s : State) := onDev s (fun d => d.descriptorRow port queue 0 (fun d _ _ => d))

/-- TO_OBJECT (R383): `hostBytes` are the bytes host memory has given from where the descriptor stands. -/
def execToObject (port queue : Nat) (hostBytes : Bytes) (s : State) :=
  onDev s (fun d => d.descriptorRow port queue 1 (fun d i t => d.carryIn port queue i t hostBytes))

/-- A ZERO descriptor writes a granule of zero bytes; a supply lands whole blocks (R271). -/
def Device.carryZero (d : Device) (p n i : Nat) (t : Taken) : Device :=
  let left := descLength t.desc - t.bytes
  d.carryIn p n i t (List.replicate (if t.supply then left else granule (descOffset t.desc + t.bytes) left) 0)

/-- A descriptor that needs no more from the host goes on by itself (R383): one granule of the next queue of a port, round robin. -/
def Device.dmaTurn (d : Device) (p : Nat) : Device :=
  let alone : Taken → Bool := fun t => t.status.isNone && (descOp t.desc == 2 || descOp t.desc == 3)
  match ((List.range 64).map (fun k => ((d.port p).turn + k) % 64)).find? (fun n => (d.dmaq p n).taken.any alone) with
  | none => d
  | some n =>
    let d := d.onPort p (fun x => { x with turn := (n + 1) % 64 })
    let ts := (d.dmaq p n).taken
    match ts.findIdx? alone, ts.find? alone with
    | some i, some t => if descOp t.desc = 2 then d.carryOut p n i t else d.carryZero p n i t
    | _, _ => d

/-- TO_HOST (R383): a granule; while no command waits the descriptor goes on by itself. -/
def execToHost (port queue : Nat) (s : State) :=
  onDev s (fun d => d.descriptorRow port queue 2 (fun d i t => d.carryOut port queue i t))

/-- ZERO (R380): zero bytes written into the object. -/
def execZero (port queue : Nat) (s : State) :=
  onDev s (fun d => d.descriptorRow port queue 3 (fun d i t => d.carryZero port queue i t))

/-- A completion record (R381). -/
def completion (t : Taken) (status : Nat) (phase : Bool) : Nat :=
  fld (bits t.desc 16 16) 0 + fld status 16 + fld phase.toNat 32 + fld t.index 64 + fld t.bytes 96

/-- The oldest descriptor in progress ends (R382, R383): its completion is written in ring order, the vector signalled
where INTERRUPT is set; a queue being disabled is DISABLED after its last. -/
def Device.descriptorComplete (d : Device) (p n : Nat) : Device :=
  if !dmaExists p n then d
  else
    let d := d.takeReserved p n 16
    let q := d.dmaq p n
    match q.taken with
    | [] => d
    | t :: rest =>
      match t.status with
      | none => d
      | some st =>
        let d := d.emit (.hostWrite p (q.cqBase + 16 * q.cqTail) false (leBytes 16 (completion t st q.phase)))
        let last := q.cqTail + 1 == 2 ^ q.sizeLog2
        let d := d.onDmaq p n (fun q => { q with
          taken := rest, cqTail := (q.cqTail + 1) % 2 ^ q.sizeLog2, cqUsed := q.cqUsed + 1,
          phase := if last then !q.phase else q.phase,
          state := if q.draining && rest.isEmpty then .disabled else q.state,
          draining := q.draining && !rest.isEmpty })
        if bit t.desc 5 then d.msix p q.vector else d

/-- DESCRIPTOR_COMPLETE (R382). -/
def execDescriptorComplete (port queue : Nat) (s : State) := onDev s (fun d => d.descriptorComplete port queue)

/-! ### BAR2 (R377, R378) -/

/-- The 128-bit entry of an aperture (R377). -/
def Device.aperture (d : Device) (p a : Nat) : Nat := tgetD (d.port p).apertures a noObject

/-- A BAR2 access fails: BAR2_FAILED counts, BAR2_ACCESS_FAILED is raised. The text numbers no cause, so that the value
carried is open. -/
def Device.bar2Fail (d : Device) (p a : Nat) (o : Option Out) : Device :=
  let d := d.onPort p (fun x => { x with bar2Failed := (x.bar2Failed + 1) % 2 ^ 64 })
  let (n, d) := d.draw
  let d := d.raise 0x0D01 [a2 p, a1 a, a4 (bits (d.aperture p a) 0 32), a1 (Config.unstated n % 256)]
  match o with
  | some o => d.emit o
  | none => d

/-- The first row of R378: the access reaches no byte of an object. An access lies within its aperture, BAR2 size / 64 long. -/
def Device.bar2Bad (d : Device) (p a off len : Nat) (write : Bool) : Bool :=
  let x := d.aperture p a
  1 < p || 63 < a || len == 0 || 2 ^ ((d.port p).bar2Log2 - 6) < off + len || bits x 33 31 != 0 || (write && !bit x 32) ||
    (match d.entry (bits x 0 32) with
     | none => true
     | some e => e.size * blockBytes < bits x 64 64 + off + len)

/-- An access is held at its port (R378, R416). -/
def Device.bar2Keep (d : Device) (p : Nat) (x : HeldAccess) : Device :=
  d.onPort p (fun y => { y with heldAccess := y.heldAccess ++ [x] })

/-- A held access waits for its object to settle (R378). -/
def Device.bar2Hold (d : Device) (p : Nat) (x : HeldAccess) : Device := (d.bar2Keep p x).waitOn x.handle (.bar2 p)

/-- A read of an object's bytes from `at_` through aperture `a` (R378). A LOST object fails it at once (R270); the row of RESUPPLY
stands before it, so that a supply in progress makes the read wait, LOST or not. -/
def Device.bar2ReadAt (d : Device) (p a h at_ len : Nat) : Device :=
  match d.entry h with
  | none => d.bar2Fail p a (some (.unsupported p))
  | some e =>
    if e.lost && e.move != .resupply then d.bar2Fail p a (some (.completerAbort p))
    else if e.move ≠ .settled ∨ e.poisoned ∨ e.tier = 1 then d.bar2Hold p ⟨a, h, at_, len, none⟩
    else if !d.answers e.tier then d.bar2Keep p ⟨a, h, at_, len, none⟩
    else d.emit (.readData p (d.readBytes h at_ len))

/-- A read through BAR2 (R378). -/
def Device.bar2Read (d : Device) (p a off len : Nat) : Device :=
  let x := d.aperture p a
  if d.bar2Bad p a off len false then d.bar2Fail p a (some (.unsupported p))
  else d.bar2ReadAt p a (bits x 0 32) (bits x 64 64 + off) len

/-- BAR2_READ (R378). -/
def execBar2Read (port aperture offset length : Nat) (s : State) :=
  onDev s (fun d => d.bar2Read port aperture offset length)

/-- A write of a supply through BAR2 (R378): the bytes land, and the block is complete once each of its 64-byte units has
been written. -/
def Device.bar2Supply (d : Device) (h at_ : Nat) (bs : Bytes) : Device :=
  let block := at_ / blockBytes
  let units := (List.range 1024).filter (fun u =>
    at_ % blockBytes ≤ 64 * u && 64 * u + 64 ≤ at_ % blockBytes + bs.length)
  let d := (d.writeBytes h at_ bs).modEntry h (fun e => { e with units := e.units ++ units.filter (fun u => !e.units.contains u) })
  match d.entry h with
  | none => d
  | some e => if e.units.length = 1024 then d.supplyTo h (block + 1) else d

/-- A write of an object's bytes from `at_` through aperture `a` (R378). A write into block 0 of an ABSENT, POISONED or LOST object
begins its supply where there is room (R271). -/
def Device.bar2WriteAt (d : Device) (p a h at_ : Nat) (bs : Bytes) : Device :=
  match d.entry h with
  | none => d.bar2Fail p a none
  | some e =>
    let inBlock : Nat → Bool := fun b => at_ / blockBytes == b && (at_ + bs.length - 1) / blockBytes == b
    let access : HeldAccess := ⟨a, h, at_, bs.length, some bs⟩
    if e.hostRo || d.ringDenied p h || (d.guardedObject h && !e.guardYields) then d.bar2Fail p a none
    else if e.move = .resupply then
      (if !inBlock e.moveDone then d.bar2Fail p a none
       else if !d.answers e.moveTier then d.bar2Keep p access
       else d.bar2Supply h at_ bs)
    else if e.needsSupply && e.move == .settled && inBlock 0 then
      (if !d.answers e.supplyTier then d.bar2Keep p access
       else match d.beginSupply h p e with
         | (some d, _) => d.bar2Supply h at_ bs
         | (none, d) => d.bar2Hold p access)
    else if e.lost then d.bar2Fail p a none
    else if e.move ≠ .settled ∨ e.needsSupply then d.bar2Hold p access
    else if !d.answers e.tier then d.bar2Keep p access
    else (d.hostLand h at_ bs).restored h

/-- A write through BAR2 (R378). -/
def Device.bar2Write (d : Device) (p a off : Nat) (bs : Bytes) : Device :=
  let x := d.aperture p a
  if d.bar2Bad p a off bs.length true then d.bar2Fail p a none
  else d.bar2WriteAt p a (bits x 0 32) (bits x 64 64 + off) bs

/-- The BAR2 accesses of a port that waited for memory in self-refresh are handled once it answers (R416). -/
def Device.wakeHeld (d : Device) (p : Nat) : Device :=
  let held := (d.port p).heldAccess.filter (fun x => !d.ms.waiters.contains (x.handle, .bar2 p))
  let d := d.onPort p (fun y => { y with heldAccess := y.heldAccess.filter (fun x => !held.contains x) })
  d.each held (fun d x => match x.write with
    | some bs => d.bar2WriteAt p x.aperture x.handle x.offset bs
    | none => d.bar2ReadAt p x.aperture x.handle x.offset x.length)

/-- BAR2_WRITE (R378): to an object of the armed run's or a bound stage's, the access breaks no obligation, since the
window drops it. -/
def execBar2Write (port aperture offset : Nat) (value : Bytes) (s : State) :=
  onDev s (fun d => d.bar2Write port aperture offset value)

/-- A held write that begins a supply begins it once room has appeared (R271). -/
def Device.retryHeld (d : Device) (p : Nat) : Device :=
  match (d.port p).heldAccess.find? (fun a => a.write.isSome && a.offset / blockBytes == 0 &&
      ((d.entry a.handle).map (fun e => e.needsSupply && e.move == .settled && d.answers e.supplyTier)).getD false) with
  | none => d
  | some a => match d.entry a.handle, a.write with
    | some e, some bs => match d.beginSupply a.handle p e with
      | (some d, _) =>
        let d := d.onPort p (fun y => { y with heldAccess := y.heldAccess.filter (· != a) })
        let d := if (d.port p).heldAccess.any (fun y => y.handle == a.handle) then d
          else d.onMs (fun m => { m with waiters := m.waiters.filter (· != (a.handle, .bar2 p)) })
        d.bar2Supply a.handle a.offset bs
      | (none, d) => d
    | _, _ => d

/-- The oldest held access of a port has waited BAR2_WAIT_LIMIT_US (R378). -/
def Device.bar2Expire (d : Device) (p : Nat) : Device :=
  match (d.port p).heldAccess with
  | [] => d
  | x :: rest =>
    let d := d.onPort p (fun y => { y with heldAccess := rest })
    let d := if rest.any (fun y => y.handle == x.handle) then d
      else d.onMs (fun m => { m with waiters := m.waiters.filter (fun w => w != (x.handle, .bar2 p)) })
    d.bar2Fail p x.aperture (match x.write with
      | some _ => none
      | none => some (.completerAbort p))

/-- BAR2_WAIT_EXPIRY (R378). -/
def execBar2WaitExpiry (port : Nat) (s : State) := onDev s (fun d => d.bar2Expire port)

/-! ### What happens to a port (R373) -/

/-- Every DMA queue of a port stops with a cause. -/
def Device.dmaStopAll (d : Device) (p cause : Nat) : Device := d.each (List.range 64) (fun d n => d.dmaStop p n cause)

/-- PCIE_LINK raised (R399). -/
def Device.linkEvent (d : Device) (p : Nat) : Device :=
  let x := d.port p
  d.raise 0x0D06 [a2 p, a1 x.linkUp.toNat, a1 x.rate, a1 x.width]

/-- A reference of the port's PCIE domain that waits for its link-down takes effect, and its PLL qualifies again
(R405). -/
def Device.pcieRef (d : Device) (p : Nat) : Device :=
  d.onPwr (fun w => { w with domains := tmod w.domains (9 + p) (fun x => match x.next with
    | some r => { x with ref := r, next := none, pllReady := false, pass := 0, fail := 0, requal := x.running }
    | none => x) })

/-- A port's link goes down (R373). -/
def Device.linkDown (d : Device) (p : Nat) : Device :=
  if p ≤ 1 ∧ (d.port p).linkUp then
    (((d.pcieRef p).dmaStopAll p 2).onPort p (fun x => { x with linkUp := false, downSince := some d.micros })).linkEvent p
  else d

/-- PCIE_LINK_DOWN (R373). -/
def execPcieLinkDown (port : Nat) (s : State) := onDev s (fun d => d.linkDown port)

/-- A rate and width R371 supports: 64 GT/s runs in FLIT mode. -/
def linkSupported (rate width : Nat) (flit : Bool) : Bool :=
  1 ≤ rate && rate ≤ 3 && (width == 16 || width == 8 || width == 4) && (rate != 3 || flit)

/-- A port's link trains up (R373). -/
def Device.linkUp (d : Device) (p rate width : Nat) (flit : Bool) : Device :=
  if p ≤ 1 && linkSupported rate width flit then
    (d.onPort p (fun x => { x with
      linkUp := true, training := false, rate := rate, width := width, flit := flit, downSince := none })).linkEvent p
  else d

/-- PCIE_LINK_UP (R373, R375). -/
def execPcieLinkUp (port rate width : Nat) (flit : Bool) (s : State) := onDev s (fun d => d.linkUp port rate width flit)

/-- A queue after a reset of its port: STOPPED with cause 3 where it was RUNNING or STOPPED, else as at reset (R373). -/
def resetQueue (n : Nat) (q : DmaQueue) : DmaQueue :=
  if q.state = .disabled then { vector := 64 + n } else { vector := 64 + n, state := .stopped, stopCause := 3 }

/-- A port's own registers, queues and apertures return to reset; its link stays as it is. -/
def resetPort (x : Port) : Port :=
  { x with waitLimit := 10000, bar2Failed := 0, bytesIn := 0, bytesOut := 0, apertures := [], heldAccess := [],
           queues := x.queues.map (fun e => (e.1, resetQueue e.1 e.2)), spdm := .none }

/-- A hot reset or a Function Level Reset (R373): the queues stop with cause 3, the slots become FREE and lose their
responses, the registers and apertures return to reset, and each event queue restarts as at a new enable. -/
def Device.portReset (d : Device) (p : Nat) : Device :=
  let d := (d.dmaStopAll p 3).onPort p resetPort
  let d := d.onMs (fun m => { m with waiters := m.waiters.filter (fun w => w.2 != .bar2 p) })
  let d := d.onCtl (fun c => { c with
    slots := c.slots.filter (fun e => e.1 / 8 != p), posted := c.posted.filter (fun k => k / 8 != p),
    waiting := c.waiting.filter (fun w => portOf w.rq != some p) })
  { d with evqs := d.evqs.map (fun e => (e.1, if e.1 / 128 = p ∧ e.2.enable then evqFresh e.2 else e.2)) }

/-- A hot reset takes the link down first (R373). -/
def Device.hotReset (d : Device) (p : Nat) : Device :=
  if p ≤ 1 then
    let d := (d.pcieRef p).dmaStopAll p 3
    let d := (d.onPort p (fun x => { x with linkUp := false, downSince := some d.micros })).linkEvent p
    d.portReset p
  else d

/-- PCIE_HOT_RESET (R373). -/
def execPcieHotReset (port : Nat) (s : State) := onDev s (fun d => d.hotReset port)

/-- A Function Level Reset (R373): it raises PCIE_LINK as the fall of the link does, and the link stays as it is (DEDUCED, log
entry 40). -/
def Device.functionReset (d : Device) (p : Nat) : Device := if p ≤ 1 then ((d.dmaStopAll p 3).linkEvent p).portReset p else d

/-- PCIE_FLR (R373). -/
def execPcieFlr (port : Nat) (s : State) := onDev s (fun d => d.functionReset port)

/-! ### Rings (R385, R386) -/

/-- The refusals of a ring at arming, STREAM_OPEN or a BATCH_RING write (R385): RANGE for a header fault, NO_SPACE for a
small object. -/
def Device.ringCheck (d : Device) (h kind : Nat) : Nat :=
  match d.entry h with
  | none => St.range
  | some e =>
    let f := d.ringField h
    let n := f 40 5
    let slot := f 64 32
    let vec := f 96 16
    if e.kind ≠ 0 ∨ f 0 32 ≠ 0x474E5251 ∨ f 32 4 ≠ kind ∨ f 36 4 ≠ 0 ∨ n < 4 ∨ 16 < n ∨ f 45 19 ≠ 0 ∨
        (if kind = 2 then slot % 64 ≠ 0 else slot ≠ 0) ∨ vec < 8 ∨ (2047 < vec ∧ vec ≠ 0xFFFF) ∨ f 112 16 ≠ 0 ∨
        f 256 256 ≠ 0 then St.range
    else if e.size * blockBytes < ringBytes kind (2 ^ n) slot then St.noSpace
    else St.ok

/-- The ring's VECTOR signalled on a port, where the ring has one and there is a port (R385, R390). -/
def Device.ringSignal (d : Device) (h : Nat) (port : Option Nat) : Device :=
  match port with
  | some p => let v := d.ringField h 96 16; if v = 0xFFFF then d else d.msix p v
  | none => d

/-- A port may write a count of this ring now. -/
def Device.countReaches (d : Device) (p h : Nat) : Bool :=
  p ≤ 1 && !d.ringDenied p h && !d.guardedObject h && d.ringField h 0 32 == 0x474E5251 &&
    (match d.entry h with
     | some e => !e.hostRo && 2 ≤ e.tier && e.move == .settled && !e.poisoned && !e.lost
     | none => false)

/-- The host advances PRODUCER of an input ring (R386): a count that moves backward or passes CONSUMER + N is ignored and
raises RING_ERROR. Samples a replay has refused are checked again at every write (R388). -/
def Device.producerWrite (d : Device) (p h count : Nat) : Device :=
  let d := d.onRun (fun r => { r with take := r.take.map (fun t => { t with held := [] }) })
  if d.countReaches p h && d.ringKind h ≤ 1 then
    if count < d.ringProducer h ∨ d.ringConsumer h + d.ringEntries h < count ∨ 2 ^ 64 ≤ count then d.ringError h count
    else (d.writeNat h 16 8 count).restored h
  else d

/-- RING_PRODUCER (R386). -/
def execRingProducer (port handle count : Nat) (s : State) := onDev s (fun d => d.producerWrite port handle count)

/-- The host advances CONSUMER of an output or BATCH ring (R386): a count that moves backward or passes PRODUCER is
ignored and raises RING_ERROR. -/
def Device.consumerWrite (d : Device) (p h count : Nat) : Device :=
  if d.countReaches p h && (d.ringKind h == 2 || d.ringKind h == 3) then
    if count < d.ringConsumer h ∨ d.ringProducer h < count then d.ringError h count
    else (d.writeNat h 24 8 count).restored h
  else d

/-- RING_CONSUMER (R386). -/
def execRingConsumer (port handle count : Nat) (s : State) := onDev s (fun d => d.consumerWrite port handle count)

end Sys2Proof.Machine
end

