-- ==== Sys2Proof/Machine/Session.lean ====
section
/-!
DEFINITION. SERVICE sessions (R357), the conductor token (R359), STAGE_HOLD (R346), SLOT_STATE of the mailbox slots (R354)
and the heartbeats of the field network (R362, R365).
-/
namespace Sys2Proof.Machine

/-- SERVICE_SESSION's bits follow the sessions held (R368). -/
def Device.sessionBits (d : Device) : Device :=
  let held : (Nat → Bool) → Nat := fun f => (d.ctl.auth.any (fun p => f p.1 && p.2.session.isSome)).toNat
  d.put Obj.serviceSession (held (· == 0) + 2 * held (· == 1) + 4 * held (2 ^ 48 ≤ ·))

/-- SERVICE_SESSION raised: the path, the outcome (0 opened, 1 ended, 2 refused), the status (R370). -/
def Device.sessionEvent (d : Device) (p : Path) (outcome status : Nat) : Device :=
  d.raise 0x0C04 [a1 (pathByte p), a1 outcome, a2 status]

/-- A requester's session ends (R357). -/
def Device.endSession (d : Device) (p : Path) : Device :=
  let a := d.authOf p
  if a.session.isSome then ((d.setAuth p { a with session := none }).sessionBits).sessionEvent p 1 St.ok else d

/-- The path of a requester's number, to end its session. -/
def pathOf (n : Nat) : Path := if n < 2 ^ 48 then .mailbox n 0 else .field (n - 2 ^ 48)

/-- Every session ends, as at a management restart and at entry to P3 (R357). -/
def Device.endSessions (d : Device) : Device := d.each (tkeys d.ctl.auth) (fun d n => d.endSession (pathOf n))

/-- One minute in microseconds. -/
def minute : Nat := 60_000_000

/-- Order 1 of R357: three failures within 60 s, and less than 60 s since the third. -/
def authLocked (now : Nat) (failures : List Nat) : Bool :=
  match failures with
  | f3 :: _ :: f1 :: _ => f3 - f1 ≤ minute && now - f3 < minute
  | _ => false

/-- The message a service key signs (R357): the challenge, SERIAL_NUMBER and the path byte. -/
def authMessage (challenge : Bytes) (serial : Nat) (p : Path) : Bytes :=
  challenge ++ leBytes 8 serial ++ [BitVec.ofNat 8 (pathByte p)]

/-- Order 4 of R357 passes: the slot holds a key that is not revoked, and the signature verifies under it. -/
def Device.authVerifies (d : Device) (p : Path) (slot : Nat) (challenge sig : Bytes) : Bool :=
  let key := leBytes 32 (bits d.sec.fuses.serviceKeys (256 * slot) 256)
  leNat key != 0 && !bit d.sec.fuses.serviceRevoked slot &&
    edVerify key (authMessage challenge d.sec.fuses.serial p) sig

/-- The sequence of R357 on an AUTH_RESPONSE of 66 bytes: the status, and the device. -/
def Device.authCheck (d : Device) (p : Path) (value : Bytes) : Nat × Device :=
  let a := d.authOf p
  let slot := leAt value 0 2
  if authLocked d.micros a.failures then (St.busy, d)
  else match a.challenge with
    | none => (St.range, d)
    | some c =>
      let used := { a with challenge := none }
      if 7 < slot then (St.range, d.setAuth p used)
      else if d.authVerifies p slot c (value.drop 2) then
        (St.ok, (d.setAuth p { used with session := some d.micros }).sessionBits)
      else
        (St.badSignature,
          (d.setAuth p { used with failures := (d.micros :: a.failures).take 3 }).bump Obj.authFailures)

/-- AUTH_CHALLENGE: 32 fresh random bytes, in place of any unused challenge. -/
def Device.authChallenge (d : Device) (rq : Req) : Device :=
  if !d.ctl.serving then d.notServing rq Op.authChallenge 0 0
  else
    let (n, d) := (d.served rq).draw
    let c := leBytes 32 (Config.random n)
    let d := d.setAuth rq.path { d.authOf rq.path with challenge := some c }
    d.respond rq Op.authChallenge 0 0 { status := St.ok, value := c }

/-- AUTH_RESPONSE (R342, R357): the length, then the sequence of R357; a session opened or refused raises
SERVICE_SESSION. -/
def Device.authResponse (d : Device) (rq : Req) (value : Bytes) : Device :=
  if !d.ctl.serving then d.notServing rq Op.authResponse 0 0
  else
    let d := d.served rq
    if value.length ≠ 66 then d.respond rq Op.authResponse 0 0 { status := St.type }
    else
      let (st, d) := d.authCheck rq.path value
      let d := d.sessionEvent rq.path (if st = St.ok then 0 else 2) st
      d.respond rq Op.authResponse 0 0 { status := st }

/-- AUTH_END: the requester's session ends; without one it is OK and has no effect. -/
def Device.authEnd (d : Device) (rq : Req) : Device :=
  if !d.ctl.serving then d.notServing rq Op.authEnd 0 0
  else ((d.served rq).endSession rq.path).respond rq Op.authEnd 0 0 { status := St.ok }

/-- AUTH_CHALLENGE (R357 step 1). -/
def execAuthChallenge (rq : Req) (s : State) := onReq s rq (fun d => d.authChallenge rq)

/-- AUTH_RESPONSE (R357 steps 2 to 4). -/
def execAuthResponse (rq : Req) (value : Bytes) (s : State) := onReq s rq (fun d => d.authResponse rq value)

/-- AUTH_END (R357). -/
def execAuthEnd (rq : Req) (s : State) := onReq s rq (fun d => d.authEnd rq)

/-- SERVICE_IDLE_S has passed without a SERVICE request: the session ends (R357). -/
def execServiceIdleExpiry (path : Path) (s : State) := onDev s (fun d => d.endSession path)

/-! ### The conductor token -/

/-- The token changes hands: CONDUCTOR_CHANGED with the old holder, the new one and the cause (R359, R370). -/
def Device.tokenTo (d : Device) (new cause : Nat) : Device :=
  let old := d.get Obj.conductorToken
  (d.put Obj.conductorToken new).raise 0x0C02 [a1 old, a1 new, a1 cause]

/-- The table of R359. -/
def tokenEffect : Effect := fun d rq v =>
  let holder := d.get Obj.conductorToken
  match portOf rq with
  | none => (St.role, d)
  | some p =>
    if holder = 0xFF then (if v = p then (St.ok, d.tokenTo p 0) else (St.role, d))
    else if holder = p then
      (if v = p then (St.ok, d) else if v = 0xFF then (St.ok, d.tokenTo 0xFF 1) else (St.ok, d.tokenTo v 2))
    else (if v = p then (St.busy, d) else (St.role, d))

/-- A write of CONDUCTOR_TOKEN (R359). -/
def execConductorToken (rq : Req) (value : Nat) (s : State) :=
  onReq s rq (fun d => d.command rq Obj.conductorToken value tokenEffect)

/-- The holder's link has been down for CONDUCTOR_LAPSE_MS: the token lapses to none (R359). -/
def Device.conductorLapse (d : Device) : Device :=
  let holder := d.get Obj.conductorToken
  if holder ≠ 0xFF ∧ (d.port holder).linkUp = false then d.tokenTo 0xFF 3 else d

/-- CONDUCTOR_LAPSE (R359). -/
def execConductorLapse (s : State) := onDev s Device.conductorLapse

/-- A write of STAGE_HOLD (R346): it is LIVE, and the admissions read it. -/
def execStageHold (rq : Req) (value : Nat) (s : State) :=
  onReq s rq (fun d => d.command rq Obj.stageHold value (storeEffect Obj.stageHold (fun _ _ _ => St.ok)))

/-! ### Mailbox slots -/

/-- A write of SLOT_STATE: 0 to a DONE slot frees it; every other write is ignored (R354). -/
def Device.slotStateWrite (d : Device) (p s v : Nat) : Device :=
  if v = 0 ∧ (d.slot p s).state = .done then d.setSlot p s { d.slot p s with state := .free } else d

/-- SLOT_STATE_FREE (R355 step 4). -/
def execSlotStateFree (port slot value : Nat) (s : State) := onDev s (fun d => d.slotStateWrite port slot value)

/-! ### Heartbeats -/

/-- The 32-byte body of a heartbeat (R365). -/
def Device.heartbeatBody (d : Device) : Bytes :=
  leBytes 32 (fld d.ctl.nodeId 0 + fld d.runState 8 + fld (d.get Obj.riskLevel) 16 + fld (d.get Obj.powerState) 24 +
    fld (d.get Obj.replaceRequest) 32 + fld (d.get Obj.takeNumber) 64 + fld (d.get Obj.healthWord) 128 +
    fld d.ctl.hbCount 192)

/-- The heartbeat broadcast every FIELD_HEARTBEAT_MS, but while the management pair restarts (R365). -/
def Device.heartbeat (d : Device) : Device :=
  if d.ctl.serving then
    (d.sendFrame broadcast 1 d.heartbeatBody).onCtl (fun c => { c with hbCount := (c.hbCount + 1) % 2 ^ 32 })
  else d

/-- HEARTBEAT (R365). -/
def execHeartbeat (s : State) := onDev s Device.heartbeat

/-- A heartbeat received from another node (R362): one that carries the Q96's own node ID from another address raises
NODE_ID_CLASH. -/
def Device.heartbeatRx (d : Device) (src node : Nat) : Device :=
  let d := d.bump Obj.fieldFramesRx
  if node = d.ctl.nodeId ∧ src ≠ stationOf d.ctl.nodeId then d.raise 0x0C05 [a1 node, a8 src] else d

/-- FIELD_HEARTBEAT_RX (R362). -/
def execFieldHeartbeatRx (src nodeId : Nat) (s : State) := onDev s (fun d => d.heartbeatRx src nodeId)

end Sys2Proof.Machine
end

