-- ==== Sys2Proof/Machine/Power.lean ====
section
/-!
DEFINITION. Clocks, voltage and power (chapter 14): qualification and the monitors (R403 to R406), clock hold and resume
(R407 to R409), the gate tree (R410 to R412), DVFS (R413, R414), the supplies (R415), the power states and their
transitions (R416 to R422).
-/
namespace Sys2Proof.Machine

/-! ### References and domains -/

/-- The references R402 allows a domain. -/
def refAllowed (domain ref : Nat) : Bool :=
  if domain ≤ 7 then ref ≤ 1
  else if domain = 8 then ref == 2
  else if domain ≤ 10 then ref ≤ 1 || ref == domain - 6
  else if domain ≤ 12 then ref ≤ 1 || ref == 5
  else false

/-- A reference input. -/
def Device.refClock (d : Device) (r : Nat) : RefClock := tgetD d.pwr.refs r {}

/-- Its ready flag. -/
def Device.refReady (d : Device) (r : Nat) : Bool := (d.refClock r).ready

/-- The default reference of a domain (R402). -/
def refDefault (domain : Nat) : Nat :=
  if domain ≤ 7 then 0 else if domain = 8 then 2 else if domain ≤ 10 then domain - 6 else if domain = 11 then 0 else 5

/-- A clock domain. -/
def Device.domain (d : Device) (n : Nat) : Domain := tgetD d.pwr.domains n { ref := refDefault n }

/-- A domain changed. -/
def Device.onDomain (d : Device) (n : Nat) (f : Domain → Domain) : Device :=
  d.onPwr (fun w => { w with domains := tset w.domains n (f (tgetD w.domains n { ref := refDefault n })) })

/-- CLOCK_FAULT raised and counted (R424). -/
def Device.clockFault (d : Device) (ref cause : Nat) (held : Bool) (source : Nat) : Device :=
  (d.bump Obj.clockFaults).raise 0x0E01 [a1 ref, a1 cause, a1 held.toNat, a1 source]

/-- Clock hold (R407): the running domains of codes 0 to 8 stop, the outputs take their safe states, the open take
carries DETECTED_FAULT. -/
def Device.clockHold (d : Device) : Device :=
  let d := d.each (List.range 9) (fun d n => d.onDomain n (fun x =>
    if x.running then { x with running := false, held := true } else x))
  let d := d.onPwr (fun w => { w with hold := true, resuming := false, hbmSelf := true, ddrSelf := true })
  ((d.linksDown).put Obj.valveDuty 1000).detectedFault

/-- The first ready source in an order. -/
def Device.firstReady (d : Device) (rs : List Nat) : Option Nat := rs.find? d.refReady

/-- A domain that must not stop moves to another source (R406). -/
def Device.moveDomain (d : Device) (n ref cause : Nat) (order : List Nat) : Device × Bool :=
  if (d.domain n).running ∧ (d.domain n).ref = ref then
    match d.firstReady order with
    | some r => ((d.onDomain n (fun x => { x with ref := r, pllReady := false, pass := 0 })).clockFault ref cause false r, true)
    | none => ((d.onDomain n (fun x => { x with running := false })).onCtl (fun c =>
        if n = 11 then { c with serving := false } else c), false)
  else (d, false)

/-- A reference has lost its ready flag (R406, R407): MGMT and AON move, a PCIe port goes down, and a running domain
that uses it puts the device into clock hold. Where a finding moves neither, the source that CLOCK_FAULT carries is not
stated. -/
def Device.refLost (d : Device) (ref cause : Nat) : Device :=
  let (d, m1) := d.moveDomain 11 ref cause [0, 1, 5]
  let (d, m2) := if ref = 5 then d.moveDomain 12 ref cause [0, 1] else d.moveDomain 12 ref cause [5, 0, 1]
  let uses : Nat → Bool := fun n => (d.domain n).running && (d.domain n).ref == ref
  let holds := ref ≤ 2 && (List.range 11).any uses
  let pcie := if ref = 3 ∧ uses 9 then some 0 else if ref = 4 ∧ uses 10 then some 1 else none
  let d := match pcie with
    | some p => ((d.onDomain (9 + p) (fun x => { x with running := false, pllReady := false, pass := 0, lost := true })).onPort p
        (fun x => { x with training := false })).linkDown p
    | none => d
  let d := if holds then d.clockHold else d
  if holds ∨ pcie.isSome ∨ (cause ≠ 2 ∧ !m1 ∧ !m2) then
    let (n, d) := d.draw
    d.clockFault ref cause holds (Config.unstated n % 256)
  else d

/-- A ready flag changes: CLOCK_SOURCE_READY. -/
def Device.readyEvent (d : Device) (ref : Nat) (flag : Bool) : Device := d.raise 0x0E02 [a1 ref, a1 flag.toNat]

/-- One window of a reference (R403): three passes in a row make it ready, two failures in a row not ready. -/
def Device.refWindow (d : Device) (r : Nat) (present pass : Bool) : Device :=
  let x := d.refClock r
  let x' := if pass then { x with present := present, pass := x.pass + 1, fail := 0 }
    else { x with present := present, pass := 0, fail := x.fail + 1 }
  let ready := if pass then x.ready || 3 ≤ x'.pass else x.ready && x'.fail < 2
  let d := d.onPwr (fun w => { w with refs := tset w.refs r { x' with ready := ready } })
  if ready = x.ready then d
  else
    let d := d.readyEvent r ready
    if ready then d else d.refLost r 2

/-- A count lies within a tolerance of the expected one, in parts per million below and above. -/
def within (n e below above : Nat) : Bool :=
  if n < e then (e - n) * 1000000 ≤ e * below else (n - e) * 1000000 ≤ e * above

/-- The frequencies of R413 in hertz, L0 first. -/
def levelHz : List Nat := [400_000_000, 800_000_000, 1_200_000_000, 1_600_000_000, 1_900_000_000, 2_100_000_000, 2_300_000_000, 2_500_000_000]

/-- The nominal frequency of a reference in hertz (R401). -/
def refHz : Nat → Nat
  | 0 => 25_000_000
  | 1 => 25_000_000
  | 2 => 156_250_000
  | 5 => 50_000_000
  | _ => 100_000_000

/-- The nominal frequency of a domain in hertz (R402); of ARITH, that of the level in effect. -/
def Device.domainHz (d : Device) (n : Nat) : Nat :=
  if n ≤ 3 then levelHz.getD (d.get (Obj.dvfsLevelCd + n)) 0
  else [2_000_000_000, 1_600_000_000, 1_800_000_000, 1_100_000_000, 1_660_156_250, 1_000_000_000, 1_000_000_000, 1_000_000_000,
    50_000_000].getD (n - 4) 0

/-- A PLL output passes a window: its count over 65,536 cycles of its reference lies within 300 ppm of the expected one (R403). -/
def Device.pllPasses (d : Device) (n ref count : Nat) : Bool := within (count * refHz ref) (65536 * d.domainHz n) 300 300

/-- One window of a PLL: three passes in a row make it ready, two failures in a row not ready (R403). -/
def Domain.window (x : Domain) (good : Bool) : Domain :=
  if good then
    let ready := x.pllReady || 3 ≤ x.pass + 1
    { x with pass := x.pass + 1, fail := 0, pllReady := ready, requal := x.requal && !ready }
  else { x with pass := 0, fail := x.fail + 1, pllReady := x.pllReady && x.fail = 0 }

/-- The qualification on a newly selected reference fails with the second failing window in a row (R403, R405): R407 applies to the
domain as to the loss of its reference (DEDUCED, log entry 10). -/
def Device.requalFails (d : Device) (n : Nat) : Device :=
  let ref := (d.domain n).ref
  let d := d.onDomain n (fun x => { x with requal := false })
  if 10 < n then d
  else
    let d := if n ≤ 8 then d.clockHold
      else ((d.onDomain n (fun x => { x with running := false, pllReady := false, pass := 0, lost := true })).onPort (n - 9)
        (fun x => { x with training := false })).linkDown (n - 9)
    let (k, d) := d.draw
    d.clockFault ref 2 (decide (n ≤ 8)) (Config.unstated k % 256)

/-- The window of a domain's PLL. No command carries the count of a PLL output: it is free (DESIGN CHOICE, log entry 10). -/
def Device.pllWindow (d : Device) (n : Nat) (here : Nat → Bool) : Device :=
  let x := d.domain n
  if x.running ∨ (x.held ∧ d.pwr.resuming) then
    let (k, d) := d.draw
    let good := here x.ref && d.pllPasses n x.ref (Config.unstated k)
    let d := d.onDomain n (fun _ => x.window good)
    d.onlyIf (!good && x.requal && decide (1 ≤ x.fail)) (·.requalFails n)
  else d

/-- A PCIE domain that stopped for want of its reference runs again once that is ready, and its port trains (R407). -/
def Device.pcieBack (d : Device) (p : Nat) : Device :=
  if (d.domain (9 + p)).lost && d.refReady (d.domain (9 + p)).ref then
    (d.onDomain (9 + p) (fun x => { x with running := true, lost := false, requal := true, pllReady := false, pass := 0, fail := 0 })).onPort p
      (fun x => { x with training := x.perstHigh })
  else d

/-- Every PLL a start or a wake waits for is ready; the PCIe PLLs are not awaited. -/
def Device.pllsReady (d : Device) : Bool := [0, 1, 2, 3, 4, 5, 6, 7, 8, 11, 12].all (fun n => (d.domain n).pllReady)

/-! ### Links and start-up steps that a window ends (R421 step 8, R473 step 6) -/

/-- The dictionary is served (R473 step 6): DEVICE_STATE reads TRAINING; a fallback that waited is raised (R450). -/
def Device.servesNow (d : Device) : Device :=
  let d := (d.put Obj.deviceState 1).onCtl (fun c => { c with serving := true })
  let d := match d.sec.fallbackDue with
    | some (a, b, c) => (d.onSec (fun x => { x with fallbackDue := none })).raise 0x1001 [a1 a, a1 b, a1 c]
    | none => d
  d.linksTrain

/-- What the end of a window lets go on. -/
def Device.afterWindow (d : Device) : Device :=
  if d.pllsReady then
    match d.pwr.step with
    | .qualifying p => d.onPwr (fun w => { w with step := .training p false (p != 3) })
    | _ => if d.boot.partsStarted && !d.boot.trained && !d.ctl.serving && !d.sec.bootFailed && d.ctl.restart.isNone
        then d.servesNow else d
  else d

/-- QUALIFICATION_WINDOW (R403, R404): the counts of the windows that end together, and which inputs are present. -/
def Device.window (d : Device) (present : List Bool) (ab al bl p0 p1 aon : Nat) : Device :=
  if !d.boot.fusesRead then d
  else
    let here : Nat → Bool := fun r => present.getD r false
    let agreeAB := here 0 && here 1 && within ab 65536 100 100
    let agreeAL := here 0 && here 2 && within al 409600 100 100
    let agreeBL := here 1 && here 2 && within bl 409600 100 100
    let quartz := d.refReady 0 || d.refReady 1
    let passes : Nat → Bool := fun r =>
      if r = 0 then agreeAB || agreeAL
      else if r = 1 then agreeAB || agreeBL
      else if r = 2 then agreeAL || agreeBL
      else if r = 3 then here 3 && within p0 262144 5300 300
      else if r = 4 then here 4 && within p1 262144 5300 300
      else within aon 131072 30000 30000
    let d := d.each [0, 1, 2] (fun d r => d.refWindow r (here r) (passes r))
    let d := if quartz then d.each [3, 4, 5] (fun d r => d.refWindow r (here r || r == 5) (passes r)) else d
    let d := d.each [0, 1] Device.pcieBack
    let d := d.each (List.range 13) (fun d n => d.pllWindow n (fun r => here r || r == 5))
    d.afterWindow.linksDue

def execQualificationWindow (present : List Bool) (ab al bl p0 p1 aon : Nat) (s : State) :=
  onDev s (fun d => d.window present ab al bl p0 p1 aon)

/-- CLOCK_MONITOR_FIRE (R406): a stop (cause 0) or a glitch (cause 1) clears the ready flag at once. -/
def Device.monitorFires (d : Device) (ref cause : Nat) : Device :=
  if 5 < ref ∨ 1 < cause then d
  else
    let was := d.refReady ref
    let d := d.onPwr (fun w => { w with refs := tset w.refs ref { d.refClock ref with ready := false, pass := 0, fail := 0 } })
    (if was then d.readyEvent ref false else d).refLost ref cause

def execClockMonitorFire (ref cause : Nat) (s : State) := onDev s (fun d => d.monitorFires ref cause)

/-- REF_SELECT (R405), its checks in the order R405 states them (R348 orders 8 and 9). -/
def refSelectEffect (n : Nat) : Effect := fun d rq v =>
  if !refAllowed n v then (St.range, d)
  else
    let x := d.domain n
    if x.running ∧ v ≠ x.ref ∧ !d.refReady v then (St.notReady, d)
    else if n = 12 ∧ d.roleOf rq ≠ some 2 then (St.role, d)
    else
      let d := d.put (Obj.refSelect + n) v
      if v = x.ref then (St.ok, d.onDomain n (fun x => { x with next := none }))
      else if n = 9 ∨ n = 10 then (St.ok, d.onDomain n (fun x => { x with next := some v }))
      else (St.ok, d.onDomain n (fun x => { x with ref := v, pllReady := false, pass := 0, fail := 0, requal := x.running }))

def execRefSelect (rq : Req) (domain value : Nat) (s : State) :=
  onReq s rq (fun d => if 12 < domain then d else d.command rq (Obj.refSelect + domain) value (refSelectEffect domain))

/-- The set of held domains. -/
def Device.heldDomains (d : Device) : Nat := (List.range 9).foldl (fun w n => if (d.domain n).held then setBit w n else w) 0

/-- CLOCK_RESUME (R409, R437). A second write during a resume waits for the same end (DEDUCED, log entry 11). -/
def clockResumeEffect : Effect := fun d _ _ =>
  if !d.pwr.hold then (St.busy, d)
  else if (List.range 9).any (fun n => !d.refReady (d.domain n).ref) then (St.notReady, d)
  else if flt 0x42BE_0000 d.gov.hottest then (St.notReady, d)
  else if d.pwr.resuming then (St.pending, d)
  else
    let d := d.onPwr (fun w => { w with resuming := true })
    (St.pending, d.each (List.range 9) (fun d n => d.onDomain n (fun x =>
      if x.held then { x with pllReady := false, pass := 0 } else x)))

def execClockResume (rq : Req) (value : Nat) (s : State) :=
  onReq s rq (fun d => d.command rq Obj.clockResume value clockResumeEffect)

/-- The work of every sample in flight is dropped (R408); a serving sample fails. -/
def Device.dropInFlight (d : Device) : Device :=
  let d := d.failAllServing Hb.detectedFault
  { d with stages := d.stages.map (fun p => (p.1, p.2.dropTraining)) }

/-- CLOCK_RESUME_DONE (R409 steps 2 to 5). -/
def Device.resumed (d : Device) : Device :=
  let held := d.heldDomains
  if d.pwr.hold && d.pwr.resuming && (bitsSet held 9).all (fun n => (d.domain n).pllReady) then
    let d := d.each (bitsSet held 9) (fun d n => d.onDomain n (fun x => { x with running := true, held := false }))
    let d := d.dropInFlight
    let d := d.onPwr (fun w => { w with hold := false, resuming := false, hbmSelf := false, ddrSelf := false })
    let d := d.each [0, 1] Device.wakeHeld
    let d := (d.onGov (fun g => { g with trip := false })).linksTrain
    (d.raise 0x0E03 [a2 held]).finishKey Obj.clockResume St.ok
  else d

def execClockResumeDone (s : State) := onDev s Device.resumed

/-! ### The gate tree -/

def nodeLevel (n : Nat) : Nat := bits n 0 3
def nodeDie (n : Nat) : Nat := bits n 3 2
def nodeCluster (n : Nat) : Nat := bits n 5 5
def nodeCore (n : Nat) : Nat := bits n 10 3
def nodeEngine (n : Nat) : Nat := bits n 13 3

/-- A node number whose unused fields are 0 and whose used ones name a node (R410). -/
def nodeValid (n : Nat) : Bool :=
  n < 65536 &&
  (match nodeLevel n with
   | 0 => n == 0
   | 1 => bits n 5 11 == 0
   | 2 => bits n 10 6 == 0 && nodeCluster n ≤ 16
   | 3 => nodeEngine n == 0 && nodeCluster n ≤ 16
   | 4 => nodeCluster n ≤ 16 && (nodeEngine n == 1 || nodeEngine n == 2 || nodeEngine n == 4)
   | _ => false)

/-- The nodes above a node, the root first. -/
def nodesAbove (n : Nat) : List Nat :=
  (corePath (nodeDie n) (nodeCluster n) (nodeCore n)).take (nodeLevel n)

/-- The armed run has a group with MAT_DISPATCH = 1 (R411). -/
def Device.dispatches (d : Device) : Bool := d.armed && d.run.groups.any (fun g => bit g 11)

/-- IN_USE of a cluster (R411). -/
def Device.clusterInUse (d : Device) (die c : Nat) : Bool :=
  d.stages.any (fun p => p.2.core / 8 == 32 * die + c) || (d.dispatches && d.named die c && !d.retired die c)

/-- IN_USE of a die (R411). -/
def Device.dieInUse (d : Device) (die : Nat) : Bool :=
  (List.range 17).any (d.clusterInUse die) ||
  (rangeFrom (24 * die) 24).any (fun l => (d.link l).state == .up && (d.portOfLink l).isSome) ||
  d.ms.dir.any (fun p => p.2.onDie die && (0 < p.2.pins || p.2.move != .settled))

/-- IN_USE of a node (R411). -/
def Device.inUse (d : Device) (n : Nat) : Bool :=
  let core := 256 * nodeDie n + 8 * nodeCluster n + nodeCore n
  match nodeLevel n with
  | 0 => (List.range 4).any d.dieInUse
  | 1 => d.dieInUse (nodeDie n)
  | 2 => d.clusterInUse (nodeDie n) (nodeCluster n)
  | 3 => d.stages.any (fun p => p.2.core == core)
  | _ => d.stages.any (fun p => p.2.core == core && (Desc.engines p.2.desc).contains (nodeEngine n))

/-- The one latched request of R422 is replaced: it receives BUSY. -/
def Device.dropLatched (d : Device) : Device :=
  let d := match d.pwr.latched with
    | some (target, _) => (d.onPwr (fun w => { w with latched := none })).finishArg Obj.powerRequest target St.busy
    | none => d
  match d.pwr.gateLatch with
  | some (_, v) => (d.onPwr (fun w => { w with gateLatch := none })).finishArg Obj.gateControl v St.busy
  | none => d

/-- A gate request that no change of its node stands in the way of (R412). -/
def Device.gateNow (d : Device) (node v : Nat) : Nat × Device :=
  if node = 0 then (St.range, d)
  else if v = 1 then
    if d.inUse node then (St.childInUse, d)
    else (St.ok, d.onPwr (fun w => if w.heldNodes.contains node ∨ w.draining.contains node then w
      else { w with draining := w.draining ++ [node] }))
  else if d.heldOn (nodesAbove node) then (St.notReady, d)
  else (St.ok, d.onPwr (fun w => if w.heldNodes.contains node then
      { w with heldNodes := w.heldNodes.filter (· != node), opening := w.opening ++ [node] } else w))

/-- GATE_CONTROL (R412, R422, R426): a request against the change under way of its node is latched. -/
def gateEffect : Effect := fun d _ v =>
  let node := d.get Obj.gateSelect
  if d.pwr.hold then (St.busy, d)
  else if (v = 0 ∧ d.pwr.draining.contains node) ∨ (v = 1 ∧ d.pwr.opening.contains node) then
    (St.pending, d.dropLatched.onPwr (fun w => { w with gateLatch := some (node, v) }))
  else d.gateNow node v

def execGateOpen (rq : Req) (s : State) := onReq s rq (fun d => d.command rq Obj.gateControl 0 gateEffect)

def execGateHold (rq : Req) (s : State) := onReq s rq (fun d => d.command rq Obj.gateControl 1 gateEffect)

/-- The latched request of a node whose change has ended is checked as if it had just arrived (R422). -/
def Device.gateLatched (d : Device) (node : Nat) : Device :=
  match d.pwr.gateLatch with
  | some (n, v) =>
    if n = node then
      let (st, d) := (d.onPwr (fun w => { w with gateLatch := none })).gateNow node v
      d.finishArg Obj.gateControl v st
    else d
  | none => d

/-- GATE_HELD (R412): a node under HOLD has drained. -/
def Device.gateIsHeld (d : Device) (node : Nat) : Device :=
  if d.pwr.draining.contains node then
    (d.onPwr (fun w => { w with
      draining := w.draining.filter (· != node), heldNodes := w.heldNodes ++ [node] })).gateLatched node
  else d

def execGateHeld (node : Nat) (s : State) := onDev s (fun d => d.gateIsHeld node)

/-- GATE_OPENING_DONE (R412): the work that waited for the node goes on. -/
def Device.gateIsOpen (d : Device) (node : Nat) : Device :=
  if d.pwr.opening.contains node then
    (d.onPwr (fun w => { w with opening := w.opening.filter (· != node) })).gateLatched node
  else d

def execGateOpeningDone (node : Nat) (s : State) := onDev s (fun d => d.gateIsOpen node)

/-! ### DVFS -/

/-- The table voltages of R413 in millivolts, L0 first. -/
def levelMv : List Nat := [550, 560, 600, 650, 690, 720, 760, 800]

/-- The trim of a die in millivolts. -/
def Device.voltTrim (d : Device) (die : Nat) : Int := toSigned 32 (bits d.sec.fuses.trims (32 * die) 32)

/-- The voltage sent for a level: table plus trim, within 0.55 V to 0.85 V. -/
def Device.voltage (d : Device) (die level : Nat) : Nat :=
  (max 550 (min 850 ((levelMv.getD level 0 : Nat) + d.voltTrim die))).toNat

/-- An AVSBus voltage write. -/
def Device.avsWrite (d : Device) (die mv : Nat) : Device :=
  (d.onPwr (fun w => { w with railMv := tset w.railMv die mv })).emit (.avsWrite die mv)

def Device.level (d : Device) (die : Nat) : Nat := d.get (Obj.dvfsLevelCd + die)

/-- The target level of a die (R413). -/
def Device.targetLevel (d : Device) (die : Nat) : Nat := min (d.get (Obj.dvfsRequestCd + die)) (d.get (Obj.govDvfsLimitCd + die))

/-- DVFS_REQUEST (R413). -/
def execDvfsRequest (rq : Req) (die level : Nat) (s : State) :=
  onReq s rq (fun d => if 3 < die then d else
    d.command rq (Obj.dvfsRequestCd + die) level (storeEffect (Obj.dvfsRequestCd + die) (fun _ _ _ => St.ok)))

def Device.dvfsPhase (d : Device) (die : Nat) : DvfsPhase := tgetD d.pwr.dvfsPhase die .idle
def Device.setPhase (d : Device) (die : Nat) (p : DvfsPhase) : Device :=
  d.onPwr (fun w => { w with dvfsPhase := tset w.dvfsPhase die p })

/-- A change of one level begins (R414 steps 1 and 4). -/
def Device.levelChange (d : Device) (die : Nat) : Device :=
  if 3 < die ∨ d.dvfsPhase die ≠ .idle ∨ (d.domain die).running = false then d
  else if d.level die < d.targetLevel die then
    (d.avsWrite die (d.voltage die (d.level die + 1))).setPhase die .raising
  else if d.targetLevel die < d.level die then d.setPhase die .slewDown
  else d

def execDvfsLevelChange (die : Nat) (s : State) := onDev s (fun d => d.levelChange die)

/-- AVSBus reports a voltage reached (R414 step 2). -/
def Device.voltageReached (d : Device) (die : Nat) : Device :=
  if d.dvfsPhase die = .raising then d.setPhase die .slewUp
  else d.onPwr (fun w => { w with lowering := w.lowering.filter (· != die) })

def execAvsbusVoltageReached (die : Nat) (s : State) := onDev s (fun d => d.voltageReached die)

/-- The level changes by one, and the next change begins if the target still differs (R414 step 6). -/
def Device.levelReached (d : Device) (die level : Nat) : Device :=
  (((d.put (Obj.dvfsLevelCd + die) level).bump Obj.dvfsSteps).setPhase die .idle).levelChange die

/-- The ARITH PLL has slewed (R414 steps 3 to 6). -/
def Device.slewDone (d : Device) (die : Nat) : Device :=
  match d.dvfsPhase die with
  | .slewUp => d.levelReached die (d.level die + 1)
  | .slewDown =>
    let level := d.level die - 1
    let d := (d.avsWrite die (d.voltage die level)).onPwr (fun w => { w with lowering := die :: w.lowering.filter (· != die) })
    d.levelReached die level
  | _ => d

def execArithPllSlewDone (die : Nat) (s : State) := onDev s (fun d => d.slewDone die)

/-- REGULATOR_FAULT raised and counted (R424). -/
def Device.regulatorFault (d : Device) (rail cause : Nat) : Device :=
  (d.bump Obj.regulatorFaults).raise 0x0E06 [a1 rail, a1 cause]

/-- AVSBus does not confirm (R414): a rise leaves the level where it was; a failed lowering leaves the higher voltage. -/
def Device.confirmTimeout (d : Device) (die : Nat) : Device :=
  if d.dvfsPhase die = .raising then (d.setPhase die .idle).regulatorFault (5 + die) 0
  else if d.pwr.lowering.contains die then
    (d.onPwr (fun w => { w with
      lowering := w.lowering.filter (· != die),
      railMv := tset w.railMv die (d.voltage die (d.level die + 1)) })).regulatorFault (5 + die) 0
  else d

def execAvsbusConfirmTimeout (die : Nat) (s : State) := onDev s (fun d => d.confirmTimeout die)

/-! ### Supplies (R415) -/

/-- A rail meets a regulator fault: its parts stop, the open take carries DETECTED_FAULT, the risk rises. -/
def Device.railFault (d : Device) (rail cause : Nat) : Device :=
  ((d.regulatorFault rail cause).onPwr (fun w => { w with faulted := setBit w.faulted rail })).powerEvent.detectedFault

/-- SUPPLY_UNDERVOLTAGE (R415): a monitored rail lies `below` millivolts under its target of `nominal`, for 1 µs or longer. More than
5 % is a warning; more than 10 % is a regulator fault besides. -/
def Device.undervoltage (d : Device) (rail below nominal : Nat) : Device :=
  if rail < 2 ∨ 8 < rail then d
  else if 5 * nominal < 100 * below then
    let d := ((d.onPwr (fun w => { w with warning := setBit w.warning rail })).bump
      Obj.supplyWarnings |>.raise 0x0E05 [a1 rail, a2 below]).powerEvent
    if 100 * below ≤ 10 * nominal then d.onPwr (fun w => { w with faulted := clearBit w.faulted rail })
    else if bit d.pwr.faulted rail then d else d.railFault rail 1
  else d.onPwr (fun w => { w with warning := clearBit w.warning rail, faulted := clearBit w.faulted rail })

def execSupplyUndervoltage (rail below nominal : Nat) (s : State) := onDev s (fun d => d.undervoltage rail below nominal)

/-- PWR_GOOD_FALL (R415): on an enabled rail it is a regulator fault. -/
def Device.goodFalls (d : Device) (b : Nat) : Device :=
  if 8 < b then d
  else
    let was := bit d.pwr.pwrGood b
    let d := d.onPwr (fun w => { w with pwrGood := clearBit w.pwrGood b })
    if was && bit d.pwr.pwrEn b then d.railFault b 2 else d

def execPwrGoodFall (bit : Nat) (s : State) := onDev s (fun d => d.goodFalls bit)

/-- A rail not good again within 1 ms loses the parts it feeds (R415). -/
def Device.recoveryExpires (d : Device) (rail : Nat) : Device :=
  if !bit d.pwr.faulted rail then d
  else if rail = 2 then d.loseLapidary 0
  else if rail = 3 then d.loseLapidary 1
  else if rail = 4 then d.each [0, 1, 2, 3] Device.loseDie
  else if 5 ≤ rail ∧ rail ≤ 8 then d.loseDie (rail - 5)
  else d

def execRegulatorRecoveryExpiry (rail : Nat) (s : State) := onDev s (fun d => d.recoveryExpires rail)

/-! ### Power states -/

/-- Rails switched on or off. -/
def Device.railsOn (d : Device) (mask : Nat) : Device := d.onPwr (fun w => { w with pwrEn := w.pwrEn ||| mask })
def Device.railsOff (d : Device) (mask : Nat) : Device :=
  d.onPwr (fun w => { w with
    pwrEn := w.pwrEn - (w.pwrEn &&& mask), faulted := w.faulted - (w.faulted &&& mask) })

def Device.setStep (d : Device) (st : PowerStep) : Device := d.onPwr (fun w => { w with step := st })
def Device.powerState (d : Device) : Nat := d.get Obj.powerState
def Device.transition (d : Device) (v : Nat) : Device := d.put Obj.powerTransition v

/-- POWER_STATE changes: POWER_STATE_CHANGED. -/
def Device.stateTo (d : Device) (new : Nat) : Device :=
  let old := d.powerState
  (d.put Obj.powerState new).raise 0x0E04 [a1 old, a1 new, a1 (d.get Obj.wakeCause)]

/-- The filler holds a lower bound (R441). -/
def Device.fillerHolds (d : Device) : Bool := d.get Obj.fillerW != 0

/-- The automatic change between P0 and P1 (R416, R441). -/
def Device.powerAuto (d : Device) : Device :=
  let p := d.powerState
  if 1 < p then d
  else
    let new := if d.stages != [] || d.fillerHolds then 0 else 1
    if new = p then d else d.stateTo new

/-- A DMA descriptor is in progress on either port. -/
def Device.dmaBusy (d : Device) : Bool := d.ports.any (fun p => p.2.queues.any (fun q => q.2.taken.any (fun t => t.status.isNone)))

/-- The root is held by entry to P2 (R412), and opened at the wake. -/
def Device.rootHeld (d : Device) (h : Bool) : Device :=
  d.onPwr (fun w => { w with heldNodes := if h then 0 :: w.heldNodes.filter (· != 0) else w.heldNodes.filter (· != 0) })

/-- Domains stop at an entry: P2 leaves LAPC, DDRC, PCIE, MGMT and AON running, P3 MGMT and AON (R416; DEDUCED, log entry 12). -/
def Device.domainsStop (d : Device) (target : Nat) : Device :=
  let stop := if target = 2 then [0, 1, 2, 3, 4, 5, 8] else List.range 11
  d.each stop (fun d n => d.onDomain n (fun x => { x with running := false, pllReady := false, pass := 0, requal := false, lost := false }))

/-- Step 5 of R420: the mailbox requests for P3 have their final response. -/
def Device.answerP3 (d : Device) : Device :=
  d.finish (fun w => w.key == Obj.powerRequest && w.arg == 3 && (portOf w.rq).isSome) { status := St.ok }

/-- A request for P3 that comes to an entry at step 5 or past it has its final response at once, behind its PENDING. -/
def Device.idlingAnswer (d : Device) : Device := if d.pwr.step = .idling ∧ !d.pwr.hold then d.answerP3 else d

/-- Entry begins (R420 steps 1 to 4): links down, HBM in self-refresh, and the retention save. An entry to P3 from P2
goes on from step 5. -/
def Device.entry1 (d : Device) (target : Nat) : Device :=
  if d.powerState = 2 then
    d.answerP3.setStep .idling
  else
    let d := (d.linksDown.rootHeld true).onPwr (fun w => { w with hbmSelf := true })
    d.setStep (.saving target)

/-- A request or a wake that is accepted: STOPPING or STARTING (R418, R441). -/
def Device.beginEntry (d : Device) (target : Nat) : Device :=
  let d := d.transition 1
  if d.fillerHolds then d.setStep (if target = 2 then .p2WaitFiller else .p3WaitFiller) else d.entry1 target

/-- A wake begins (R421 step 1, or step 4 from P2). -/
def Device.beginWake (d : Device) (cause : Nat) : Device :=
  let d := d.transition 3
  if d.powerState = 3 then ((d.put Obj.wakeCause cause).railsOn 1).setStep (.railWait 1 3)
  else d.setStep (.railDelay 0xC 2)

/-- A power request with no transition under way (R418). A request for P2 in P3 has no stated outcome. -/
def Device.powerNow (d : Device) (target cause : Nat) : Nat × Device :=
  let p := d.powerState
  if target = p ∨ (target = 1 ∧ p = 0) then (St.ok, d)
  else if target = 1 then (St.pending, d.beginWake cause)
  else if p = 3 then
    let (n, d) := d.draw
    (St.unsaid n, d)
  else if d.inUse 0 then (St.childInUse, d)
  else if d.ms.dir.any (fun e => e.2.move != .settled) ∨ d.get Obj.stillState ≠ 0 ∨ d.dmaBusy then (St.busy, d)
  else (St.pending, d.beginEntry target)

/-- The target of the transition under way. -/
def PowerStep.target : PowerStep → Option Nat
  | .steady => none
  | .p2WaitFiller => some 2
  | .p3WaitFiller => some 3
  | .saving t => some t
  | .idling => some 3
  | .railsOff t _ => some t
  | .railWait _ _ => some 1
  | .railDelay _ _ => some 1
  | .qualifying _ => some 1
  | .training _ _ _ => some 1

/-- A power request or a wake (R418, R422, R426). -/
def Device.powerAsk (d : Device) (target cause : Nat) : Nat × Device :=
  if d.pwr.hold then (St.busy, d)
  else match d.pwr.step.target with
    | none => d.powerNow target cause
    | some t =>
      if t = target then (St.pending, d)
      else (St.pending, d.dropLatched.onPwr (fun w => { w with latched := some (target, cause) }))

/-- POWER_REQUEST: a write of 1 over the field network is wake cause 4 (R418). -/
def powerEffect : Effect := fun d rq v => d.powerAsk v (if (portOf rq).isNone then 4 else 0)

def execPowerRequestP1 (rq : Req) (s : State) := onReq s rq (fun d => d.command rq Obj.powerRequest 1 powerEffect)
def execPowerRequestP2 (rq : Req) (s : State) := onReq s rq (fun d => d.command rq Obj.powerRequest 2 powerEffect)
def execPowerRequestP3 (rq : Req) (s : State) := onReq s rq (fun d =>
  (d.command rq Obj.powerRequest 3 powerEffect).idlingAnswer)

/-- A transition has ended with a final status; the latched request is checked as if it had just arrived (R422). -/
def Device.transitionEnds (d : Device) (target status : Nat) : Device :=
  let d := (d.setStep .steady).finishArg Obj.powerRequest target status
  match d.pwr.latched with
  | none => d.transition 0
  | some (t, cause) =>
    let d := (d.onPwr (fun w => { w with latched := none })).transition 2
    let (st, d) := d.powerNow t cause
    if st = St.pending then d else (d.transition 0).finishArg Obj.powerRequest t st

/-- Entry step 8: the state is reached (R420). -/
def Device.entryDone (d : Device) (target : Nat) : Device :=
  let d := d.domainsStop target
  let d := if target = 3 then d.endSessions else d
  (d.stateTo target).transitionEnds target St.ok

/-- RETENTION_SAVE (R419, R420 step 4). -/
def Device.retentionSaved (d : Device) : Device :=
  match d.pwr.step with
  | .saving t =>
    let d := d.onPwr (fun w => { w with retained := some t })
    if t = 3 then
      d.answerP3.setStep .idling
    else (d.railsOff 0x1E0).setStep (.railsOff 2 0)
  | _ => d

def execRetentionSave (s : State) := onDev s Device.retentionSaved

/-- A step that waits on PWR_GOOD fails (R417): the rails the transition enabled go off in reverse order, the state left is in effect
again, and the final response is NOT_READY. -/
def Device.railsFail (d : Device) (p rail cause : Nat) : Device :=
  let d := (d.each ([0x1E0, 0x10] ++ (if p = 2 then [] else [0xC, 2, 1])) Device.railsOff).regulatorFault rail cause
  if p = 4 then d.setStep .steady else d.transitionEnds 1 St.notReady

/-- Rails come on, and their PWR_GOOD is waited for; one that is high already is a fault of cause 2 (R496). -/
def Device.enableRails (d : Device) (mask p : Nat) : Device :=
  let high := d.pwr.pwrGood &&& mask
  let d := d.railsOn mask
  if high = 0 then d.setStep (.railWait mask p) else d.railsFail p ((bitsSet high 9).headD 0) 2

/-- A fixed delay of 100 µs, 200 µs or 50 µs ends (R420 steps 6 and 7, R421 steps 2 to 6, R473 step 3). -/
def Device.delayEnds (d : Device) : Device :=
  match d.pwr.step with
  | .idling =>
    let d := ((d.linkDown 0).linkDown 1).onPwr (fun w => { w with ddrSelf := true, retained := some 3 })
    (d.railsOff 0x1E0).setStep (.railsOff 3 0)
  | .railsOff t 0 => let d := d.railsOff 0x10; if t = 2 then d.entryDone 2 else d.setStep (.railsOff t 1)
  | .railsOff t 1 => (d.railsOff 0xC).setStep (.railsOff t 2)
  | .railsOff t 2 => (d.railsOff 2).setStep (.railsOff t 3)
  | .railsOff t _ => (d.railsOff 1).entryDone t
  | .railDelay 1 p => d.enableRails 2 p
  | .railDelay 2 p => d.enableRails 0xC p
  | .railDelay 0xC p => d.enableRails 0x10 p
  | .railDelay 0x10 p =>
    let d := d.each [0, 1, 2, 3] (fun d die => d.avsWrite die (d.voltage die 0))
    d.enableRails 0x1E0 p
  | .railDelay 0x1E0 p =>
    if p = 4 then (d.setStep .steady).onBoot (fun b => { b with railsUp := true })
    else
      let d := d.each (List.range 13) (fun d n => d.onDomain n (fun x => if x.running then x else
        { x with running := true, pllReady := false, pass := 0 }))
      (d.each [0, 1, 2, 3] (fun d die => (d.put (Obj.dvfsLevelCd + die) 0).setPhase die .idle)).setStep (.qualifying p)
  | _ => d

/-- Start-up step 5 needs the rails and the components (R473): resets are released and every PLL starts. -/
def Device.startParts (d : Device) : Device :=
  if d.boot.railsUp && d.boot.slotChecked && !d.boot.partsStarted && !d.sec.bootFailed then
    (d.each (List.range 13) (fun d n => d.onDomain n (fun x => { x with running := true }))).onBoot
      (fun b => { b with partsStarted := true })
  else d

def execPowerSequenceDelay (s : State) := onDev s (fun d => d.delayEnds.startParts)

/-- PWR_GOOD_RISE (R421): the waiting step goes on once every rail it waits for is good. -/
def Device.goodRises (d : Device) (b : Nat) : Device :=
  if 8 < b then d
  else
    let d := d.onPwr (fun w => { w with pwrGood := setBit w.pwrGood b, faulted := clearBit w.faulted b })
    match d.pwr.step with
    | .railWait mask p => if d.pwr.pwrGood &&& mask = mask then d.setStep (.railDelay mask p) else d
    | _ => d.linksDue

def execPwrGoodRise (bit : Nat) (s : State) := onDev s (fun d => d.goodRises bit)

/-- PG_TIMEOUT_MS has passed (R417). -/
def Device.goodTimeout (d : Device) : Device :=
  match d.pwr.step with
  | .railWait mask p => d.railsFail p (((bitsSet mask 9).filter (fun b => !bit d.pwr.pwrGood b)).headD 0) 3
  | _ => d

def execPgTimeout (s : State) := onDev s Device.goodTimeout

/-- A wake has trained (R421 steps 10 to 12). -/
def Device.wakeDone (d : Device) : Device :=
  let d := (d.onPwr (fun w => { w with hbmSelf := false, ddrSelf := false, retained := none })).rootHeld false
  let d := d.each [0, 1] Device.wakeHeld
  let d := d.each [0, 1] (fun d p => if (d.port p).linkUp then d else d.onPort p (fun x => { x with training := x.perstHigh }))
  let d := d.linksTrain
  let d := d.onGov (fun g => { g with tModel := none })
  (d.each [0, 1, 2, 3] Device.levelChange).stateTo 1 |>.transitionEnds 1 St.ok

/-- A training step of a wake is done. -/
def Device.wakeTrained (d : Device) (d2d ddr : Bool) : Device :=
  match d.pwr.step with
  | .training p a b =>
    let a := a || d2d
    let b := b || ddr
    if a && b then d.wakeDone else d.setStep (.training p a b)
  | _ => d

/-- A wake cause (R418): one in P3, or one that arrives on the way there. -/
def Device.wakes (d : Device) (cause : Nat) : Device :=
  if d.powerState = 3 ∨ d.pwr.step.target = some 3 then (d.powerAsk 1 cause).2 else d

/-- WAKE_REQ (R418, R501): low for at least 500 cycles of the 50 MHz AON clock. -/
def execWakeReq (samples : Nat) (s : State) := onDev s (fun d => if 500 ≤ samples then d.wakes 1 else d)

/-- PERST_N of a port is released (R418, R473 step 4): it wakes the device from P3; with power and its reference the
port begins link training. -/
def Device.perstReleased (d : Device) (p : Nat) : Device :=
  if 1 < p then d
  else
    let d := d.onPort p (fun x => { x with perstHigh := true })
    let d := d.wakes (2 + p)
    if bit d.pwr.pwrGood 1 && d.refReady (d.domain (9 + p)).ref && d.powerState ≤ 2 then
      d.onPort p (fun x => { x with training := !x.linkUp })
    else d

def execPerstNDeassert (port : Nat) (s : State) := onDev s (fun d => d.perstReleased port)

end Sys2Proof.Machine
end

