-- ==== Sys2Proof/Machine/Stages.lean ====
section
/-!
DEFINITION. Binding and unbinding of stages (R218 to R220 with the refusals of R25, R88, R117 and R137), the generators
and their registry (R232 to R235), and the fallback of a stage (R124).
-/
namespace Sys2Proof.Machine

/-! ### Generators -/

/-! The purposes of R233. -/
namespace Pur
def act : Nat := 0x10
def out : Nat := 0x11
def grad : Nat := 0x12
def xexp : Nat := 0x13
def wexp : Nat := 0x14
def state0 : Nat := 0x15
def wc : Nat := 0x19
def dropout : Nat := 0x20
def dailies : Nat := 0x30
end Pur

/-- A generator key (R232), its 16 bytes as a number. -/
def genKey (seed : Bytes) (stream tensor purpose : Nat) : Nat :=
  leNat ((sha512 (seed ++ leBytes 2 stream ++ leBytes 4 tensor ++ leBytes 1 purpose)).take 16)

/-- The key of the job's seed. -/
def Device.genKey (d : Device) (stream tensor purpose : Nat) : Nat :=
  Machine.genKey (leBytes 32 (d.get Obj.jobSeed)) stream tensor purpose

/-- The probe counter of R235 at a key. -/
def probeOf (key : Nat) : Nat := probe64 key (2 ^ 64 - 1) (2 ^ 64 - 1)

/-- Two registrations meet: the same KIND, tensor and purpose (R234). -/
def GenBinding.same (b : GenBinding) (kind tensor purpose : Nat) : Bool :=
  b.kind == kind && b.tensor == tensor && b.purpose == purpose

/-- A binding of a layer is registered, or joined by a replica of the layer; the status says whether it may be (R234). -/
def Device.register (d : Device) (kind layer : Nat) (tp : Nat × Nat) : Nat × Device :=
  match d.bindings.find? (fun b => b.same kind tp.1 tp.2) with
  | some b =>
    if b.layer = layer then
      (St.ok, { d with bindings := d.bindings.map (fun b =>
        if b.same kind tp.1 tp.2 then { b with users := b.users + 1 } else b) })
    else (St.duplicateGenerator, d)
  | none =>
    if d.get Obj.generatorBindingsMax ≤ d.bindings.length then (St.noSpace, d)
    else
      let key := d.genKey 0 tp.1 tp.2
      (St.ok, { d with bindings := d.bindings ++ [⟨kind, tp.1, tp.2, layer, 1, key, probeOf key⟩] })

/-- Registrations one after another, up to the first that is refused. -/
def Device.registerEach (d : Device) (kind layer : Nat) : List (Nat × Nat) → Nat × Device
  | [] => (St.ok, d)
  | tp :: rest =>
    match d.register kind layer tp with
    | (st, d) => if st = St.ok then d.registerEach kind layer rest else (st, d)

/-- The registrations of one descriptor: two entries of one key are a second registration that no replica makes. -/
def Device.registerAll (d : Device) (kind layer : Nat) (tps : List (Nat × Nat)) : Nat × Device :=
  if tps.eraseDups.length ≠ tps.length then (St.duplicateGenerator, d) else d.registerEach kind layer tps

/-- A user of a registration leaves it; the last one ends it. -/
def Device.unregister (d : Device) (kind : Nat) (tp : Nat × Nat) : Device :=
  { d with bindings := (d.bindings.map (fun b =>
      if b.same kind tp.1 tp.2 then { b with users := b.users - 1 } else b)).filter (fun b => b.users != 0) }

/-- The tensor of a purpose's key at a stage (R233). -/
def stageTensor (x purpose : Nat) (entryTensor : Nat) : Nat :=
  if purpose = Pur.act ∨ purpose = Pur.xexp then Desc.inTensor x
  else if purpose = Pur.out then Desc.outTensor x
  else if purpose = Pur.grad then Desc.gradTensor x
  else if purpose = Pur.wexp then Desc.wcObject x
  else entryTensor

/-- The tensor and purpose of each used generator entry of a descriptor, in entry order. -/
def stageGenerators (x : Nat) : List (Nat × Nat) :=
  ((List.range 4).filter (fun i => Desc.purpose x i != 0)).map (fun i =>
    (stageTensor x (Desc.purpose x i) (Desc.genTensor x i), Desc.purpose x i))

/-! ### The checks of a binding -/

/-- The combinations of R87. -/
def comboOk (mode w a : Nat) : Bool :=
  let narrow := [Fmt.int4, Fmt.int3, Fmt.int2, Fmt.uint4, Fmt.uint3, Fmt.uint2, Fmt.ternary, Fmt.binary]
  let act := a == Fmt.int8 || a == Fmt.int4
  if mode = 0 then (narrow ++ [Fmt.int8, Fmt.int12, Fmt.int16, Fmt.uint8, Fmt.uint12, Fmt.uint16]).contains w && act
  else if mode = 1 then (narrow ++ [Fmt.e2m1, Fmt.cb16]).contains w && act
  else mode == 2 && w == Fmt.bf16 && a == Fmt.bf16

/-- The layer of a LINEAR stage falls back (R124). -/
def fallsBack (x : Nat) : Bool := Desc.linear x && 128 < Desc.veinCount x

/-- The format it then runs in: a W_FORMAT of 8 bits or more is kept. -/
def fallbackFmt (x : Nat) : Nat := if 8 ≤ fmtBits (Desc.wFormat x) then Desc.wFormat x else Desc.fallbackFormat x

/-- Passes of the vein unit (R119). -/
def veinPasses (v : Nat) : Nat := ceilDiv v 32

/-- Bytes of a weight-gradient accumulator (R157). -/
def accumulatorBytes (x : Nat) : Nat :=
  let u := ceilDiv (Desc.outChannels x) 128
  let j := ceilDiv (Desc.inChannels x) 256
  131072 * u * j + (if Desc.hasVeins x then u * (4 * veinPasses (Desc.veinCount x) * 32 * 128) else 0)

/-- The bytes of a named object; 0 where it names none. -/
def Device.objectBytes (d : Device) (h : Nat) : Nat :=
  match d.entry h with
  | some e => e.size * blockBytes
  | none => 0

/-- The scale registers a stage binds: first and count. -/
def scaleRange (x : Nat) : Nat × Nat :=
  if Desc.linear x && !Desc.side x then (Desc.scaleBase x, Desc.outChannels x) else (0, 0)

/-- Every range of scale registers a stage binds: a learned activation scale's register is one of its own. -/
def scaleRanges (x : Nat) : List (Nat × Nat) :=
  scaleRange x :: (if Desc.linear x && Desc.learned x then [(Desc.actScaleReg x, 1)] else [])

/-- Two ranges of a base and a length share an element. -/
def rangesMeet (a b : Nat × Nat) : Bool := a.2 != 0 && b.2 != 0 && a.1 < b.1 + b.2 && b.1 < a.1 + a.2

/-- The physical core of a descriptor (R218). -/
def Device.stageCore (d : Device) (x : Nat) : Nat :=
  let l := Desc.logical x
  (32 * (l / 16) + d.placement l) * 8 + Desc.coreIx x

/-- The stages bound on a core. -/
def Device.onCore (d : Device) (core : Nat) : List Stage := (d.stages.filter (fun p => p.2.core == core)).map (·.2)

/-- The refusals of R88. A range bound by another stage is its SCALE_BASE range or its learned ACT_SCALE_REG: no stage may change
another's result bits (R46; DEDUCED, log entry 98). -/
def Device.fwdRefused (d : Device) (x core : Nat) : Bool :=
  if Desc.vector x then Desc.inChannels x == 0 || 16384 < Desc.inChannels x
  else
    !comboOk (Desc.fwdMode x) (Desc.wFormat x) (Desc.aFormat x) ||
    Desc.outChannels x == 0 || 4096 < Desc.outChannels x || Desc.inChannels x == 0 || 16384 < Desc.inChannels x ||
    Desc.tokensPerOp x == 0 || 512 < Desc.tokensPerOp x ||
    (!Desc.side x && 4096 < Desc.scaleBase x + Desc.outChannels x) ||
    (d.onCore core).any (fun y => (scaleRanges y.desc).any (rangesMeet (scaleRange x))) ||
    (Desc.side x && Desc.veinCount x != 0)

/-- The vein list's entries, as many as the vein table takes (R116). -/
def Device.veinList (d : Device) (x : Nat) : List Nat :=
  (List.range (min (Desc.veinCount x) 128)).map (fun i => d.readNat (Desc.veinList x) (2 * i) 2)

/-- Strictly ascending. -/
def ascending : List Nat → Bool
  | a :: b :: l => a < b && ascending (b :: l)
  | _ => true

/-- The refusals of R117. -/
def Device.veinRefused (d : Device) (x core : Nat) : Bool :=
  let n := Desc.veinCount x
  Desc.inChannels x < n ||
  (Desc.hasVeins x && (!d.names (Desc.veinList x) || !d.names (Desc.veinWeight x) ||
    d.objectBytes (Desc.veinList x) < 2 * n || (d.veinList x).any (fun c => Desc.inChannels x ≤ c) ||
    !ascending (d.veinList x))) ||
  (128 < n && fmtBits (Desc.wFormat x) < 8 && (Desc.fallbackFormat x == Fmt.none || !d.names (Desc.fallbackObject x))) ||
  (Desc.learned x && (Desc.side x || Desc.clipBlock x == 0 || 512 < Desc.clipBlock x ||
    rangesMeet (Desc.actScaleReg x, 1) (scaleRange x) ||
    (d.onCore core).any (fun y => (scaleRanges y.desc).any (rangesMeet (Desc.actScaleReg x, 1))))) ||
  !fIsFinite (Desc.outlierLimit x) || (fNeg (Desc.outlierLimit x) && fAbs (Desc.outlierLimit x) != 0)

/-- The formats R77 expands by table. -/
def tableFormat (f : Nat) : Bool :=
  [Fmt.int4, Fmt.int3, Fmt.int2, Fmt.uint4, Fmt.uint3, Fmt.uint2, Fmt.ternary, Fmt.binary, Fmt.e2m1, Fmt.cb16].contains f

/-- The weights of a stage expand by scale: SCALE, or a layer in fallback (R138). -/
def byScale (x : Nat) : Bool := Desc.wExpandScale x || fallsBack x

/-- The refusals of R137. -/
def Device.bwdRefused (d : Device) (x : Nat) : Bool :=
  let fp8 := Desc.bwdMode x == 0
  let n := d.get Obj.trackerCount
  (Desc.bwdMode x == 2 && (Desc.wgrad x || Desc.igrad x || Desc.anchor x)) ||
  (Desc.anchor x && !d.names (Desc.stash x)) ||
  (Desc.vector x && Desc.wgrad x) ||
  (Desc.linear x &&
    ((fp8 && Desc.side x) ||
     (fp8 && !byScale x && !tableFormat (Desc.wFormat x)) ||
     (fp8 && !fallsBack x && Desc.wExpandScale x && (Desc.wFormat x == Fmt.e2m1 || Desc.wFormat x == Fmt.cb16)) ||
     (fp8 && (Desc.trackerX x == 0xFFFF || n ≤ Desc.trackerX x)) ||
     (fp8 && byScale x && (Desc.trackerW x == 0xFFFF || n ≤ Desc.trackerW x)) ||
     (Desc.wgrad x && (!d.names (Desc.wgradAcc x) || d.objectBytes (Desc.wgradAcc x) < accumulatorBytes x))))

/-- The OP_KIND row of R219. -/
def kindRefused (x : Nat) : Bool :=
  (Desc.vector x && (Desc.wFormat x != Fmt.none || Desc.veinCount x != 0)) ||
  (Desc.pairwise x && (!Desc.side x || Desc.bwdMode x == 0 || (Desc.pairTranspose x && 4096 < Desc.tokensMax x)))

/-- An opcode of R216. -/
def opKnown (o : Nat) : Bool := o ≤ 0x0B || o == 0x10

/-- The vector-program and loss rows of R219; a DROPOUT's rate lies in [0, 1), with −0 as 0 (R216, R505). -/
def Device.programRefused (d : Device) (x : Nat) : Bool :=
  let xentAt := (List.range 16).filter (fun i => Desc.opcode x i == 0x10)
  (List.range 16).any (fun i => !opKnown (Desc.opcode x i) || Desc.opReserved x i != 0 || !fIsFinite (Desc.opImm x i)) ||
  (match Desc.programLength x with
   | none => true
   | some n =>
     (List.range n).any (fun i =>
       let op := Desc.opcode x i
       (op == 0x0B && (3 < Desc.opArg x i || Desc.purpose x (Desc.opArg x i) != Pur.dropout ||
         (fAbs (Desc.opImm x i) != 0 && (fNeg (Desc.opImm x i) || fOne ≤ Desc.opImm x i)))) ||
       ((op == 2 || op == 3) && d.objectBytes (Desc.paramObject x) < 64 * Desc.opArg x i + 4 * Desc.inChannels x) ||
       (op == 0x10 && (i + 1 != n || !Desc.lossStage x))) ||
     (Desc.lossStage x && (!Desc.vector x || !xentAt.contains (n - 1) || n == 0 || !d.names (Desc.targetObject x))))

/-- The ranges of the core store and the cluster store (R25, R219). -/
def Device.storeRefused (d : Device) (x core : Nat) : Bool :=
  256 < Desc.storeBase x + Desc.storePages x || Desc.storePages x == 0 || 448 < Desc.cstoreBase x + Desc.cstorePages x ||
  (d.onCore core).any (fun y =>
    rangesMeet (Desc.storeBase x, Desc.storePages x) (Desc.storeBase y.desc, Desc.storePages y.desc)) ||
  d.stages.any (fun p => p.2.core / 8 == core / 8 &&
    rangesMeet (Desc.cstoreBase x, Desc.cstorePages x) (Desc.cstoreBase p.2.desc, Desc.cstorePages p.2.desc))

/-- The join row of R219: it counts the source layers. -/
def joinRefused (x : Nat) : Bool :=
  let n := (Desc.sources x).eraseDups.length
  Desc.joinDepth x == 0 || 8 < Desc.joinDepth x ||
  (match Desc.joinMode x with
   | 0 => 1 < n
   | 1 => n < 2
   | 2 => n < 2
   | _ => n != 2)

/-- A conversion under SR without an entry of its purpose (R219, R233), or into FP32 (R69). A stage with WGRAD 0 expands no
activations and one with IGRAD 0 no weights: it ignores their rounding fields. -/
def srRefused (x : Nat) : Bool :=
  let has : Nat → Bool := fun p => (List.range 4).any (fun i => Desc.purpose x i == p)
  let fp8 := Desc.bwdMode x == 0
  let lin := Desc.linear x
  (lin && !Desc.side x && (Desc.aRounding x == 1 || (Desc.hasVeins x && Desc.veinRounding x == 1)) && !has Pur.act) ||
  (Desc.outRounding x == 1 && (Desc.outFp32 x || !has Pur.out)) ||
  (Desc.igrad x && Desc.gRounding x == 1 && !has Pur.grad) ||
  (lin && fp8 && Desc.wgrad x && Desc.xRounding x == 1 && !has Pur.xexp) ||
  (lin && fp8 && Desc.igrad x && byScale x && Desc.wRounding x == 1 && !has Pur.wexp)

/-- The header fields of R210 with a range. -/
def headerRefused (x : Nat) : Bool :=
  let f := Desc.inFormat x
  !(f == Fmt.fp32 || f == Fmt.bf16 || f == Fmt.fp16 || (Desc.laneFirst x && (f == Fmt.int8 || f == Fmt.uint8))) ||
  Desc.tokensMax x == 0

/-- MAGIC, DESC_VERSION and DESC_DIGEST (R209, R219). -/
def descWrong (x : Nat) : Bool :=
  Desc.magic x != 0x47545351 || Desc.version x != 1 || leNat (sha512 (Desc.covered x)) != Desc.digest x

/-- The descriptor an object holds. -/
def Device.descriptor (d : Device) (h : Nat) : Nat := d.readNat h 0 2048

/-- Every RANGE row of R219 and the rules it names. -/
def Device.bindRange (d : Device) (x core : Nat) : Bool :=
  descWrong x || Desc.reservedSet x || headerRefused x || kindRefused x || d.programRefused x || d.storeRefused x core ||
  joinRefused x || srRefused x || d.fwdRefused x core || (!Desc.vector x && d.veinRefused x core) || d.bwdRefused x

/-- The objects a descriptor names, without its stash (R250). -/
def Device.namedBy (d : Device) (h x : Nat) : List Nat :=
  let lin := Desc.linear x
  ([h, Desc.paramObject x] ++
    (if lin then [Desc.wcObject x] else []) ++
    (if Desc.hasVeins x then [Desc.veinList x, Desc.veinWeight x] else []) ++
    (if fallsBack x then [Desc.fallbackObject x] else []) ++
    (if Desc.laneFirst x then [Desc.inputObject x] else []) ++
    (if Desc.laneLast x || Desc.lossStage x then [Desc.outputObject x] else []) ++
    (if Desc.lossStage x then [Desc.targetObject x] else []) ++
    (if Desc.wgrad x then [Desc.wgradAcc x] else [])).eraseDups.filter d.names

/-- The lowest free binding position of a core. -/
def Device.freePosition (d : Device) (core : Nat) : Nat :=
  let used := (d.onCore core).map (·.pos)
  ((List.range 4).find? (fun p => !used.contains p)).getD 0

/-- A cluster is named by a stage descriptor on a HELD path (R412). -/
def Device.coreHeld (d : Device) (core : Nat) : Bool := d.heldOn (corePath (core / 256) (core / 8 % 32) (core % 8))

/-- A stage is bound: its generators, its pins, its vein table; the cluster that becomes in use opens its gate. -/
def Device.bindStage (d : Device) (h x : Nat) : Nat × Device :=
  let core := d.stageCore x
  if d.bindRange x core then (St.range, d)
  else if d.unplaced (Desc.logical x) ∨ d.lostUnit (10 + core / 256) ∨
      d.heldOn (stagePath (core / 256) (core / 8 % 32) (core % 8) x) then (St.notReady, d)
  else if 4 ≤ (d.onCore core).length then (St.noSpace, d)
  else match d.registerAll (Desc.kind x) (Desc.layer x) (stageGenerators x) with
    | (st, d') =>
      if st ≠ St.ok then (st, d)
      else
        let objs := d.namedBy h x
        if objs.any (fun o => match d.entry o with
            | some e => 255 ≤ e.pins
            | none => false) then (St.noSpace, d)
        else
          let fresh := !d.clusterInUse (core / 256) (core / 8 % 32)
          let d := d'.each objs Device.addPin
          let s : Stage := { desc := x, core := core, pos := d.freePosition core, fallback := fallsBack x, veins := (if Desc.linear x then d.veinList x else []), anchor := Desc.anchor x, pinned := objs }
          let d := { d with stages := tset d.stages h s }
          let node := gateNode 2 (core / 256) (core / 8 % 32) 0 0
          let d := d.onlyIf fresh (fun d => d.onPwr (fun w => { w with opening := w.opening ++ [node] }))
          (St.ok, d.powerAuto)

/-- A stage leaves its core: the pins its binding added (R250), its issue unit, its slot of the save area and its waits go with it. -/
def Device.unbindStage (d : Device) (h : Nat) : Device :=
  match tget d.stages h with
  | none => d
  | some s =>
    let x := s.desc
    let d := d.each (stageGenerators x) (fun d tp => d.unregister (Desc.kind x) tp)
    let d := d.each s.pinned Device.dropPin
    let d := { d with
      stages := tdel d.stages h
      issue := d.issue.map (fun (p : Nat × IssueUnit) => (p.1, ⟨if p.2.holder = some h then none else p.2.holder, tdel p.2.passed h⟩))
      saveArea := d.saveArea.filter (fun (p : Nat × SavedContext) => p.2.stage != h) }
    let d := d.onMs (fun m => { m with waiters := m.waiters.filter (fun w => w.2 != Waiter.stage h) })
    d.powerAuto

/-- The serving stages of a layer. -/
def Device.servingOf (d : Device) (layer : Nat) : List (Nat × Stage) :=
  d.stages.filter (fun p => Desc.serving p.2.desc && Desc.layer p.2.desc == layer)

/-- An open stream's lanes hold a lane. -/
def Device.laneOpen (d : Device) (lane : Nat) : Bool := d.streams.any (fun p => bit p.2.laneMask lane)

/-- Layers of bound serving stages in fallback. -/
def Device.servingFallbacks (d : Device) : Nat :=
  ((d.stages.filter (fun p => Desc.serving p.2.desc && p.2.fallback)).map (fun p => Desc.layer p.2.desc)).eraseDups.length

/-- VEIN_FALLBACK and FALLBACK_LAYERS (R124, R135). -/
def Device.fallbackEvent (d : Device) (x : Nat) : Device :=
  d.raise 0x0402 [a4 (Desc.layer x), a2 (Desc.veinCount x), a1 (fallbackFmt x)]

/-- A serving layer's fallback copy takes the place of its narrow copy (R126): the units it needs, and whether the narrow copy is
released for it, which no pin forbids. -/
def Device.servingFallback (d : Device) (x : Nat) : Nat × Bool :=
  if fallsBack x ∧ fmtBits (Desc.wFormat x) < 8 ∧ d.names (Desc.fallbackObject x) ∧ !d.inFast (Desc.fallbackObject x) then
    (d.sizeOf (Desc.fallbackObject x), match d.entry (Desc.wcObject x) with
      | some o => o.tier == 2 && o.move == .settled && o.pins == 0
      | none => false)
  else (0, false)

/-- STAGE_BIND (R218 to R220): a SERVING descriptor, the next replica of its layer; a lane an open stream uses is busy
(R463), and a fallback copy must find room (R126). A handle that is bound already is BUSY: the text names no status for it (DESIGN CHOICE,
log entry 135). -/
def stageBindEffect : Effect := fun d _ h =>
  match d.entry h with
  | none => (St.range, d)
  | some e =>
    let x := d.descriptor h
    if d.get Obj.deviceState ≠ 3 then (St.notReady, d)
    else if d.get Obj.powerTransition ≠ 0 then (St.busy, d)
    else if e.lost then (St.objectLost, d)
    else if (tget d.stages h).isSome then (St.busy, d)
    else if !Desc.serving x ∨ Desc.replica x ≠ (d.servingOf (Desc.layer x)).length then (St.range, d)
    else if d.laneOpen (Desc.lane x) then (St.busy, d)
    else
      let first := d.servingOf (Desc.layer x) = []
      let need := d.servingFallback x
      let freed := if need.2 then d.sizeOf (Desc.wcObject x) else 0
      match d.bindStage h x with
      | (st, d') =>
        if st ≠ St.ok then (st, d)
        else if d.fastFree + freed < need.1 then (St.noSpace, d)
        else
          let d' := (d'.onlyIf need.2 (·.makeAbsent (Desc.wcObject x))).onlyIf (need.1 != 0) (·.fetch (Desc.fallbackObject x) none)
          if fallsBack x ∧ first then (St.ok, (d'.fallbackEvent x).addTo32 Obj.fallbackLayers 1) else (St.ok, d')

/-- STAGE_BIND (R219). -/
def execStageBind (rq : Req) (handle : Nat) (s : State) :=
  onReq s rq (fun d => d.command rq Obj.stageBind handle stageBindEffect)

/-- A stage holds samples, or items of its own wait (R156, R220). -/
def Device.stageBusy (d : Device) (h : Nat) (s : Stage) : Bool :=
  s.fwd.isSome || s.bwd.isSome || s.joins != [] || s.todo != [] || s.gradIn != [] ||
    d.deferred.any (fun q => q.2.any (fun i => i.stage == h))

/-- STAGE_UNBIND (R218, R220). -/
def stageUnbindEffect : Effect := fun d _ h =>
  match tget d.stages h with
  | none => (St.range, d)
  | some s =>
    if !Desc.serving s.desc then (St.range, d)
    else if d.get Obj.powerTransition ≠ 0 then (St.busy, d)
    else if Desc.replica s.desc + 1 ≠ (d.servingOf (Desc.layer s.desc)).length ∨ d.stageBusy h s ∨
        d.laneOpen (Desc.lane s.desc) then (St.busy, d)
    else
      let d := d.unbindStage h
      let gone := s.fallback && (d.servingOf (Desc.layer s.desc)).isEmpty
      (St.ok, d.onlyIf gone (fun d => d.put Obj.fallbackLayers (d.get Obj.fallbackLayers - 1)))

/-- STAGE_UNBIND (R220). -/
def execStageUnbind (rq : Req) (handle : Nat) (s : State) :=
  onReq s rq (fun d => d.command rq Obj.stageUnbind handle stageUnbindEffect)

/-! ### The monitor (R235) -/

/-- A binding is stuck: GENERATOR_STUCK, the detected fault, and the serving samples that draw from it fail. -/
def Device.generatorStuck (d : Device) (b : GenBinding) : Device :=
  let d := (d.raise 0x0802 [a1 b.kind, a4 b.tensor, a1 b.purpose]).detectedFault
  let draws : Stage → Bool := fun s => Desc.serving s.desc && b.kind == 1 && (stageGenerators s.desc).contains (b.tensor, b.purpose)
  let hit := d.streams.filter (fun p => d.stages.any (fun q => draws q.2 && bit p.2.laneMask (Desc.lane q.2.desc)))
  d.each (hit.flatMap (fun p => (p.2.samples.filter (·.open)).map (fun y => (p.1, y.seq)))) (fun d x => d.failSample x.1 x.2 Hb.detectedFault)

/-- A probe of the registry: `probes` are the (binding, 64 bits drawn) whose draw the generators gave otherwise than their
keys say; every other binding draws what its key gives. A draw that is not the one at registration, or that another
binding's probe equals, is a detected fault. -/
def Device.probe (d : Device) (probes : List (Nat × Nat)) : Device :=
  let drawn := (List.range d.bindings.length).map (fun i =>
    match d.bindings[i]? with
    | some b => (b, (tget probes i).getD (probeOf b.key))
    | none => (⟨0, 0, 0, 0, 0, 0, 0⟩, 0))
  let bad := (List.range drawn.length).filter (fun i =>
    match drawn[i]? with
    | some (b, v) => v != b.probe || (List.range drawn.length).any (fun j => j != i &&
        (match drawn[j]? with
         | some (_, w) => w == v
         | none => false))
    | none => false)
  d.each bad (fun d i => match drawn[i]? with
    | some (b, _) => d.generatorStuck b
    | none => d)

/-- GENERATOR_PROBE (R235). -/
def execGeneratorProbe (probes : List (Nat × Nat)) (s : State) := onDev s (fun d => d.probe probes)

end Sys2Proof.Machine
end

