-- ==== Sys2Proof/Machine/Engine.lean ====
section
/-!
DEFINITION. What the engines compute, as functions of their operands: the vector program and its backward (R216, R217),
the exact sums of the arrays (R89 to R97, R107, R113, R120, R142), the weights of a working copy as the forward array and
the backward array take them (R60, R90, R95, R139).
-/
namespace Sys2Proof.Machine

/-! ### Rows of FP32 codes -/

/-- Values with the flags that computing them set. -/
abbrev Row := List Nat × Flags

/-- Flags joined. -/
def orFlags (fs : List Nat) : Flags := fs.foldl (· ||| ·) 0

/-- A binary operation element by element. -/
def row2 (op : Val → Val → Val × Flags) (xs ys : List Nat) : Row :=
  let rs := List.zipWith (f32bin op) xs ys
  (rs.map (·.1), orFlags (rs.map (·.2)))

/-- A binary operation of every element with one value. -/
def rowBy (op : Val → Val → Val × Flags) (xs : List Nat) (y : Nat) : Row :=
  let rs := xs.map (fun x => f32bin op x y)
  (rs.map (·.1), orFlags (rs.map (·.2)))

/-- A function of every element. -/
def row1 (op : Val → Val × Flags) (xs : List Nat) : Row :=
  let rs := xs.map (f32un op)
  (rs.map (·.1), orFlags (rs.map (·.2)))

/-- The difference of two exact values. -/
def Val.sub (a b : Val) : Val × Flags := a.add b.neg

/-- The sum over a row in ascending order from +0, each addition rounded (R217). -/
def rowSum (xs : List Nat) : Nat × Flags :=
  xs.foldl (fun acc x => let r := f32bin Val.add acc.1 x; (r.1, acc.2 ||| r.2)) (0, 0)

/-- The mean: the sum, divided once by C. -/
def rowMean (xs : List Nat) : Nat × Flags :=
  let s := rowSum xs
  let r := f32bin Val.div s.1 (fOfInt xs.length)
  (r.1, s.2 ||| r.2)

/-- The largest finite value of a row, +0 where there is none (R217). -/
def rowMax (xs : List Nat) : Nat :=
  match xs.filter fIsFinite with
  | [] => 0
  | x :: l => l.foldl fmax x

/-- −∞. -/
def fNegInf : Nat := 0xFF80_0000
def fHalf : Nat := 0x3F00_0000
/-- 2^−0.5 and (2π)^−0.5 rounded to FP32. -/
def fRootHalf : Nat := 0x3F35_04F3
def fRoot2Pi : Nat := 0x3ECC_422A

/-- max(x, +0) of R217. -/
def relu (x : Nat) : Nat := if fIsNan x then fNaN else if fNeg x then 0 else x

/-- What a vector-program word needs beside its row: the constants P, the token, the draws of a DROPOUT, the target of the
token, whether it has none, and cg. -/
structure ProgEnv where
  params : Nat → List Nat
  token  : Nat
  draw   : Nat → Nat → Nat
  target : Nat
  cg     : Int

/-- Kept elements of a DROPOUT: the draw is at least floor(IMM × 2^32). -/
def dropKeep (imm r : Nat) : Bool :=
  match floatVal Fmt.fp32 imm with
  | .fin _ n d => n * 2 ^ 32 / d ≤ r
  | _ => true

/-- The factor 1 / (1 − IMM), with the flags of forming it. -/
def dropFactor (imm : Nat) : Nat × Flags :=
  let a := f32bin Val.sub fOne imm
  let b := f32bin Val.div fOne a.1
  (b.1, a.2 ||| b.2)

/-- The sigmoid 1 / (1 + exp(−x)) of a row. -/
def sigmoidRow (xs : List Nat) : Row :=
  let e := row1 Val.exp (xs.map fNegate)
  let p := rowBy Val.add e.1 fOne
  let s := p.1.map (fun y => f32bin Val.div fOne y)
  (s.map (·.1), e.2 ||| p.2 ||| orFlags (s.map (·.2)))

/-- Φ of GELU. -/
def phiRow (xs : List Nat) : Row :=
  let a := rowBy Val.mul xs fRootHalf
  let b := row1 Val.erf a.1
  let c := rowBy Val.add b.1 fOne
  let e := rowBy Val.mul c.1 fHalf
  (e.1, a.2 ||| b.2 ||| c.2 ||| e.2)

/-- softmax of a row. -/
def softmaxRow (xs : List Nat) : Row :=
  let a := rowBy Val.sub xs (rowMax xs)
  let e := row1 Val.exp a.1
  let s := rowSum e.1
  let q := rowBy Val.div e.1 s.1
  (q.1, a.2 ||| e.2 ||| s.2 ||| q.2)

/-- r of RMSNORM and the value it is formed from. -/
def rmsR (xs : List Nat) (imm : Nat) : Nat × Flags :=
  let q := row2 Val.mul xs xs
  let m := rowMean q.1
  let a := f32bin Val.add m.1 imm
  let r := f32un Val.rsqrt a.1
  (r.1, q.2 ||| m.2 ||| a.2 ||| r.2)

/-- x − μ and r of LAYERNORM. -/
def layerR (xs : List Nat) (imm : Nat) : List Nat × Nat × Flags :=
  let m := rowMean xs
  let dv := rowBy Val.sub xs m.1
  let r := rmsR dv.1 imm
  (dv.1, r.1, m.2 ||| dv.2 ||| r.2)

/-- XENT's loss of a row (R216, R217). -/
def xentLoss (xs : List Nat) (target : Nat) : Nat × Flags :=
  if target = 0xFFFF_FFFF then (0, 0)
  else if xs.length ≤ target then (fNaN, 0)
  else
    let m := rowMax xs
    let a := rowBy Val.sub xs m
    let e := row1 Val.exp a.1
    let s := rowSum e.1
    let l := f32un Val.log s.1
    let b := f32bin Val.add l.1 m
    let c := f32bin Val.sub b.1 (xs.getD target 0)
    (c.1, a.2 ||| e.2 ||| s.2 ||| l.2 ||| b.2 ||| c.2)

/-- One word of the vector program on a row (R216, Forward column). -/
def progOp (env : ProgEnv) (op arg imm : Nat) (xs : List Nat) : Row :=
  if op = 0x01 then rowBy Val.mul xs imm
  else if op = 0x02 then row2 Val.add xs (env.params arg)
  else if op = 0x03 then row2 Val.mul xs (env.params arg)
  else if op = 0x04 then
    let r := rmsR xs imm
    let y := rowBy Val.mul xs r.1
    (y.1, r.2 ||| y.2)
  else if op = 0x05 then
    let (dv, r, f) := layerR xs imm
    let y := rowBy Val.mul dv r
    (y.1, f ||| y.2)
  else if op = 0x06 then (xs.map relu, orFlags (xs.map (fun x => sigFlag (floatVal Fmt.fp32 x))))
  else if op = 0x07 then
    let s := sigmoidRow xs
    let y := row2 Val.mul xs s.1
    (y.1, s.2 ||| y.2)
  else if op = 0x08 then
    let p := phiRow xs
    let y := row2 Val.mul xs p.1
    (y.1, p.2 ||| y.2)
  else if op = 0x09 then softmaxRow xs
  else if op = 0x0A then
    ((List.range xs.length).map (fun c => if env.token + arg < c then fNegInf else xs.getD c 0), 0)
  else if op = 0x0B then
    let k := dropFactor imm
    let ys := (List.range xs.length).map (fun c =>
      if dropKeep imm (env.draw arg c) then f32bin Val.mul (xs.getD c 0) k.1 else (0, 0))
    (ys.map (·.1), k.2 ||| orFlags (ys.map (·.2)))
  else if op = 0x10 then
    let l := xentLoss xs env.target
    ([l.1], l.2)
  else (xs, 0)

/-- The program's words on a row, with the row each word received, last word first. -/
def progTrace (x : Nat) (env : ProgEnv) (row : List Nat) : List (Nat × List Nat) × List Nat × Flags :=
  (List.range ((Desc.programLength x).getD 0)).foldl (fun acc i =>
    let r := progOp env (Desc.opcode x i) (Desc.opArg x i) (Desc.opImm x i) acc.2.1
    ((i, acc.2.1) :: acc.1, r.1, acc.2.2 ||| r.2)) ([], row, 0)

/-- The program's result on a row. -/
def progRow (x : Nat) (env : ProgEnv) (row : List Nat) : Row := let t := progTrace x env row; (t.2.1, t.2.2)

/-- One word's backward (R216, Backward column): the row the word received and the gradient that arrives. -/
def progBack (env : ProgEnv) (op arg imm : Nat) (xs gs : List Nat) : Row :=
  if op = 0x01 then rowBy Val.mul gs imm
  else if op = 0x03 then row2 Val.mul gs (env.params arg)
  else if op = 0x04 then
    let r := rmsR xs imm
    let y := rowBy Val.mul xs r.1
    let gy := row2 Val.mul gs y.1
    let m := rowMean gy.1
    let ym := rowBy Val.mul y.1 m.1
    let t := row2 Val.sub gs ym.1
    let z := rowBy Val.mul t.1 r.1
    (z.1, r.2 ||| y.2 ||| gy.2 ||| m.2 ||| ym.2 ||| t.2 ||| z.2)
  else if op = 0x05 then
    let (dv, r, f) := layerR xs imm
    let y := rowBy Val.mul dv r
    let mg := rowMean gs
    let gy := row2 Val.mul gs y.1
    let m := rowMean gy.1
    let a := rowBy Val.sub gs mg.1
    let ym := rowBy Val.mul y.1 m.1
    let t := row2 Val.sub a.1 ym.1
    let z := rowBy Val.mul t.1 r
    (z.1, f ||| y.2 ||| mg.2 ||| gy.2 ||| m.2 ||| a.2 ||| ym.2 ||| t.2 ||| z.2)
  else if op = 0x06 then
    (List.zipWith (fun x g => if !fIsNan x && !fNeg x && fAbs x != 0 then g else 0) xs gs, 0)
  else if op = 0x07 then
    let s := sigmoidRow xs
    let o := s.1.map (fun v => f32bin Val.sub fOne v)
    let p := row2 Val.mul xs (o.map (·.1))
    let q := rowBy Val.add p.1 fOne
    let w := row2 Val.mul s.1 q.1
    let z := row2 Val.mul gs w.1
    (z.1, s.2 ||| orFlags (o.map (·.2)) ||| p.2 ||| q.2 ||| w.2 ||| z.2)
  else if op = 0x08 then
    let p := phiRow xs
    let a := rowBy Val.mul xs (fNegate fHalf)
    let b := row2 Val.mul a.1 xs
    let e := row1 Val.exp b.1
    let c := rowBy Val.mul e.1 fRoot2Pi
    let m := row2 Val.mul xs c.1
    let t := row2 Val.add p.1 m.1
    let z := row2 Val.mul gs t.1
    (z.1, p.2 ||| a.2 ||| b.2 ||| e.2 ||| c.2 ||| m.2 ||| t.2 ||| z.2)
  else if op = 0x09 then
    let y := softmaxRow xs
    let gy := row2 Val.mul gs y.1
    let s := rowSum gy.1
    let a := rowBy Val.sub gs s.1
    let z := row2 Val.mul y.1 a.1
    (z.1, y.2 ||| gy.2 ||| s.2 ||| a.2 ||| z.2)
  else if op = 0x0A then
    ((List.range gs.length).map (fun c => if env.token + arg < c then 0 else gs.getD c 0), 0)
  else if op = 0x0B then
    let k := dropFactor imm
    let ys := (List.range gs.length).map (fun c =>
      if dropKeep imm (env.draw arg c) then f32bin Val.mul (gs.getD c 0) k.1 else (0, 0))
    (ys.map (·.1), k.2 ||| orFlags (ys.map (·.2)))
  else if op = 0x10 then
    if env.target = 0xFFFF_FFFF then (xs.map (fun _ => 0), 0)
    else
      let s := softmaxRow xs
      let hot := (List.range xs.length).map (fun c =>
        if c = env.target then f32bin Val.sub (s.1.getD c 0) fOne else (s.1.getD c 0, 0))
      let k := f32bin Val.mul imm (fPow2 env.cg)
      let z := rowBy Val.mul (hot.map (·.1)) k.1
      (z.1, s.2 ||| orFlags (hot.map (·.2)) ||| k.2 ||| z.2)
  else (gs, 0)

/-- The backward of the whole program: reverse order, from the gradient that arrives at its last word. -/
def progGrad (x : Nat) (env : ProgEnv) (row gs : List Nat) : Row :=
  (progTrace x env row).1.foldl (fun acc t =>
    let r := progBack env (Desc.opcode x t.1) (Desc.opArg x t.1) (Desc.opImm x t.1) t.2 acc.1
    (r.1, acc.2 ||| r.2)) (gs, 0)

/-! ### Exact sums -/

/-- The exact sum of products, and invalid where one is (R113, R120, R142). -/
def dotExact (ps : List (Val × Val)) : Val × Flags :=
  ps.foldl (fun acc p =>
    let m := Val.mul p.1 p.2
    let a := Val.add acc.1 m.1
    (a.1, acc.2 ||| m.2 ||| a.2)) (.fin false 0 1, 0)

/-- The exact sum rounded once to FP32. -/
def dotRound (ps : List (Val × Val)) : Nat × Flags :=
  let s := dotExact ps
  let c := toFloat Fmt.fp32 .rne s.1
  (c.code, s.2 ||| c.flags)

/-- Sums of blocks of `k` products, each rounded once, accumulated from +0 in ascending order (R113, R120, R142). -/
def blockDot (k : Nat) (ps : List (Val × Val)) : Nat × Flags :=
  (chunks k (ps.length + 1) ps).foldl (fun acc b =>
    let s := dotRound b
    let a := f32bin Val.add acc.1 s.1
    (a.1, acc.2 ||| s.2 ||| a.2)) (0, 0)

/-! ### Working-copy tiles (R60, R90, R95, R97) -/

/-- Planes stored for a format. -/
def planesOf (f : Nat) : Nat := if f = Fmt.e2m1 ∨ f = Fmt.cb16 then 4 else fmtBits f

/-- Bytes of one column sum. -/
def sumBytes (f : Nat) : Nat := if fmtBits f ≤ 8 ∧ f ≠ Fmt.e2m1 ∧ f ≠ Fmt.cb16 then 2 else 4

/-- Bytes of a tile. -/
def tileBytes (f : Nat) : Nat :=
  if f = Fmt.bf16 then 65536 + 32 else planesOf f * 4096 + 128 * sumBytes f + 32

/-- Where the trailer of a tile starts. -/
def trailerAt (f : Nat) : Nat := tileBytes f - 32

/-- The weight code of input channel `i` and output column `o` of a tile. -/
def tileCode (tile : Bytes) (f i o : Nat) : Nat :=
  if f = Fmt.bf16 then leAt tile (2 * (o * 256 + i)) 2
  else
    let j := o * 256 + i
    (List.range (planesOf f)).foldl (fun v p => v + (bit (leAt tile (p * 4096 + j / 8) 1) (j % 8)).toNat * 2 ^ p) 0

/-- A column sum. -/
def columnSum (tile : Bytes) (f o : Nat) : Int :=
  let n := sumBytes f
  toSigned (8 * n) (leAt tile (planesOf f * 4096 + n * o) n)

/-- SEQ_TAG and FORMAT of a tile's trailer. -/
def trailerTag (tile : Bytes) (f : Nat) : Nat := leAt tile (trailerAt f) 1 % 64
def trailerFmt (tile : Bytes) (f : Nat) : Nat := leAt tile (trailerAt f + 1) 1

/-- A codebook in the array (R95): the aligned integers, e_cb, the entries rounded and those that are not finite. -/
structure Codebook where
  ints   : List Int
  exp    : Int
  rounds : Nat
  bad    : List Nat

/-- The unbiased exponent of a BF16 entry. -/
def bf16Exp (c : Nat) : Int :=
  match floatVal Fmt.bf16 c with
  | .fin _ n d => if n = 0 then -1000 else log2Floor n d
  | _ => -1000

/-- R95. -/
def codebookOf (entries : List Nat) : Codebook :=
  let finite : Nat → Bool := fun c => match floatVal Fmt.bf16 c with
    | .fin _ _ _ => true
    | _ => false
  let top := (entries.filter finite).foldl (fun e c => max e (bf16Exp c)) (-1000)
  let one : Nat → Int × Bool := fun c => match floatVal Fmt.bf16 c with
    | .fin neg n d =>
      let (a, b) := scale2 n d (14 - top)
      roundInt .rne neg a b
    | _ => (0, false)
  let rs := entries.map one
  let bad := (List.range entries.length).filter (fun k => !finite (entries.getD k 0))
  if top = -1000 then ⟨entries.map (fun _ => 0), 0, 0, bad⟩
  else ⟨rs.map (·.1), top - 14, (rs.filter (·.2)).length, bad⟩

/-- Nonzero entries of a codebook that its alignment makes 0 (R95 step 4). -/
def Codebook.vanished (b : Codebook) (entries : List Nat) : Nat :=
  ((List.range entries.length).filter (fun k => !b.bad.contains k && bits (entries.getD k 0) 0 15 != 0 && b.ints.getD k 0 == 0)).length

/-- The fixed codebook of E2M1 (R95): 4,096 × value. -/
def e2m1Book : Codebook :=
  ⟨(List.range 16).map (fun k => match floatVal Fmt.e2m1 k with
      | .fin neg n d => let v : Int := (n * 4096 / d : Nat); if neg then -v else v
      | _ => 0), -12, 0, []⟩

/-- w_arr of a code (R90). -/
def wArr (f : Nat) (book : Codebook) (code : Nat) : Int :=
  if f = Fmt.e2m1 ∨ f = Fmt.cb16 then book.ints.getD code 0
  else if fmtIsUnsigned f then (code : Int) - (2 ^ (fmtBits f - 1) : Nat)
  else intVal f code

/-- Zw (R90). -/
def wZero (f z : Nat) : Int := if fmtIsUnsigned f then (z : Int) - (2 ^ (fmtBits f - 1) : Nat) else 0

/-- Za (R89). -/
def aZero (f : Nat) : Int := if f = Fmt.int8 then 128 else 8

/-- The effective planes of a code's column that are not all 0 in a tile (R90, R101): `n(o, j)`. -/
def livePlanes (tile : Bytes) (f o : Nat) : Nat :=
  if f = Fmt.e2m1 ∨ f = Fmt.cb16 then 4
  else
    let b := planesOf f
    let plane : Nat → Nat → Bool := fun p i =>
      let c := tileCode tile f i o
      if f = Fmt.ternary then (if p = 0 then bit c 0 else bit c 0 && bit c 1)
      else if fmtIsUnsigned f && p + 1 == b then !bit c p
      else bit c p
    ((List.range b).filter (fun p => (List.range 256).any (plane p))).length

/-- X of R107 for one token, column and tile: `codes` are the token's activation codes of the tile, missing ones 0. -/
def tileX (f af : Nat) (book : Codebook) (zw : Int) (tile : Bytes) (codes : List Int) (o : Nat) : Int :=
  let za := aZero af
  let au : Nat → Int := fun i => codes.getD i 0 + za
  let a := (List.range 256).foldl (fun s i => s + wArr f book (tileCode tile f i o) * au i) 0
  let r := (List.range 256).foldl (fun s i => s + au i) 0
  a - za * columnSum tile f o - zw * r + 256 * zw * za

/-! ### Weights and activations in the backward array (R139, R140) -/

/-- The value of a weight code less its zero point, before the scale: of an integer format, E2M1 or CB16. -/
def weightVal (f z : Nat) (entries : List Nat) (code : Nat) : Val :=
  if f = Fmt.cb16 then floatVal Fmt.bf16 (entries.getD code 0)
  else codeVal f code z

/-- `2^z` as an exact value. -/
def pow2Val (z : Int) : Val := let (a, b) := scale2 1 1 z; .fin false a b

/-- A scale times an exact value, rounded once to BF16 (R139, R140). -/
def bf16Weight (s : Nat) (v : Val) : Conv :=
  let m := Val.mul (floatVal Fmt.fp32 s) v
  let c := toFloat Fmt.bf16 .rne m.1
  { c with flags := c.flags ||| m.2 }

/-- Expansion by scale and zero point (R78): FP32 first, then E4M3. The FP32 value before the factor `2^c` is what a
tracker gathers. -/
def e4m3Scale (mode : Rounding) (s : Nat) (c : Int) (v : Val) : Conv :=
  let sc := toFloat Fmt.fp32 .rne (Val.mul (floatVal Fmt.fp32 s) (pow2Val c)).1
  let m := Val.mul (floatVal Fmt.fp32 sc.code) v
  let x := toFloat Fmt.fp32 .rne m.1
  let r := convF32 Fmt.e4m3 mode x.code
  { r with flags := r.flags ||| x.flags ||| m.2 }

end Sys2Proof.Machine
end

