-- ==== Sys2Proof/Machine/Stats.lean ====
section
/-!
DEFINITION. What conversions leave behind: the statistics records (R168 to R171), the scale trackers (R151 to R153), the
numeric traps of AUDIT streams (R173, R174), and scale skew (R62, R109).
-/
namespace Sys2Proof.Machine

/-! ### Statistics -/

/-- floor(log2) of a positive exact value. -/
def valExp : Val → Option Int
  | .fin _ n d => if n = 0 then none else some (log2Floor n d)
  | _ => none

/-- The base of a format (R170). The table gives CB16 none: its base is a free value (log entry 94). -/
def statBase (f : Nat) : Int :=
  if f = Fmt.fp32 ∨ f = Fmt.bf16 then -15
  else if f = Fmt.fp16 ∨ f = Fmt.e5m2 then -16
  else if f = Fmt.e4m3 then -9
  else if f = Fmt.e2m1 then -1
  else if f = Fmt.cb16 then Config.codebookBase
  else 0

/-- The histogram bin of a result's value (R170). -/
def statBinOf (f : Nat) (v : Val) (o : ConvOutcome) : Nat :=
  if o = .nonFinite then 31
  else match v with
    | .fin neg n d =>
      (match valExp (.fin neg n d) with
       | none => 0
       | some e => 1 + (min (max (e - statBase f) 0) 29).toNat)
    | _ => 31

/-- The histogram bin of a code (R170); `z` is the zero point of an integer code. -/
def statBin (f z : Nat) (code : Nat) (o : ConvOutcome) : Nat := statBinOf f (codeVal f code z) o

/-- The bytes of one slot of the ring (R171). -/
def Device.slotBytes (d : Device) : Nat := 64 + 192 * d.run.stats.length

/-- Where the open take's slot starts. -/
def Device.slotBase (d : Device) (take : Nat) : Nat := (take % d.get Obj.statsSlots) * d.slotBytes

/-- A field of an object increased. -/
def Device.addField (d : Device) (h off n v : Nat) : Device := d.writeNat h off n (d.readNat h off n + v)

/-- A 32-bit bin or count increased; it stays at its top (R169). -/
def Device.addSat (d : Device) (h off v : Nat) : Device := d.writeNat h off 4 (min 0xFFFF_FFFF (d.readNat h off 4 + v))

/-- A conversion of one format as a record counts it: code and outcome. -/
abbrev Counted := List (Nat × ConvOutcome)

/-- Conversions counted against the record of a tensor and a format (R168, R169). -/
def Device.count (d : Device) (tensor f z : Nat) (cs : Counted) : Device :=
  match d.run.take, d.run.stats.findIdx? (fun r => r == (tensor, f)) with
  | some t, some i =>
    let h := d.get Obj.statsObject
    let at_ := d.slotBase t.number + 64 + 192 * i
    let n : ConvOutcome → Nat := fun o => (cs.filter (fun c => c.2 == o)).length
    let d := ((((d.addField h (at_ + 8) 8 cs.length).addField h (at_ + 16) 8 (n .zero)).addField h (at_ + 24) 8
      (n .saturation)).addField h (at_ + 32) 8 (n .nonFinite)).addField h (at_ + 40) 8 (n .vanishing)
    (List.range 32).foldl (fun d k =>
      let m := (cs.filter (fun c => statBin f z c.1 c.2 == k)).length
      if m = 0 then d else d.addSat h (at_ + 48 + 4 * k) m) d
  | _, _ => d

/-- The outcomes and flags of a working copy's writing count against the take that first reads it (R132, R172). -/
def Device.firstRead (d : Device) (layer : Nat) : Device :=
  match tget d.run.wcCounts layer, d.run.take with
  | some (tensor, f, flags, ns), some t =>
    let d := (d.onRun (fun r => { r with wcCounts := tdel r.wcCounts layer })).takeFlags 6 flags
    (match d.run.stats.findIdx? (fun r => r == (tensor, f)) with
     | some i =>
       let h := d.get Obj.statsObject
       let at_ := d.slotBase t.number + 64 + 192 * i
       let d := (List.range 5).foldl (fun d k => d.addField h (at_ + 8 + 8 * k) 8 (ns.getD k 0)) d
       (List.range 32).foldl (fun d k => if ns.getD (5 + k) 0 = 0 then d else d.addSat h (at_ + 48 + 4 * k) (ns.getD (5 + k) 0)) d
     | none => d)
  | _, _ => d

/-! ### Scale trackers -/

/-- The byte where a tracker's entry starts. -/
def trackerAt (e : Nat) : Nat := 320 * e

/-- CURRENT_EXP of a tracker. -/
def Device.trackerExp (d : Device) (e : Nat) : Int :=
  toSigned 8 (d.readNat (d.get Obj.trackerTableObject) (trackerAt e + 8) 1)

/-- What conversions add to a tracker (R153): the FP32 inputs' magnitudes by maximum over the finite ones, and the
outcomes. -/
def Device.track (d : Device) (e : Nat) (inputs : List Nat) (cs : Counted) : Device :=
  let h := d.get Obj.trackerTableObject
  let b := trackerAt e
  let top := (inputs.filter fIsFinite).foldl (fun m x => max m (fAbs x)) (d.readNat h (b + 12) 4)
  let n : ConvOutcome → Nat := fun o => (cs.filter (fun c => c.2 == o)).length
  let d := if inputs.isEmpty then d else d.onRun (fun r => { r with trackersSeen := if r.trackersSeen.contains e then r.trackersSeen else e :: r.trackersSeen })
  ((d.writeNat h (b + 12) 4 top).addSat h (b + 16) (n .saturation)).addSat h (b + 20) (n .vanishing)

/-! ### Traps -/

/-- Where in a sample a non-finite result stands. The chapters number the operations of the converter (R84) and of the Lapidary only:
those of another engine have no number here, and its OPERATION in a trap record is open (DESIGN CHOICE, log entry 122). -/
structure Site where
  engine  : Nat
  op      : Option Nat := none
  outTile : Nat := 0
  inTile  : Nat := 0
  token   : Nat := 0
  channel : Nat := 0

/-- A serving sample whose work goes on. -/
def Device.inFlight (d : Device) (stream seq : Nat) : Bool :=
  match tget d.streams stream with
  | some x => x.samples.any (fun y => y.seq == seq && y.ending.isNone)
  | none => false

/-- A trap record (R174) at TRAP_NEXT, NAN_TRAP, and the halt of the AUDIT stream (R173). The sample that trapped ends with
its trap as the cause; one that has ended traps no more. -/
def Device.trap (d : Device) (h : Nat) (s : Stage) (stream seq : Nat) (site : Site) (isNan : Bool) : Device :=
  if !d.inFlight stream seq then d
  else
  let i := d.get Obj.trapNext
  let (k, d) := match site.op with
    | some n => (n, d)
    | none => let (n, d) := d.draw; (Config.unstated n % 2 ^ 12, d)
  let rec64 := fld (stream % 2 ^ 15) 0 + fld site.engine 16 + fld (if isNan then 0 else 1) 24 + fld seq 32 +
    fld (Desc.layer s.desc) 96 + fld h 128 + fld s.core 160 + fld k 176 + fld site.outTile 192 + fld site.inTile 208 +
    fld site.token 224 + fld site.channel 240 + fld d.mono 256
  let d := ((d.put (Obj.trapRecord + i) rec64).put Obj.trapNext ((i + 1) % 64)).bump Obj.trapsTotal
  let d := d.endSample stream seq ⟨St.ok, if isNan then 1 else 2, 0xFF⟩
  (d.haltStream stream).raiseStreamFrom (s.core / 256) 0x0601 stream [a8 seq, a1 i]

/-- The class of a stream. -/
def Device.classOf (d : Device) (stream : Nat) : Nat :=
  match tget d.streams stream with
  | some x => x.cls
  | none => 0

/-- Where the conversion of an engine's result first is not finite: at the engine where its result is a NaN or infinite, else at the
converter, whose CONVERT has overflowed (R174). -/
def Site.converted (s : Site) (raw : Nat) : Site := if fIsFinite raw then { s with engine := 0, op := some 1 } else s

/-- A conversion's first non-finite result is infinite: the engine's result, or what the converter made of a finite one. -/
def infiniteResult (f raw code : Nat) : Bool := if fIsFinite raw then fIsInf (toF32 f code) else fIsInf raw

/-- The first element of a row that is not finite traps an AUDIT stream, at the engine that computed the row (R173). -/
def Device.trapRow (d : Device) (h : Nat) (s : Stage) (w : Fwd) (row : List Nat) (site : Nat → Site) : Device :=
  if w.stream = 0 ∨ w.recompute.isSome ∨ d.classOf w.stream ≠ clsAudit then d
  else match row.findIdx? (fun x => !fIsFinite x) with
    | none => d
    | some i => d.trap h s w.stream w.seq (site i) (!fIsInf (row.getD i 0))

/-- Results of a stage's work on a sample, as codes of a format with where each stands and whether what was converted is
infinite. The first one that is not finite traps an AUDIT stream (R173); in training the outcomes charge their bit (R178)
and count; other serving outputs go on. -/
def Device.results (d : Device) (h : Nat) (s : Stage) (w : Fwd) (tensor f z bit_ : Nat) (site : Nat → Site)
    (infinite : Nat → Bool) (cs : List Conv) : Device :=
  if w.recompute.isSome then d
  else
    let d := d.coreFlags s 0 (orFlags (cs.map (·.flags)))
    if w.stream = 0 then
      let bad := cs.any (fun c => c.outcome == .nonFinite)
      let d := d.count tensor f z (cs.map (fun c => (c.code, c.outcome)))
      if bad then d.chargeBit bit_ else d
    else
      match cs.findIdx? (fun c => c.outcome == .nonFinite) with
      | none => d
      | some i =>
        if d.classOf w.stream = clsAudit then d.trap h s w.stream w.seq (site i) (!infinite i)
        else d

/-! ### Scale skew -/

/-- SCALE_SKEW (R62, R109): counted and raised by the compute die the engine lies on (R396); the collective engines raise it as the
hub does (DESIGN CHOICE, log entry 129). It discards the take, or fails the serving sample. -/
def Device.scaleSkew (d : Device) (source layer tensor expected found stream turn seq : Nat) : Device :=
  let d := (d.bump Obj.scaleSkewCount).raiseFrom source 0x0607 [a4 layer, a4 tensor, a1 expected, a1 found, a8 turn]
  if stream = 0 then d.chargeBit Hb.scaleSkew else d.failSample stream seq Hb.scaleSkew

end Sys2Proof.Machine
end

