-- ==== Sys2Proof/Machine/Forward.lean ====
section
/-!
DEFINITION. The forward of a sample through the bound stages: its input (R388, R389), the joins (R223, R224), the vector
program (R216), the quantiser (R111, R118, R123, R130), the tile operations of the forward array and the side unit (R100
to R109, R113, R120 to R122), dailies (R175 to R177) and what a stage hands on.
-/
namespace Sys2Proof.Machine

/-! ### Stages and samples -/

/-- The forward of a stage changed. -/
def Device.onFwd (d : Device) (h : Nat) (f : Fwd → Fwd) : Device := d.onStage h (fun s => { s with fwd := s.fwd.map f })

/-- Stages that serve or train, of one layer. -/
def Device.layerStages (d : Device) (kind layer : Nat) : List (Nat × Stage) :=
  d.stages.filter (fun p => Desc.kind p.2.desc == kind && Desc.layer p.2.desc == layer)

/-- The replica of a layer that takes sample `i` (R218). -/
def Device.replicaFor (d : Device) (kind layer i : Nat) : Option (Nat × Stage) :=
  let l := d.layerStages kind layer
  if l.isEmpty then none else l.find? (fun p => Desc.replica p.2.desc == i % l.length)

/-- The turn a sample's generators count at: the take, or the sequence number (R233). -/
def Fwd.turn (w : Fwd) : Nat := if w.stream = 0 then w.take else w.seq
/-- The sample index of an element's counter (R233). -/
def Fwd.index (w : Fwd) : Nat := if w.stream = 0 then w.seq else 0

/-- A serving sample in flight. -/
def Device.sampleOf (d : Device) (stream seq : Nat) : Option Sample :=
  (tget d.streams stream).bind (fun x => x.samples.find? (fun y => y.seq == seq))

/-- The input entry of a sample. -/
def Device.entryOf (d : Device) (stream seq : Nat) : Nat :=
  if stream = 0 then (d.run.take.bind (fun t => tget t.entries seq)).getD 0
  else ((d.sampleOf stream seq).map (·.entry)).getD 0

/-- The key of a stage's generator entry `i` for a sample: in serving, the one its stream keeps (R232). -/
def Device.entryKey (d : Device) (h : Nat) (s : Stage) (stream i : Nat) : Nat :=
  let p := Desc.purpose s.desc i
  let k := d.genKey stream (stageTensor s.desc p (Desc.genTensor s.desc i)) p
  if stream = 0 then k
  else match tget d.streams stream with
    | some x => tgetD x.keys (4 * h + i) k
    | none => k

/-- The key of a purpose at a stage. -/
def Device.purposeKey (d : Device) (h : Nat) (s : Stage) (stream p : Nat) : Nat :=
  match (List.range 4).find? (fun i => Desc.purpose s.desc i == p) with
  | some i => d.entryKey h s stream i
  | none => 0

/-- A rounding field with the draw of its element. -/
def rounding (field key a e : Nat) : Rounding := if field = 1 then .sr (draw16 key a e) else .rne

/-- The position of an element in a stage tensor (R233). -/
def elementIx (x sample token c width : Nat) : Nat := (sample * Desc.tokensMax x + token) * width + c

/-- The target of a token (R217): from the sample's input entry; none where it carries no targets. -/
def Device.targets (d : Device) (entry tokens : Nat) : List Nat :=
  let h := bits entry 224 32
  if h = noObject then List.replicate tokens 0xFFFF_FFFF
  else (List.range tokens).map (fun t => d.readNat h (bits entry 256 64 + 4 * t) 4)

/-- The object a sample's targets are in, where a loss stage reads it. -/
def targetObject (x entry : Nat) : List Nat := if Desc.lossStage x ∧ bits entry 224 32 ≠ noObject then [bits entry 224 32] else []

/-- The object a stage's program takes its vectors from, where it has an operation that reads one. -/
def programObject (x : Nat) : List Nat :=
  if (List.range ((Desc.programLength x).getD 0)).any (fun i => Desc.opcode x i == 0x02 || Desc.opcode x i == 0x03) then
    [Desc.paramObject x] else []

/-- What a stage's vector program reads beside its row. -/
def Device.progEnv (d : Device) (h : Nat) (s : Stage) (stream turn sample token : Nat) (target : Nat) : ProgEnv :=
  let x := s.desc
  let c := Desc.inChannels x
  { params := fun arg => (List.range c).map (fun i => d.readNat (Desc.paramObject x) (64 * arg + 4 * i) 4)
    token := token
    draw := fun arg i => draw32 (d.entryKey h s stream arg) turn (elementIx x sample token i c)
    target := target
    cg := (d.run.take.map (·.cg)).getD 0 }

/-! ### Rows in memory -/

/-- Bytes of a row. -/
def rowBytes (f c : Nat) : Nat := ceilDiv (c * fmtBits f) 8

/-- A code of IN_FORMAT as FP32 (R211). -/
def inToF32 (f code : Nat) : Nat := if fmtIsFloat f then toF32 f code else fOfInt (intVal f code)

/-- The rows of a sample's data (R387) as codes of IN_FORMAT. -/
def Device.rowCodes (d : Device) (x entry : Nat) : List (List Nat) :=
  let f := Desc.inFormat x
  let c := Desc.inChannels x
  (List.range (bits entry 96 16)).map (fun t =>
    unpackBits (fmtBits f) c (d.readBytes (bits entry 64 32) (bits entry 128 64 + t * rowBytes f c) (rowBytes f c)))

/-- The rows of a sample's data (R387), as FP32, with the flags that reading them sets in the vector engine (R54). -/
def Device.loadRows (d : Device) (x entry : Nat) : List (List Nat) × Flags :=
  let f := Desc.inFormat x
  let rows := d.rowCodes x entry
  (rows.map (fun r => r.map (inToF32 f)), orFlags (rows.flatMap (fun r => r.map (readFlags f))))

/-- The bytes of a sample's data. -/
def Device.sampleData (d : Device) (entry : Nat) : Bytes := d.readBytes (bits entry 64 32) (bits entry 128 64) (bits entry 192 32)

/-- An input entry keeps R387 at a LANE_FIRST stage. -/
def Device.entryOk (d : Device) (x entry : Nat) : Bool :=
  let tokens := bits entry 96 16
  let generic : Nat → Nat → Nat → Bool := fun h off n => match d.entry h with
    | some e => e.kind == 0 && off + n ≤ e.size * blockBytes
    | none => false
  bits entry 112 15 == 0 && bits entry 352 160 == 0 && 1 ≤ tokens && tokens ≤ Desc.tokensMax x &&
    bits entry 192 32 == tokens * rowBytes (Desc.inFormat x) (Desc.inChannels x) &&
    generic (bits entry 64 32) (bits entry 128 64) (bits entry 192 32) &&
    (if bits entry 224 32 = noObject then bits entry 320 32 == 0
     else bits entry 320 32 == 4 * tokens && generic (bits entry 224 32) (bits entry 256 64) (bits entry 320 32))

/-- The objects an input entry names: its data and its targets. -/
def entryObjects (entry : Nat) : List Nat := [bits entry 64 32, bits entry 224 32]

/-- Input objects are pinned until the sample list they belong to prints or is skipped (R182), each once. One that carries 255 pins
takes no more (DESIGN CHOICE, log entry 112). -/
def Device.pinRetake (d : Device) (hs : List Nat) : Device :=
  d.each hs.eraseDups (fun d h =>
    if d.run.retakePins.contains h ∨ !((d.entry h).map (fun e => decide (e.pins < 255))).getD false then d
    else (d.addPin h).onRun (fun r => { r with retakePins := r.retakePins ++ [h] }))

/-- Entry `k` of an input ring. -/
def Device.ringEntry (d : Device) (h k : Nat) : Nat := d.readNat h (64 + (k % d.ringEntries h) * 64) 64

/-- The target bytes an entry names. -/
def Device.targetBytes (d : Device) (entry : Nat) : Bytes :=
  if bits entry 224 32 = noObject then [] else d.readBytes (bits entry 224 32) (bits entry 256 64) (bits entry 320 32)

/-! ### Joins (R224) -/

/-- Deliveries of a sample in ascending order of LANE, then LANE_POSITION. -/
def insertDelivery (x : Delivery) : List Delivery → List Delivery
  | [] => [x]
  | y :: l => if x.lane < y.lane ∨ (x.lane = y.lane ∧ x.pos ≤ y.pos) then x :: y :: l else y :: insertDelivery x l

/-- Rows joined: end to end, summed in FP32 from the first, or as they are; with the flags of the sums. -/
def joinRows (mode : Nat) (ds : List Delivery) : List (List Nat) × Flags :=
  match ds with
  | [] => ([], 0)
  | a :: rest =>
    if mode = 1 then (rest.foldl (fun acc b => List.zipWith (· ++ ·) acc b.rows) a.rows, 0)
    else if mode = 2 then rest.foldl (fun acc b =>
      let s := List.zipWith (row2 Val.add) acc.1 b.rows
      (s.map (·.1), acc.2 ||| orFlags (s.map (·.2)))) (a.rows, 0)
    else (a.rows, 0)

/-- A stage that is parked or has failed does nothing (R264). -/
def Stage.stalled (s : Stage) : Bool := s.state == .parked || s.state == .failed

/-- A core's clock stands still, its cluster is retired (R24), its die is lost (R332), or the rail that feeds it has failed (R415). -/
def Device.coreStopped (d : Device) (core : Nat) : Bool :=
  d.pwr.hold || d.retired (core / 256) (core / 8 % 32) || d.lostUnit (10 + core / 256) || d.partOff (core / 256)

/-- A stage's engines do nothing for it now. -/
def Device.halts (d : Device) (s : Stage) : Bool := s.stalled || d.coreStopped s.core

/-- A ready stage that is granted the issue unit runs (R264). -/
def Device.grant (d : Device) (h : Nat) : Device :=
  d.onStage h (fun s => { s with state := if s.state = .ready then .running else s.state })

/-- Operands of a stage are still on their way from the fast tier (R221, R266). -/
def Stage.fetching (s : Stage) : Bool := !s.transfers.isEmpty

/-- A stage may start a sample: it works on one at a time, forward or backward (R27). -/
def Stage.free (s : Stage) : Bool := s.fwd.isNone && s.bwd.isNone && (s.state == .running || s.state == .ready)

/-- A core lies on a cluster whose drain is in progress (R480). -/
def Device.drainsAt (d : Device) (core : Nat) : Bool :=
  match d.svc.job with
  | some j => j.command == 1 && j.cluster == 17 * (core / 256) + core / 8 % 32
  | none => false

/-- The sample a stage takes next: the head of its serving samples, but none while its cluster is drained (R480), or its
next index of the open take; none while its core stands still. -/
def Device.nextSample (d : Device) (s : Stage) : Option (Nat × Nat) :=
  if d.coreStopped s.core then none
  else if Desc.serving s.desc then (if d.drainsAt s.core then none else s.todo.head?)
  else if d.takeOpen then some (0, s.nextIx) else none

/-- How far apart the sample indices of a stage lie: the replicas of its layer. -/
def Device.stride (d : Device) (s : Stage) : Nat := max 1 (d.layerStages 0 (Desc.layer s.desc)).length

/-- The next sample index a stage takes. -/
def Device.stepIx (d : Device) (s : Stage) : Nat := s.nextIx + d.stride s

/-- A row of FP32 values as it arrived, in IN_FORMAT (R159): every such value is one of that format. -/
def stashRow (f : Nat) (row : List Nat) : Bytes :=
  packBits (fmtBits f) (row.map (fun x => if fmtIsFloat f then (convF32 f .rne x).code
    else match floatVal Fmt.fp32 x with
      | .fin neg n d => intCode f (roundInt .rne neg n d).1
      | _ => 0))

/-- The lowest place of `n` bytes in `lo` to `hi` that meets none of some extents: it begins at `lo` or where one ends. -/
def firstFit (lo hi n : Nat) (used : List (Nat × Nat)) : Option Nat :=
  ((lo :: used.map (fun u => u.1 + u.2)).filter (fun a => lo ≤ a && a + n ≤ hi &&
    !used.any (fun u => u.1 < a + n && a < u.1 + u.2))).foldl (fun best a => match best with
      | none => some a
      | some b => some (min a b)) none

/-- An anchor's input goes into its stash object in IN_FORMAT, at the first place that holds it: the text lays no stash out
(DESIGN CHOICE, log entry 59). -/
def Device.writeStash (d : Device) (h : Nat) (s : Stage) (seq : Nat) (rows : List (List Nat)) : Device :=
  let o := Desc.stash s.desc
  let bytes := (rows.map (stashRow (Desc.inFormat s.desc))).flatten
  match (if s.anchor then firstFit 0 (((d.entry o).map (·.size)).getD 0 * blockBytes) bytes.length (s.stashAt.map (·.2)) else none) with
  | some a => (d.writeBytes o a bytes).onStage h (fun s => { s with stashAt := tset s.stashAt seq (a, bytes.length) })
  | none => d

/-- A stage begins the forward of a sample with its rows; an anchor stashes them, and a stage that will be recomputed
keeps what the recompute pass will reproduce (R105, R159). -/
def Device.beginFwd (d : Device) (h : Nat) (s : Stage) (stream seq : Nat) (rows rows2 : List (List Nat)) : Device :=
  let take := (d.run.take.map (·.number)).getD 0
  let entry := d.entryOf stream seq
  let next := d.stepIx s
  let d := if stream = 0 ∧ Desc.lossStage s.desc then
      d.onTake (fun x => { x with digests := tset x.digests (seq * 2 ^ 33 + 2 ^ 32) (d.targetBytes entry) })
    else d
  let d := if stream = 0 ∧ Desc.bwdMode s.desc ≠ 2 then d.writeStash h s seq rows else d
  d.onStage h (fun s => { s with
    state := StageState.running,
    todo := (if stream = 0 then s.todo else s.todo.drop 1),
    nextIx := (if stream = 0 then next else s.nextIx),
    joins := s.joins.filter (fun j => !(j.stream == stream && j.seq == seq)),
    stash := (if stream = 0 ∧ Desc.bwdMode s.desc ≠ 2 then
      (if rows2 = [] then tset s.stash seq rows else tset (tset s.stash seq rows) (2 ^ 32 + seq) rows2) else s.stash),
    fwd := some { stream := stream, seq := seq, take := take, tokens := rows.length, input := rows, input2 := rows2,
                  targets := d.targets entry rows.length } })

/-- A stage with sources starts its next sample once it holds it from every source layer (R224). The sums of an ADD join count
among the vector engine's flags: the rule names no engine (DESIGN CHOICE, log entry 99). -/
def Device.tryStart (d : Device) (h : Nat) : Device :=
  match tget d.stages h with
  | none => d
  | some s =>
    if !s.free ∨ Desc.laneFirst s.desc then d
    else match d.nextSample s with
      | none => d
      | some (stream, seq) =>
        if stream = 0 ∧ ((d.run.take.map (fun t => t.refused.contains seq)).getD false) then
          d.onStage h (fun s => { s with nextIx := d.stepIx s })
        else
          let ds := (s.joins.filter (fun j => j.stream == stream && j.seq == seq)).foldl (fun l x => insertDelivery x l) []
          if (ds.map (·.layer)).eraseDups.length < (Desc.sources s.desc).eraseDups.length ∨ ds = [] then d
          else match d.unreadable (targetObject s.desc (d.entryOf stream seq)) with
          | some o => d.meets h o
          | none =>
            let rows2 := if Desc.joinMode s.desc = 3 then ((ds[1]?).map (·.rows)).getD [] else []
            let (rows, fl) := joinRows (Desc.joinMode s.desc) ds
            let d := (d.beginFwd h s stream seq rows rows2).coreFlags s 3 fl
            d.onStage h (fun s => { s with origins := (if stream = 0 then
                tset s.origins seq (ds.filterMap (fun j => (d.replicaFor (Desc.kind s.desc) j.layer seq).map (·.1))) else s.origins) })

/-! ### The end of a forward -/

/-- Output tiles and token blocks of a stage's operations. -/
def outTiles (x : Nat) : Nat := ceilDiv (Desc.outChannels x) 128
def inTiles (x : Nat) : Nat := ceilDiv (Desc.inChannels x) 256
def tokenBlocks (x tokens : Nat) : Nat := ceilDiv tokens (max 1 (Desc.tokensPerOp x))

/-- Every result of a forward is there. -/
def Fwd.complete (w : Fwd) (x : Nat) : Bool :=
  (if Desc.vector x then w.rows.length == w.tokens
   else (List.range (outTiles x)).all (fun u => (List.range (tokenBlocks x w.tokens)).all (fun b => w.done.contains (u, b))))

/-- The output codes of one token. -/
def Fwd.outRow (w : Fwd) (x t : Nat) : List Nat :=
  if Desc.vector x then tgetD w.out (64 * t) []
  else (((List.range (outTiles x)).map (fun u => tgetD w.out (64 * t + u) [])).flatten).take (Desc.outChannels x)

/-- The output rows as FP32. -/
def Fwd.outF32 (w : Fwd) (x : Nat) : List (List Nat) :=
  (List.range w.tokens).map (fun t => (w.outRow x t).map (toF32 (Desc.outFormat x)))

/-- The output as bytes, element-packed row by row. -/
def Fwd.outBytes (w : Fwd) (x : Nat) : Bytes :=
  ((List.range w.tokens).map (fun t => packBits (fmtBits (Desc.outFormat x)) (w.outRow x t))).flatten

/-- A stage of a layer has room at its join for one more sample of a source layer. -/
def Device.joinRoom (s : Stage) (layer : Nat) : Bool :=
  (s.joins.filter (fun j => j.layer == layer)).length < max 1 (Desc.joinDepth s.desc)

/-- The stages a sample goes on to (R218). -/
def Device.nextStages (d : Device) (s : Stage) (seq : Nat) : List (Nat × Stage) :=
  (Desc.dests s.desc).filterMap (fun l => d.replicaFor (Desc.kind s.desc) l seq)

/-- The LANE_LAST layers of a stream's lanes. -/
def Device.lastLayers (d : Device) (mask : Nat) : List Nat :=
  ((d.stages.filter (fun p => Desc.serving p.2.desc && bit mask (Desc.lane p.2.desc) && Desc.laneLast p.2.desc)).map
    (fun p => Desc.layer p.2.desc)).eraseDups

/-- An output element is a NaN or an infinity. -/
def notFinite (f code : Nat) : Bool := !fIsFinite (toF32 f code)

/-- A training output may leave its stage: its ring has room beside the outputs that wait to be written, and every earlier sample of
its take has left, or was refused (R390). Samples that wait for a stage that failed never reach it, and hold up no other. -/
def Device.outputTurn (d : Device) (ring take seq : Nat) : Bool :=
  let next := max (tgetD d.run.outNext ring 0) (take * 2 ^ 16)
  d.ringProducer ring - d.ringConsumer ring + (d.run.outputs.filter (fun o => o.1 == ring)).length < d.ringEntries ring &&
    (d.stages.any (fun p => !Desc.serving p.2.desc && p.2.state == .failed) ||
      (rangeFrom next (take * 2 ^ 16 + seq - next)).all (fun q =>
        (d.run.take.map (fun t => t.refused.contains (q - take * 2 ^ 16))).getD false))

/-- The last stage of a lane hands a sample's output over: a serving sample has its output once every LANE_LAST layer of
its lanes has given its part, in ascending layer (R173 for its elements); a training output waits for its ring. -/
def Device.laneOutput (d : Device) (s : Stage) (w : Fwd) : Device :=
  let x := s.desc
  if w.stream = 0 then
    d.onRun (fun r => { r with
      outputs := r.outputs ++ [(Desc.outputObject x, w.take * 2 ^ 16 + w.seq, bits (d.entryOf 0 w.seq) 0 64, w.outBytes x)]
      outNext := tset r.outNext (Desc.outputObject x) (max (tgetD r.outNext (Desc.outputObject x) 0) (w.take * 2 ^ 16 + w.seq + 1)) })
  else
    let bad := (List.range w.tokens).any (fun t => (w.outRow x t).any (notFinite (Desc.outFormat x)))
    let last := match tget d.streams w.stream with
      | some y => d.lastLayers y.laneMask
      | none => []
    d.onStream w.stream (fun y => { y with samples := y.samples.map (fun z =>
      if z.seq = w.seq ∧ z.ending.isNone then
        let parts := tset z.parts (Desc.layer x) (w.outBytes x)
        { z with parts := parts, nonFinite := z.nonFinite || bad,
                 output := if last.all (fun l => (tget parts l).isSome) then some ((parts.map (·.2)).flatten) else none }
      else z) }) |>.releaseAll

/-- A stage whose forward is complete hands its rows on where every join has room (R224), and, where it writes an output of training,
once that can be written in its turn (R390). The loss stage, and a stage whose
backward starts with it, keep nothing of it. -/
def Device.tryFinish (d : Device) (h : Nat) : Device :=
  match tget d.stages h with
  | none => d
  | some s =>
    match s.fwd with
    | none => d
    | some w =>
      let x := s.desc
      let next := d.nextStages s w.seq
      if !w.complete x ∨ !next.all (fun p => Device.joinRoom p.2 (Desc.layer x)) ∨
          (w.stream = 0 ∧ (Desc.laneLast x || Desc.lossStage x) ∧ !d.outputTurn (Desc.outputObject x) w.take w.seq) then d
      else
        let del : Delivery := ⟨Desc.layer x, Desc.lane x, Desc.lanePosition x, w.stream, w.seq, w.take, w.outF32 x⟩
        let d := d.onStage h (fun s => { s with fwd := none })
        let d := d.each next (fun d p => d.onStage p.1 (fun y => { y with joins := y.joins ++ [del] }))
        let d := if Desc.laneLast x || Desc.lossStage x then d.laneOutput s w else d
        if Desc.lossStage x && w.stream == 0 && Desc.bwdMode x != 2 then
          d.onStage h (fun s => { s with gradIn := s.gradIn ++ [{
            sender := h, seq := w.seq, take := w.take, tag := s.bwdCount % 64, count := s.bwdCount, rows := [] }] })
        else d

/-- A serving sample that reaches a stage on a core that runs no more fails there (R331, R332). -/
def Device.failDead (d : Device) (h : Nat) : Device :=
  match tget d.stages h with
  | none => d
  | some s =>
    match (if Desc.serving s.desc && d.deadCore s.core then s.todo.head? else none) with
    | none => d
    | some (stream, seq) =>
      d.onlyIf (Desc.laneFirst s.desc || s.joins.any (fun j => j.stream == stream && j.seq == seq)) (·.failSample stream seq Hb.detectedFault)

/-- Stages take and hand on what they can, until nothing more moves. -/
def Device.pump (d : Device) : Nat → Device
  | 0 => d
  | n + 1 => (d.each (tkeys d.stages) (fun d h => ((d.failDead h).tryFinish h).tryStart h)).pump n

/-- Enough rounds for every stage to pass something on. -/
def Device.settle (d : Device) : Device := d.pump (d.stages.length + 1)

/-! ### The input of a sample (R388, R389) -/

/-- The training stages that read an input ring. -/
def Device.firstStages (d : Device) : List (Nat × Stage) :=
  d.stages.filter (fun p => Desc.laneFirst p.2.desc && !Desc.serving p.2.desc)

/-- The entries of the take are all before index `i`: some earlier one has END_OF_TAKE, or there are 65,536. -/
def Device.takeEnds (d : Device) (ring i : Nat) : Bool :=
  65536 ≤ i || (List.range i).any (fun j => bit (d.ringEntry ring (d.ringConsumer ring + j)) 127)

/-- An entry agrees with those of the other training rings that have it (R388). -/
def Device.ringsAgree (d : Device) (entry i : Nat) : Bool :=
  d.firstStages.all (fun p =>
    let r := Desc.inputObject p.2.desc
    let k := d.ringConsumer r + i
    d.ringProducer r ≤ k || (bits (d.ringEntry r k) 0 64 == bits entry 0 64 && bit (d.ringEntry r k) 127 == bit entry 127))

/-- An entry is not taken (R388): INPUT_REFUSED, a detected fault, and the sample counts as finished. -/
def Device.refuseEntry (d : Device) (ring seq entry : Nat) : Device :=
  let d := (d.raise 0x0D03 [a4 ring, a8 (d.ringConsumer ring + seq), a2 St.range, a8 (d.get Obj.takeNumber)]).detectedFault
  (d.onTake (fun t => { t with refused := seq :: t.refused, entries := tset t.entries seq entry })).dropSample 0 seq

/-- The layers that take samples from the training rings, ascending, each with its ring. -/
def Device.firstRings (d : Device) : List (Nat × Nat) :=
  d.firstStages.foldl (fun t p => tset t (Desc.layer p.2.desc) (Desc.inputObject p.2.desc)) ([] : Tbl Nat)

/-- SAMPLE_ID and DATA_DIGEST of sample `i` as the rings offer it (R313); none while a ring has no such entry. -/
def Device.offered (d : Device) (i : Nat) : Option (Nat × Bytes) :=
  let es := d.firstRings.map (fun p => (p.2, d.ringConsumer p.2 + i))
  if es.any (fun p => d.ringProducer p.1 ≤ p.2) then none
  else
    let es := es.map (fun p => d.ringEntry p.1 p.2)
    let loss := d.stages.any (fun p => !Desc.serving p.2.desc && Desc.lossStage p.2.desc)
    let targets := if loss then ((es.find? (fun e => bits e 224 32 != noObject)).map d.targetBytes).getD [] else []
    some (bits (es.getD 0 0) 0 64, sha512 ((es.map d.sampleData).flatten ++ targets))

/-- The record a replay holds of the open take (R315). -/
def Device.replayed (d : Device) : Option ReplayRecord :=
  match d.log.replay, d.run.take with
  | r :: _, some t => if r.take = t.number then some r else none
  | _, _ => none

/-- Sample `i` waits for the rest of its entries, or for PRODUCER to be written after a refusal. -/
def Device.replayHolds (d : Device) (i : Nat) : Bool :=
  d.replayed.isSome && ((d.offered i).isNone || (d.run.take.map (fun t => t.held.contains i)).getD false)

/-- Sample `i` is not the one the record holds (R315). -/
def Device.replayRefuses (d : Device) (i : Nat) : Bool :=
  match d.replayed, d.offered i with
  | some r, some (id, dig) => (match r.samples.find? (fun x => x.2.1 == i) with
    | some x => x.1 != id || x.2.2 != dig
    | none => true)
  | _, _ => false

/-- A LANE_FIRST stage takes its next sample. Data that engines cannot read park it (R263, R264). -/
def Device.inputTake (d : Device) (h : Nat) : Device :=
  match tget d.stages h with
  | none => d
  | some s =>
    let x := s.desc
    if !s.free ∨ !Desc.laneFirst x then d
    else match d.nextSample s with
      | none => d
      | some (stream, seq) =>
        if stream = 0 then
          let ring := Desc.inputObject x
          let k := d.ringConsumer ring + seq
          if !d.ready ring then d.meets h ring
          else if d.runState ≠ 3 ∨ d.ringProducer ring ≤ k ∨ d.takeEnds ring seq then d
          else if (d.run.take.map (fun t => t.refused.contains seq)).getD false then
            d.onStage h (fun s => { s with nextIx := d.stepIx s })
          else
            let e := d.ringEntry ring k
            if !d.entryOk x e ∨ !d.ringsAgree e seq then
              (d.refuseEntry ring seq e).onStage h (fun s => { s with nextIx := d.stepIx s })
            else if d.replayHolds seq then d
            else if d.replayRefuses seq then
              (d.raise 0x0B02 [a8 (d.get Obj.takeNumber), a2 seq, a8 (bits e 0 64)]).onTake (fun t => { t with held := seq :: t.held })
            else match d.unreadable (bits e 64 32 :: targetObject x e) with
            | some o => d.meets h o
            | none =>
              let whole := if bits (tgetD ((d.run.take.map (·.entries)).getD []) seq e) 224 32 = noObject then e
                else tgetD ((d.run.take.map (·.entries)).getD []) seq e
              let d := d.onTake (fun t => { t with
                entries := tset t.entries seq whole, digests := tset t.digests (seq * 2 ^ 33 + Desc.layer x) (d.sampleData e) })
              let d := d.onlyIf ((d.run.take.map (fun _ => d.run.retake)).getD false) (·.pinRetake (entryObjects e))
              let (rows, fl) := d.loadRows x e
              ((d.beginFwd h s 0 seq rows []).coreFlags s 3 fl).settle
        else
          let e := d.entryOf stream seq
          if !d.entryOk x e then (d.refuseSample stream seq St.range).onStage h (fun s => { s with todo := s.todo.filter (· != (stream, seq)) })
          else match d.unreadable (bits e 64 32 :: targetObject x e) with
          | some o => d.meets h o
          | none =>
            let (rows, fl) := d.loadRows x e
            ((d.beginFwd h s stream seq rows []).coreFlags s 3 fl).settle

/-- INPUT_SAMPLE_TAKE (R388). -/
def execInputSampleTake (stage : Nat) (s : State) := onDev s (fun d => d.inputTake stage)

/-! ### The vector program (R216) -/

/-- The bit of R178 a stage's output conversion charges. -/
def outBit (x : Nat) : Nat := if Desc.lossStage x then Hb.nonfiniteLoss else Hb.nonfiniteAct

/-- A conversion of a stage output (order 6 of R108): FP32 output is the value itself, classified as R73 does. -/
def outConv (x : Nat) (mode : Rounding) (v : Nat) : Conv := convF32 (Desc.outFormat x) mode v

/-- One row goes through the vector program; in a VECTOR stage the result is the stage's output. A result that is not finite traps an
AUDIT stream (R173). A parameter object that engines
cannot read parks the stage (R264, R265). -/
def Device.programRow (d : Device) (h t : Nat) : Device :=
  match tget d.stages h with
  | none => d
  | some s => match s.fwd with
    | none => d
    | some w =>
      if w.tokens ≤ t ∨ (tget w.rows t).isSome ∨ d.halts s then d
      else match d.unreadable (programObject s.desc) with
      | some o => d.meets h o
      | none =>
        let x := s.desc
        let env := d.progEnv h s w.stream w.turn w.index t (w.targets.getD t 0xFFFF_FFFF)
        let (row, fl) := progRow x env (w.input.getD t [])
        let site : Nat → Site := fun i => { engine := 3, token := t, channel := i % 128, outTile := i / 128 }
        let d := ((d.onFwd h (fun w => { w with rows := tset w.rows t row })).coreFlags s 3 fl).trapRow h s w row (fun i =>
          if Desc.vector x then site i else { engine := 3, token := t, channel := i % 256, inTile := i / 256 })
        if Desc.vector x then
          let key := d.purposeKey h s w.stream Pur.out
          let cs := (List.range row.length).map (fun c =>
            outConv x (rounding (Desc.outRounding x) key w.turn (elementIx x w.index t c row.length)) (row.getD c 0))
          let d := d.onFwd h (fun w => { w with out := tset w.out (64 * t) (cs.map (·.code)) })
          (d.results h s w (Desc.outTensor x) (Desc.outFormat x) 0 (outBit x)
            (fun i => (site i).converted (row.getD i 0))
            (fun i => infiniteResult (Desc.outFormat x) (row.getD i 0) ((cs.map (·.code)).getD i 0)) cs).settle
        else d

/-- VECTOR_PROGRAM_ROW (R216). -/
def execVectorProgramRow (stage token : Nat) (s : State) := onDev s (fun d => d.programRow stage token)

/-! ### The quantiser -/

/-- The format a stage's weights are in: FALLBACK_FORMAT in fallback (R124). -/
def Stage.wFmt (s : Stage) : Nat := if s.fallback then fallbackFmt s.desc else Desc.wFormat s.desc

/-- The stage reads a fallback copy of its own: a layer in fallback whose W_FORMAT is 8 bits or wider keeps its working copy
(R124). -/
def Stage.ownFallback (s : Stage) : Bool := s.fallback && fmtBits (Desc.wFormat s.desc) < 8

/-- The veins the vein unit takes: none in fallback (R124). -/
def Stage.veinsUsed (s : Stage) : List Nat := if s.fallback then [] else s.veins

/-- Qmax (R111). -/
def qMax (f : Nat) : Nat := if f = Fmt.int8 then 127 else 7

/-- The amax of a row over its finite elements outside the veins, with its channel, the lowest on a tie. -/
def rowAmax (veins row : List Nat) : Nat × Nat :=
  (List.range row.length).foldl (fun acc c =>
    let x := row.getD c 0
    if veins.contains c || !fIsFinite x || fAbs x ≤ acc.1 then acc else (fAbs x, c)) (0, 0)

/-- s_a of R111, with the flags of its quotient. -/
def tokenScale (f amax : Nat) : Nat × Flags :=
  if amax = 0 then (fOne, 0)
  else
    let q := f32bin Val.div amax (fOfInt (qMax f))
    (if fAbs q.1 = 0 then 1 else q.1, q.2)

/-- A scale the converter uses is positive and finite (R62 step 2). -/
def scaleOk (s : Nat) : Bool := (ScaleWord.mk s 0 0 Fmt.int8 0).valid

/-- One element quantised; a vein position holds code 0 and is no conversion (R118). Under an invalid scale every element is
a NaN input (R62). -/
def quantElems (f : Nat) (veins row : List Nat) (scale : Nat) (mode : Nat → Rounding) : List Nat × List Conv :=
  let cs := (List.range row.length).map (fun c =>
    if veins.contains c then none
    else if scaleOk scale then some (quantise f (mode c) scale 0 (row.getD c 0)) else some (quantise f (mode c) fOne 0 fNaN))
  (cs.map (fun c => (c.map (·.code)).getD 0), cs.filterMap id)

/-- The vein elements of a row in BF16 (R118). -/
def veinElems (veins row : List Nat) (mode : Nat → Rounding) : List Conv :=
  veins.map (fun c => convF32 Fmt.bf16 (mode c) (row.getD c 0))

/-- The outlier monitor (R123), once per stage in a take, or per serving sample. -/
def Device.outlier (d : Device) (h : Nat) (s : Stage) (w : Fwd) (amax channel : Nat) : Device :=
  let lim := Desc.outlierLimit s.desc
  if fAbs lim = 0 ∨ !flt lim amax ∨ w.recompute.isSome then d
  else
    let d := d.bump Obj.outlierRows
    let seen := if w.stream = 0 then s.outlierSeen else w.outlierSeen
    if seen then d
    else
      let d := d.raiseFrom (s.core / 256) 0x0401 [a4 (Desc.layer s.desc), a2 channel, a4 amax, a8 w.turn]
      if w.stream = 0 then (d.onStage h (fun s => { s with outlierSeen := true })).chargeBit Hb.outlierRow
      else d.onFwd h (fun w => { w with outlierSeen := true })

/-- A row's codes, scale word and veins stored. -/
def Device.storeCodes (d : Device) (h : Nat) (s : Stage) (w : Fwd) (t scale : Nat) (mode vmode : Nat → Rounding) (row : List Nat) : Device :=
  let x := s.desc
  let f := Desc.aFormat x
  let (codes, cs) := quantElems f s.veinsUsed row scale mode
  let vs := veinElems s.veinsUsed row vmode
  let word := (ScaleWord.mk scale 0 (s.rowCount % 64) f 0).toNat
  let d := d.onFwd h (fun w => { w with
    codes := tset w.codes t codes, scales := tset w.scales t word, veinX := tset w.veinX t (vs.map (·.code)) })
  let d := d.onStage h (fun s => { s with rowCount := s.rowCount + 1 })
  let chans := (List.range row.length).filter (fun c => !s.veinsUsed.contains c)
  let site : Nat → List Nat → Nat → Site := fun op l i =>
    let c := l.getD i 0
    { engine := 0, op := some op, token := t, channel := c % 256, inTile := c / 256 }
  let first : List Nat → List Conv → Option Nat := fun l cs => (cs.findIdx? (fun c => c.outcome == .nonFinite)).map (l.getD · 0)
  let inf : List Nat → Nat → Bool := fun l i => scaleOk scale && fIsInf (row.getD (l.getD i 0) 0)
  let main : Device → Device := fun d => d.results h s w (Desc.inTensor x) f 0 Hb.nonfiniteAct (site 2 chans) (inf chans) cs
  let vein : Device → Device := fun d => d.results h s w (Desc.inTensor x) Fmt.bf16 0 Hb.nonfiniteAct (site 1 s.veinsUsed)
    (fun i => fIsInf (row.getD (s.veinsUsed.getD i 0) 0)) vs
  match first chans cs, first s.veinsUsed vs with
  | some a, some b => if b < a then main (vein d) else vein (main d)
  | _, _ => vein (main d)

/-- The roundings of a row's elements and of its veins (R112, R118). -/
def Device.actModes (d : Device) (h : Nat) (s : Stage) (w : Fwd) (t : Nat) : (Nat → Rounding) × (Nat → Rounding) :=
  let x := s.desc
  let key := d.purposeKey h s w.stream Pur.act
  let e : Nat → Nat := fun c => elementIx x w.index t c (Desc.inChannels x)
  (fun c => rounding (Desc.aRounding x) key w.turn (e c), fun c => rounding (Desc.veinRounding x) key w.turn (e c))

/-- A stage whose rows the quantiser takes. -/
def quantised (x : Nat) : Bool := Desc.linear x && !Desc.side x

/-- The quantiser takes one row under PER_TOKEN (R111, R118). -/
def Device.quantRow (d : Device) (h t : Nat) : Device :=
  match tget d.stages h with
  | none => d
  | some s => match s.fwd with
    | none => d
    | some w =>
      match tget w.rows t with
      | none => d
      | some row =>
        let x := s.desc
        if !quantised x ∨ Desc.learned x ∨ (tget w.codes t).isSome ∨ d.halts s ∨ w.codes.length ≠ t then d
        else
          let (amax, c) := rowAmax s.veinsUsed row
          let (m, vm) := d.actModes h s w t
          let (sc, fl) := tokenScale (Desc.aFormat x) amax
          ((d.coreFlags s 0 fl).outlier h s w amax c).storeCodes h s w t sc m vm row

/-- QUANTISE_ROW (R111). -/
def execQuantiseRow (stage token : Nat) (s : State) := onDev s (fun d => d.quantRow stage token)

/-- An element clips at a scale (R130 step 1). -/
def clips (f : Nat) (mode : Rounding) (scale x : Nat) : Bool :=
  match floatVal Fmt.fp32 (fdiv x scale) with
  | .fin neg n d =>
    let (i, _) := roundInt mode neg n d
    let (lo, hi) := intRange f
    fIsFinite x && (i < lo || hi < i)
  | .inf _ => fIsFinite x
  | .nan _ => false

/-- The clipped elements of one row at a scale, outside the veins. -/
def rowClips (f : Nat) (veins row : List Nat) (scale : Nat) (mode : Nat → Rounding) : Nat :=
  ((List.range row.length).filter (fun c => !veins.contains c && clips f (mode c) scale (row.getD c 0))).length

/-- A scale register of a core. -/
def Device.scaleReg (d : Device) (core r : Nat) : ScaleWord := ScaleWord.ofNat (tgetD d.scaleRegs (4096 * core + r) 0)

/-- The scale `s × 2^k` of a stage's learned activation scale, with the flags of the product. A register whose word fails step 2 of
R62 (its scale, its zero point or its reserved bits) gives 0, which no converter uses: every element is then a NaN input. -/
def Device.learnedFlagged (d : Device) (s : Stage) (k : Nat) : Nat × Flags :=
  let w := d.scaleReg s.core (Desc.actScaleReg s.desc)
  if w.valid then f32bin Val.mul w.scale (fPow2 k) else (0, 0)

/-- The same, its value alone. -/
def Device.learnedScale (d : Device) (s : Stage) (k : Nat) : Nat := (d.learnedFlagged s k).1

/-- The clip counts c_0 to c_4 of a clip block (R130). -/
def Device.clipCounts (d : Device) (s : Stage) (rows : List (Nat × List Nat)) (mode : Nat → Nat → Rounding) : List Nat :=
  (List.range 5).map (fun k =>
    (rows.map (fun r => rowClips (Desc.aFormat s.desc) s.veinsUsed r.2 (d.learnedScale s k) (mode r.1))).sum)

/-- The k of R130 step 3, and whether a k met the limit. -/
def clipK (limit : Nat) (counts : List Nat) : Nat × Bool :=
  match counts.findIdx? (fun c => c ≤ limit) with
  | some k => (k, true)
  | none => (4, false)

/-- The tokens of clip block `b`. -/
def clipTokens (x tokens b : Nat) : List Nat :=
  let n := max 1 (Desc.clipBlock x)
  rangeFrom (n * b) (min n (tokens - n * b))

/-- A clip block is counted (R130 step 3, R133). -/
def Device.clipCounted (d : Device) (h : Nat) (s : Stage) (w : Fwd) (k : Nat) (met : Bool) (c4 : Nat) : Device :=
  if w.recompute.isSome then d
  else if met then (if k = 0 then d else d.bump (Obj.clipRescaleK1 + (k - 1)))
  else
    let d := d.bump Obj.clipSaturated
    let seen := if w.stream = 0 then s.clipSeen else w.clipSeen
    if seen then d
    else
      let d := d.raiseFrom (s.core / 256) 0x0405 [a4 (Desc.layer s.desc), a4 c4, a8 w.turn]
      if w.stream = 0 then (d.onStage h (fun s => { s with clipSeen := true })).chargeBit Hb.clipSaturated
      else d.onFwd h (fun w => { w with clipSeen := true })

/-! ### The version gate and the scale registers (R44, R110) -/

/-- The layer table's entry of a layer, as arming copied it. -/
def Device.layerEntry (d : Device) (layer : Nat) : Option Nat := d.run.layers.find? (fun e => bits e 0 32 == layer)

/-- The update of the last print is published for a layer (R44). -/
def Device.gatePasses (d : Device) (layer : Nat) : Bool := !d.run.updates.any (fun u => u.2.1 == layer)

/-- The working copy, the vein weights and the version a sample reads (R47, R229): those of the held version it took, or
the layer's current ones. -/
def Device.weightsFor (d : Device) (s : Stage) (w : Fwd) : Nat × Nat × Nat :=
  let x := s.desc
  let vs := tgetD d.versions (Desc.layer x) []
  let own := (if s.ownFallback then Desc.fallbackObject x else Desc.wcObject x, Desc.veinWeight x)
  let of_ : Version → Nat × Nat := fun v => (v.objs.getD (if s.ownFallback then 2 else 0) own.1, v.objs.getD 1 own.2)
  if w.stream = 0 then (own.1, own.2, (vs.head?.map (·.take)).getD 0)
  else match (d.sampleOf w.stream w.seq).bind (fun y => tget y.versions (Desc.layer x)) with
    | some take => (match vs.find? (fun v => v.take == take) with
      | some v => ((of_ v).1, (of_ v).2, take)
      | none => (own.1, own.2, take))
    | none => (own.1, own.2, 0)

/-- The codebook's entries (R79): those of the layer entry's object; for a layer without one the text names no place, so
that they are open. -/
def Device.codebook (d : Device) (s : Stage) : List Nat :=
  match d.layerEntry (Desc.layer s.desc) with
  | some e => (List.range 16).map (fun k => d.readNat (bits e 384 32) (2 * k) 2)
  | none => (List.range 16).map (fun k => Config.unstated (Desc.wcObject s.desc * 16 + k) % 65536)

/-- The object a stage's codebook is read from, where there is one. -/
def Device.codebookObject (d : Device) (s : Stage) : List Nat :=
  if s.wFmt = Fmt.cb16 then (d.layerEntry (Desc.layer s.desc)).toList.map (fun e => bits e 384 32) else []

/-- The codebook as the forward array takes it. -/
def Device.book (d : Device) (s : Stage) : Codebook :=
  if s.wFmt = Fmt.cb16 then codebookOf (d.codebook s) else e2m1Book

/-- Tile (u, j) of a working copy: output tile by output tile, input tiles ascending (DEDUCED, log entry 15). -/
def Device.wTile (d : Device) (s : Stage) (wc u j : Nat) : Bytes :=
  let n := tileBytes s.wFmt
  d.readBytes wc ((u * inTiles s.desc + j) * n) n

/-- Where the scale words of a working copy start: after its tiles. -/
def scalesAt (f x : Nat) : Nat := outTiles x * inTiles x * tileBytes f

/-- The core DMA loads the scale words of a version into the stage's registers (R110, R128), and the codebook of a CB16 copy
enters the array: the entries it rounds count and set the array's inexact flag (R95). -/
def Device.loadScales (d : Device) (h : Nat) (s : Stage) (wc version : Nat) : Device :=
  if s.version = some version then d
  else
    let x := s.desc
    let b := scalesAt s.wFmt x
    let regs := (List.range (Desc.outChannels x)).map (fun o => (Desc.scaleBase x + o, d.readNat wc (b + 8 * o) 8))
    let regs := if Desc.learned x then regs ++ [(Desc.actScaleReg x, d.readNat wc (b + 8 * Desc.outChannels x) 8)] else regs
    let d := { d with scaleRegs := regs.foldl (fun t (r : Nat × Nat) => tset t (4096 * s.core + r.1) r.2) d.scaleRegs }
    let n := if s.wFmt = Fmt.cb16 then (d.book s).rounds else 0
    let d := (d.addTo Obj.codebookRoundings n).onlyIf (n != 0) (·.coreFlags s 1 Flags.inexact)
    let gone := if s.wFmt = Fmt.cb16 then (d.book s).vanished (d.codebook s) else 0
    let d := d.onlyIf (gone != 0 && !Desc.serving x) (fun d => d.count (Desc.wcObject x) Fmt.cb16 0 (List.replicate gone (0, .vanishing)))
    d.onStage h (fun s => { s with version := some version })

/-- A stage at the version gate (R44, R110): it waits there for the update of the last print, counted once; weights that cannot be
read park it (R263, R264); past it the version's scale words are loaded. Whether it is past, and the device. -/
def Device.atGate (d : Device) (h : Nat) (s : Stage) (w : Fwd) : Bool × Device :=
  let x := s.desc
  let (wc, vw, version) := d.weightsFor s w
  if w.stream = 0 ∧ !d.gatePasses (Desc.layer x) then
    (false, if w.gateWait then d else (d.bump Obj.versionGateWaits).onFwd h (fun w => { w with gateWait := true }))
  else if s.fetching then (false, d)
  else match (wc :: (if s.veinsUsed = [] then [] else [vw]) ++ d.codebookObject s).find? (fun o => !d.canRead o) with
  | some o => (false, d.meets h o)
  | none =>
    let d := d.onlyIf (w.stream == 0) (·.firstRead (Desc.layer x))
    (true, if quantised x then d.loadScales h s wc version else d.onStage h (fun s => { s with version := some version }))

/-- A clip block whose rows are all there is quantised at the smallest scale that meets CLIP_LIMIT (R130). The stage is past
the version gate, which loaded the learned scale (R128); an invalid one makes every element a NaN input, and counts once
for the block (R62, log entry 101). -/
def Device.clipBlock (d : Device) (h b : Nat) : Device :=
  match tget d.stages h with
  | none => d
  | some s => match s.fwd with
    | none => d
    | some w =>
      let x := s.desc
      let ts := clipTokens x w.tokens b
      if !quantised x ∨ !Desc.learned x ∨ ts = [] ∨ d.halts s ∨
          ts.any (fun t => (tget w.rows t).isNone || (tget w.codes t).isSome) then d
      else match d.atGate h s w with
        | (false, d) => d
        | (true, d) =>
          let valid := scaleOk (d.learnedScale s 0)
          let rows := ts.map (fun t => (t, tgetD w.rows t []))
          let counts := if valid then d.clipCounts s rows (fun t => (d.actModes h s w t).1) else []
          let (k, met) := if valid then clipK (Desc.clipLimit x) counts else (0, true)
          let d := ((d.clipCounted h s w k met (counts.getD 4 0)).onlyIf (!valid) (·.bump Obj.invalidScaleCount)).coreFlags s 0
            (d.learnedFlagged s k).2
          d.each rows (fun d (r : Nat × List Nat) =>
            match tget d.stages h with
            | none => d
            | some s' =>
              let (amax, c) := rowAmax s.veinsUsed r.2
              let (m, vm) := d.actModes h s w r.1
              (d.outlier h s' (s'.fwd.getD w) amax c).storeCodes h s' w r.1 (d.learnedScale s k) m vm r.2)

/-- CLIP_BLOCK_QUANTISE (R130). -/
def execClipBlockQuantise (stage block : Nat) (s : State) := onDev s (fun d => d.clipBlock stage block)

/-! ### The issue unit (R26, R221, R222) -/

/-- A stage that sends gradients below. -/
def sendsBack (s : Stage) : Bool := Desc.igrad s.desc && Desc.bwdMode s.desc != 2

/-- The tokens of token block `b`. -/
def blockTokens (x tokens b : Nat) : List Nat :=
  let n := max 1 (Desc.tokensPerOp x)
  rangeFrom (n * b) (min n (tokens - n * b))

/-- Some forward tile operation of a stage has its operands there: its codes, or on the side unit its rows, its version and
its weights. -/
def Device.fwdReady (d : Device) (s : Stage) : Bool :=
  match s.fwd with
  | none => false
  | some w =>
    let x := s.desc
    let (wc, vw, _) := d.weightsFor s w
    !Desc.vector x && (!Desc.linear x ||
      ((w.stream != 0 || d.gatePasses (Desc.layer x)) && d.canRead wc && (s.veinsUsed == [] || d.canRead vw))) && !s.fetching &&
    (List.range (tokenBlocks x w.tokens)).any (fun b =>
      (blockTokens x w.tokens b).all (fun t => if quantised x then (tget w.codes t).isSome else (tget w.rows t).isSome) &&
      (List.range (outTiles x)).any (fun u => !w.done.contains (u, b) && s.op != some (u, b)))

/-- The object a stage's weights are in: its fallback copy, or its working copy where that is wide enough (R124). -/
def Stage.weights (s : Stage) : Nat := if s.ownFallback then Desc.fallbackObject s.desc else Desc.wcObject s.desc

/-- Some input-gradient tile operation of a stage has its operands there. -/
def Device.igradReady (d : Device) (s : Stage) : Bool :=
  match s.bwd with
  | none => false
  | some w =>
    let x := s.desc
    w.input.isSome && !w.sent && sendsBack s && !Desc.vector x && !s.fetching &&
      (!Desc.linear x || (d.ready s.weights && (s.veinsUsed == [] || d.ready (Desc.veinWeight x)))) &&
      (List.range (inTiles x)).any (fun j => (List.range (tokenBlocks x w.tokens)).any (fun b => !w.done.contains (j, b)))

/-- The stages that rerun from the nearest anchor below a stage, up to the stage just below it: by layer, at most `n` deep. -/
def Device.rerun (d : Device) (seq : Nat) : Nat → Nat → List Nat
  | 0, _ => []
  | n + 1, h =>
    match tget d.stages h with
    | none => []
    | some s =>
      ((Desc.sources s.desc).eraseDups.filterMap (fun l => d.replicaFor 0 l seq)).flatMap (fun p =>
        p.1 :: (if p.2.stashes seq || Desc.laneFirst p.2.desc then [] else d.rerun seq n p.1))

/-- A stage's stash is readable: its object is in the fast tier. -/
def Device.stashReady (d : Device) (s : Stage) : Bool := d.ready (Desc.stash s.desc)

/-- Some stage of a core has an operation on its forward array. -/
def Device.arrayBusy (d : Device) (core : Nat) : Bool := (d.onCore core).any (fun s => s.op.isSome)

/-- A stage has no operation of another sample to run: it may run a recompute pass of a sample (R27). -/
def Stage.resting (s : Stage) : Bool :=
  s.op.isNone && s.bwd.isNone && (match s.fwd with
    | some w => w.complete s.desc
    | none => true)

/-- The recompute pass that gives a stage its input can run: the anchors it starts from have their stashes (R160, R161), and the
stages that run it and their engines are idle (R24, R27). -/
def Device.recomputeReady (d : Device) (h : Nat) (s : Stage) : Bool :=
  match s.bwd with
  | none => false
  | some w => w.input.isNone && !s.stashes w.seq &&
    (d.rerun w.seq d.stages.length h).all (fun g => match tget d.stages g with
      | some a => (!a.stashes w.seq || d.stashReady a) && !d.coreStopped a.core && (d.unreadable (programObject a.desc)).isNone && a.resting && (Desc.vector a.desc || !d.arrayBusy a.core) &&
          (!Desc.linear a.desc || (d.ready a.weights && (a.veinsUsed == [] || d.ready (Desc.veinWeight a.desc))))
      | none => true)

/-- A stage has forward operations of a recompute pass that can run (R160, R221). -/
def Device.reruns (d : Device) (h : Nat) (s : Stage) : Bool :=
  !Desc.vector s.desc && d.stages.any (fun p => match p.2.bwd with
    | some w => d.recomputeReady p.1 p.2 && (d.rerun w.seq d.stages.length p.1).contains h
    | none => false)

/-- The rank of a ready stage (R221), by the class of its sample (R226): 1 AUDIT, 2 STANDARD, 3 BULK. -/
def Device.rank (d : Device) (h : Nat) (s : Stage) : Option Nat :=
  if d.halts s then none
  else if Desc.serving s.desc then
    (if d.fwdReady s then
      some (match (s.fwd.map (fun w => d.classOf w.stream)).getD 0 with
        | 1 => 3
        | 3 => 5
        | _ => 4)
     else none)
  else if d.fwdReady s || d.igradReady s then some 1
  else if d.reruns h s then some 2
  else none

/-- The issue unit of a core. -/
def Device.unitOf (d : Device) (core : Nat) : IssueUnit := tgetD d.issue core {}

/-- The ready stages of a core: handle, binding position and rank. -/
def Device.readyOn (d : Device) (core : Nat) : List (Nat × Nat × Nat) :=
  (d.stages.filter (fun p => p.2.core == core)).filterMap (fun p => (d.rank p.1 p.2).map (fun r => (p.1, p.2.pos, r)))

/-- The stage the issue unit passes to at a boundary (R221): one passed over 256 times, else the best rank, in cyclic order of
binding position after the holder. -/
def Device.nextHolder (d : Device) (core : Nat) : Option Nat :=
  let u := d.unitOf core
  let from_ := ((u.holder.bind (fun h => tget d.stages h)).map (·.pos)).getD 3
  let ready := d.readyOn core
  let starved := ready.filter (fun r => 256 ≤ tgetD u.passed r.1 0)
  let best := ready.foldl (fun m r => min m r.2.2) 6
  let among := if starved = [] then ready.filter (fun r => r.2.2 == best) else starved
  (among.foldl (fun b r =>
    let k := (r.2.1 + 3 - from_) % 4
    match b with
    | none => some (k, r.1)
    | some x => if k < x.1 then some (k, r.1) else b) (none : Option (Nat × Nat))).map (·.2)

/-- A tile boundary of the holder (R221): the unit passes on, with the contexts of a pre-emption (R222). -/
def Device.boundary (d : Device) (core : Nat) : Device :=
  let u := d.unitOf core
  match d.nextHolder core with
  | none => d
  | some h =>
    let others := ((d.readyOn core).map (·.1)).filter (· != h)
    let d := { d with issue := tset d.issue core ⟨some h, others.foldl (fun t g => tset t g (tgetD u.passed g 0 + 1)) []⟩ }
    if u.holder = some h then d
    else
      let d := match u.holder with
        | some g => d.saveContext g
        | none => d
      (d.restoreContext h).grant h

/-- Whether a stage holds its core's issue unit when it would issue: where the holder has nothing ready, it stands at a
boundary (DEDUCED, log entry 109). -/
def Device.issues (d : Device) (h : Nat) (s : Stage) : Bool × Device :=
  let u := d.unitOf s.core
  if u.holder = some h then (true, d.grant h)
  else if (d.readyOn s.core).any (fun r => u.holder == some r.1) then (false, d)
  else
    let d := d.boundary s.core
    ((d.unitOf s.core).holder == some h, d)

/-- An operation of a stage has completed: a boundary where it holds the unit. -/
def Device.opEnds (d : Device) (h core : Nat) : Device := if (d.unitOf core).holder = some h then d.boundary core else d

/-! ### Forward tile operations (R100) -/

/-- An operation is issued once its codes are there, its version has been published and its weights are in the fast tier
(R24, R44, R100), by the stage that holds the issue unit (R26). -/
def Device.opIssue (d : Device) (h u b : Nat) : Device :=
  match tget d.stages h with
  | none => d
  | some s => match s.fwd with
    | none => d
    | some w =>
      let x := s.desc
      let ts := blockTokens x w.tokens b
      if !quantised x ∨ outTiles x ≤ u ∨ ts = [] ∨ w.done.contains (u, b) ∨ d.arrayBusy s.core ∨ d.halts s ∨
          ts.any (fun t => (tget w.codes t).isNone) ∨ d.coreHeld s.core then d
      else match d.atGate h s w with
        | (false, d) => d
        | (true, d) => match d.issues h s with
          | (false, d) => d
          | (true, d) => d.onStage h (fun s => { s with op := some (u, b) })

/-- FWD_TILE_OP_ISSUE (R100). -/
def execFwdTileOpIssue (stage outTile tokenBlock : Nat) (s : State) := onDev s (fun d => d.opIssue stage outTile tokenBlock)

/-- A vein weight of block `u`: list position and output column (R122). -/
def Device.veinWeightAt (d : Device) (vw u p k o : Nat) : Nat := d.readNat vw (u * (p * 8192 + 32) + k * 256 + 2 * o) 2

/-- v(t, o) of R120: passes of 32 list positions. -/
def Device.veinSum (d : Device) (vw u o : Nat) (xs : List Nat) : Nat × Flags :=
  let p := veinPasses xs.length
  blockDot 32 ((List.range xs.length).map (fun k =>
    (floatVal Fmt.bf16 (xs.getD k 0), floatVal Fmt.bf16 (d.veinWeightAt vw u p k o))))

/-- The value y4 of one output (R107, R108 orders 1 to 5), with the flags of the forward array and of the vein unit. The vein
contribution is formed whatever the main sum is (R120). -/
def Device.forwardValue (d : Device) (s : Stage) (w : Fwd) (vw u t o : Nat) (tiles : List Bytes) (book : Codebook) :
    Nat × Flags × Flags :=
  let x := s.desc
  let f := s.wFmt
  let af := Desc.aFormat x
  let col := 128 * u + o
  let sw := d.scaleReg s.core (Desc.scaleBase x + col)
  let sa := ScaleWord.ofNat (tgetD w.scales t 0)
  let codes := tgetD w.codes t []
  let sel : Nat → Nat → Nat := fun j i => tileCode (tiles.getD j []) f i o
  let badCode := (f == Fmt.e2m1 || f == Fmt.cb16) && book.bad != [] &&
    (List.range (Desc.inChannels x)).any (fun i => book.bad.contains (sel (i / 256) (i % 256)))
  let (y3, fl) : Nat × Flags := if badCode || !sw.valid || !sa.valid then (fNaN, Flags.invalid)
  else
    let y0 := (List.range tiles.length).foldl (fun acc j =>
      acc + tileX f af book (wZero f sw.zero) (tiles.getD j []) (((codes.drop (256 * j)).take 256).map (intVal af)) o) 0
    let e := if f = Fmt.e2m1 ∨ f = Fmt.cb16 then book.exp else 0
    let (a, b) := scale2 y0.natAbs 1 e
    let y1 := toFloat Fmt.fp32 .rne (.fin (y0 < 0) a b)
    let y2 := f32bin Val.mul y1.code sw.scale
    let y3 := f32bin Val.mul y2.1 sa.scale
    (y3.1, y1.flags ||| y2.2 ||| y3.2)
  match tget w.veinX t with
  | some (v :: vs) =>
    let c := d.veinSum vw u o (v :: vs)
    let y4 := f32bin Val.add y3 c.1
    (y4.1, fl ||| y4.2, c.2)
  | _ => (y3, fl, 0)

/-- The first tag check of an operation that fails (R109, R122, R128): tensor, tag expected, tag found. A vein trailer whose
FORMAT is not BF16 fails as well: R122 states the check of SEQ_TAG only (DESIGN CHOICE, log entry 103). -/
def Device.tagFault (d : Device) (s : Stage) (vw u : Nat) (tiles : List Bytes) : Option (Nat × Nat × Nat) :=
  let x := s.desc
  let f := s.wFmt
  let wc := s.weights
  let tags := tiles.map (fun t => trailerTag t f)
  let cols := List.range (min 128 (Desc.outChannels x - 128 * u))
  let words := cols.map (fun o => d.scaleReg s.core (Desc.scaleBase x + 128 * u + o))
  match tags.findSome? (fun t => (words.find? (fun w => !w.matches f t)).map (fun w => (wc, t, w.tag))) with
  | some e => some e
  | none =>
    let la := d.scaleReg s.core (Desc.actScaleReg x)
    match (if Desc.learned x then tags.find? (fun t => !la.matches (Desc.aFormat x) t) else none) with
    | some t => some (Desc.inTensor x, t, la.tag)
    | none =>
      if s.veinsUsed = [] then none
      else
        let p := veinPasses s.veinsUsed.length
        let b := u * (p * 8192 + 32) + p * 8192
        let vt := d.readNat vw b 1 % 64
        let vf := d.readNat vw (b + 1) 1
        (tags.find? (fun t => t != vt || vf != Fmt.bf16)).map (fun t => (Desc.veinWeight x, t, vt))

/-- Planes are skipped (R101). -/
def Device.skipping (d : Device) (x : Nat) : Bool := Desc.skipEn x && d.get Obj.fwdSkipForceOff == 0

/-- One input tile of the procedure of R103: where the groups stand after the last tile and the one before, and the cycles
waited; `ms` are the groups' cycles per token. -/
def groupStep (tokens ready : Nat) (ms : List Nat) (acc : List Nat × List Nat × Nat) : List Nat × List Nat × Nat :=
  let limit := acc.2.1.foldl max 0
  let from_ := acc.1.map (fun e => max e ready)
  (List.zipWith (fun a m => max a limit + tokens * m) from_ ms, acc.1, acc.2.2 + (from_.map (fun a => limit - a)).sum)

/-- Cycles the lane groups of an operation wait at the two-tile limit (R102, R103), for given cycles at which its tiles are
staged. -/
def Device.groupWaits (d : Device) (s : Stage) (u tokens : Nat) (tiles : List Bytes) (ready : Nat → Nat) : Nat :=
  let f := s.wFmt
  let n : Bytes → Nat → Nat := fun t o => if d.skipping s.desc then livePlanes t f o else planesOf f
  let m : Bytes → Nat → Nat := fun t g => (List.range 16).foldl (fun m c =>
    if 128 * u + 16 * g + c < Desc.outChannels s.desc then max m (n t (16 * g + c)) else m) 1
  ((List.range tiles.length).foldl (fun acc j => groupStep tokens (ready j) ((List.range 8).map (m (tiles.getD j []))) acc)
    (List.replicate 8 0, List.replicate 8 0, 0)).2.2

/-- Column-planes an operation skips, over its tokens (R98, R101). -/
def Device.planesSkipped (d : Device) (s : Stage) (u tokens : Nat) (tiles : List Bytes) : Nat :=
  let x := s.desc
  let f := s.wFmt
  if !d.skipping x ∨ f = Fmt.e2m1 ∨ f = Fmt.cb16 then 0
  else tokens * (tiles.map (fun t =>
    ((List.range (min 128 (Desc.outChannels x - 128 * u))).map (fun o => planesOf f - livePlanes t f o)).sum)).sum

/-- The daily selection of an operation (R175): the token compared, among the operation's. -/
def Device.dailyToken (d : Device) (x take sample u b : Nat) (ts : List Nat) : Option Nat :=
  let r := draw32 (d.genKey 0 (Desc.layer x) Pur.dailies) take (sample * 2 ^ 32 + u * 2 ^ 16 + b)
  let n := d.get Obj.dailiesEvery
  if d.get Obj.dailiesEnable = 1 ∧ r % n = 0 then ts[r / n % ts.length]? else none

/-- An operation's outputs of one token stored. -/
def Device.storeOut (d : Device) (h t u : Nat) (codes : List Nat) : Device :=
  d.onFwd h (fun w => { w with out := tset w.out (64 * t + u) codes })

/-- Output codes that no rule states: a refused operation writes no output (R109). -/
def Device.openCodes (d : Device) (h u : Nat) (ts : List Nat) (n : Nat) : Device :=
  d.each ts (fun d t =>
    let (k, d) := d.draw
    d.storeOut h t u ((List.range n).map (fun o => bits (Config.unstated k) (32 * o) 32)))

/-- The outputs of an operation: every token and column converted (order 6 of R108), counted and stored. -/
def Device.writeOutputs (d : Device) (h : Nat) (s : Stage) (w : Fwd) (u engine : Nat) (ts : List Nat)
    (y4 : Nat → Nat → Nat × Flags) : Device :=
  let x := s.desc
  let n := min 128 (Desc.outChannels x - 128 * u)
  let key := d.purposeKey h s w.stream Pur.out
  d.each ts (fun d t =>
    let ys := (List.range n).map (fun o => y4 t o)
    let cs := (List.range n).map (fun o =>
      outConv x (rounding (Desc.outRounding x) key w.turn (elementIx x w.index t (128 * u + o) (Desc.outChannels x))) ((ys.getD o (0, 0)).1))
    let d := (d.storeOut h t u (cs.map (·.code))).coreFlags s engine (orFlags (ys.map (·.2)))
    d.results h s w (Desc.outTensor x) (Desc.outFormat x) 0 (outBit x)
      (fun i => Site.converted { engine := engine, outTile := u, token := t, channel := i } ((ys.getD i (0, 0)).1))
      (fun i => infiniteResult (Desc.outFormat x) ((ys.getD i (0, 0)).1) ((cs.map (·.code)).getD i 0)) cs)

/-- A completed operation counts (R114, R121): itself, the column-planes it skipped, its vein passes, and its groups' waits, of
which the cycles at which its tiles are staged are open (R103). -/
def Device.countOp (d : Device) (s : Stage) (u tokens : Nat) (tiles : List Bytes) : Device :=
  let p := veinPasses s.veinsUsed.length
  let d := (d.addTo Obj.veinPasses (p * tokens)).addTo Obj.veinExtraPasses ((p - 1) * tokens)
  let d := (d.bump Obj.fwdOperations).addTo Obj.fwdPlanesSkipped (d.planesSkipped s u tokens tiles)
  let (k, d) := d.draw
  d.addTo Obj.fwdGroupWaits (d.groupWaits s u tokens tiles (fun j => ((List.range (j + 1)).map (fun i => bits (Config.unstated k) (32 * i) 32)).sum))

/-- The operation in flight at a stage completes (R107 to R109, R120 to R122): a failed tag check writes no output; else
every output is written, the vein passes counted, and a sampled operation asks for its reference. A stopped clock and a
retired cluster let nothing be written (R24). Three points are the model's choice: the flags of orders 2 to 5 of R108 go
to the forward array's word (log entry 99), a refused operation counts neither in FWD_OPERATIONS and FWD_PLANES_SKIPPED nor in
VEIN_PASSES and VEIN_EXTRA_PASSES (log entry 100), and an invalid scale word counts once in an operation (log entry 101). -/
def Device.opComplete (d : Device) (h : Nat) : Device :=
  match tget d.stages h with
  | none => d
  | some s => match s.fwd, s.op with
    | some w, some (u, b) =>
      let x := s.desc
      let (wc, vw, _) := d.weightsFor s w
      let ts := blockTokens x w.tokens b
      let tiles := (List.range (inTiles x)).map (fun j => d.wTile s wc u j)
      let n := min 128 (Desc.outChannels x - 128 * u)
      if d.coreStopped s.core then d
      else match d.marked (wc :: (if s.veinsUsed = [] then [] else [vw]) ++ d.codebookObject s) with
      | some o => ((d.onStage h (fun s => { s with op := none })).park h o w.turn).opEnds h s.core
      | none =>
      let d := (d.onStage h (fun s => { s with op := none })).onFwd h (fun w => { w with done := w.done ++ [(u, b)] })
      match d.tagFault s vw u tiles with
      | some (tensor, want, found) =>
        ((d.openCodes h u ts n).scaleSkew (s.core / 256) (Desc.layer x) tensor want found w.stream w.turn w.seq).settle.opEnds h s.core
      | none =>
        let book := d.book s
        let y4 : Nat → Nat → Nat × Flags := fun t o => let y := d.forwardValue s w vw u t o tiles book; (y.1, y.2.1)
        let veined := orFlags (ts.flatMap (fun t => (List.range n).map (fun o => (d.forwardValue s w vw u t o tiles book).2.2)))
        let words := (List.range n).map (fun o => d.scaleReg s.core (Desc.scaleBase x + 128 * u + o))
        let invalid := (words.filter (fun w => !w.valid)).length +
          (ts.filter (fun t => !(ScaleWord.ofNat (tgetD w.scales t 0)).valid)).length
        let d := (d.writeOutputs h s w u 1 ts y4).coreFlags s 4 veined
        let d := (d.countOp s u ts.length tiles).addTo Obj.invalidScaleCount invalid
        let d := match (if w.stream = 0 ∧ w.recompute = none then d.dailyToken x w.take w.seq u b ts else none) with
          | some t => d.onStage h (fun s => { s with dailies := s.dailies ++ [(u, w.input.getD t [], (List.range n).map (fun o => (y4 t o).1))] })
          | none => d
        d.settle.opEnds h s.core
    | _, _ => d

/-- FWD_TILE_OP_COMPLETE (R108): what the reads of its operands found comes first (R265). -/
def execFwdTileOpComplete (x : CheckedRead) (s : State) := onDev s (fun d => (d.findings x.found).opComplete x.subject)

/-! ### The side unit (R113, R224) -/

/-- A row as BF16 operands: R113 takes BF16 activations and states no rounding of the FP32 row, nor where its flags and
outcomes go. It is rounded to nearest even, the flags go to the engine that reads the row, and no record counts the
outcomes (DESIGN CHOICE, log entry 56). -/
def bf16Row (row : List Nat) : List Val := row.map (fun x => floatVal Fmt.bf16 (convF32 Fmt.bf16 .rne x).code)

/-- The flags of that rounding. -/
def bf16Flags (row : List Nat) : Flags := orFlags (row.map (fun x => (convF32 Fmt.bf16 .rne x).flags))

/-- The operand column of an output of a SIDE or PAIRWISE stage. -/
def Device.sideColumn (d : Device) (s : Stage) (w : Fwd) (wc col : Nat) : List Val :=
  let x := s.desc
  if Desc.pairwise x then
    (if Desc.pairTranspose x then bf16Row (w.input2.getD col [])
     else w.input2.map (fun r => ((bf16Row r)[col]?).getD (.fin false 0 1)))
  else
    let tiles := (List.range (inTiles x)).map (fun j => d.wTile s wc (col / 128) j)
    (List.range (Desc.inChannels x)).map (fun i =>
      floatVal Fmt.bf16 (tileCode (tiles.getD (i / 256) []) Fmt.bf16 (i % 256) (col % 128)))

/-- The masters' object of a layer on this device. -/
def Device.masterOf (d : Device) (layer : Nat) : Nat := ((d.layerEntry layer).map (fun e => bits e 128 32)).getD noObject

/-- A stage asks the side unit for a tile of its own: it has one ready, and holds its core's issue unit or would get it. -/
def Device.sideWants (d : Device) (h : Nat) (s : Stage) : Bool :=
  Desc.side s.desc && !d.halts s && d.fwdReady s && (d.issues h s).1

/-- Some stage of a core asks for a tile. -/
def Device.coreWants (d : Device) (core : Nat) : Bool := d.stages.any (fun p => p.2.core == core && d.sideWants p.1 p.2)

/-- A stage asks the side unit for a dailies reference. One whose masters' object is on the move waits, and asks for nothing. -/
def Device.dailyWants (d : Device) (s : Stage) : Bool :=
  !d.coreStopped s.core && s.dailies != [] && !(((d.entry (d.masterOf (Desc.layer s.desc))).map (·.move != .settled)).getD false)

/-- The core of a cluster, 0 to 7, whose request its side unit takes next: round robin from the one it took last (R29). -/
def Device.sideTurn (d : Device) (cluster : Nat) : Option Nat :=
  let last := tgetD d.sideLast cluster 7
  ((List.range 8).map (fun k => (last + 1 + k) % 8)).find? (fun k =>
    d.coreWants (8 * cluster + k) || (d.onCore (8 * cluster + k)).any d.dailyWants)

/-- The side unit has taken a request of a core. -/
def Device.sideTakes (d : Device) (core : Nat) : Device := { d with sideLast := tset d.sideLast (core / 8) (core % 8) }

/-- A side-unit operation completes (R113), in its core's turn (R29): products of a row with a column in blocks of 64. -/
def Device.sideComplete (d : Device) (h u b : Nat) : Device :=
  match tget d.stages h with
  | none => d
  | some s => match s.fwd with
    | none => d
    | some w =>
      let x := s.desc
      let (wc, _, _) := d.weightsFor s w
      let ts := blockTokens x w.tokens b
      if Desc.vector x ∨ !Desc.side x ∨ outTiles x ≤ u ∨ ts = [] ∨ w.done.contains (u, b) ∨ d.halts s ∨
          ts.any (fun t => (tget w.rows t).isNone) then d
      else match (if Desc.linear x then d.atGate h s w else (!s.fetching, d)) with
        | (false, d) => d
        | (true, d) =>
          if d.sideTurn (s.core / 8) ≠ some (s.core % 8) then d
          else match d.issues h s with
            | (false, d) => d
            | (true, d) =>
              let d := (d.sideTakes s.core).onFwd h (fun w => { w with done := w.done ++ [(u, b)] })
              let y4 : Nat → Nat → Nat × Flags := fun t o =>
                blockDot 64 (List.zip (bf16Row (tgetD w.rows t [])) (d.sideColumn s w wc (128 * u + o)))
              let d := d.coreFlags s 5 (orFlags (ts.map (fun t => bf16Flags (tgetD w.rows t []))))
              (((d.bump Obj.fwdOperations).writeOutputs h s w u 5 ts y4).settle).opEnds h s.core

/-- SIDE_TILE_OP_COMPLETE (R113). -/
def execSideTileOpComplete (stage outTile tokenBlock : Nat) (s : State) :=
  onDev s (fun d => d.sideComplete stage outTile tokenBlock)

/-! ### Dailies (R175 to R177) -/

/-- ref(o) of R176 against a token of the stage's input: masters in FP32; with the flags of the side unit. -/
def Device.reference (d : Device) (master x : Nat) (row : List Nat) (col : Nat) : Nat × Flags :=
  let c := Desc.inChannels x
  blockDot 64 ((List.range c).map (fun i =>
    (floatVal Fmt.fp32 (d.readNat master (4 * (col * c + i)) 4), floatVal Fmt.fp32 (row.getD i 0))))

/-- A tile is over threshold (R177): narrow values against references. -/
def dailyOver (threshold : Nat) (ys refs : List Nat) : Bool :=
  let ds := List.zipWith (fun y r => fAbs (fsub y r)) ys refs
  let m := refs.foldl (fun m r => max m (fAbs r)) 0
  ys.any (fun y => !fIsFinite y) ||
    (if m = 0 then ds.any (· != 0) else flt threshold (fdiv (ds.foldl max 0) m))

/-- The masters' object is poisoned, so that a dailies fetch faults (R263, R269). -/
def Device.masterBad (d : Device) (master : Nat) : Bool := ((d.entry master).map (·.poisoned)).getD false

/-- The oldest reference of a stage is there and is compared. A fetch that meets a poisoned masters' object skips its tile (R269),
one that meets a move waits. A layer without a masters' object on this device has no reference; its tile counts as skipped. -/
def Device.dailyCompare (d : Device) (h : Nat) : Device :=
  match tget d.stages h with
  | none => d
  | some s => match s.dailies with
    | [] => d
    | (u, row, ys) :: rest =>
      let x := s.desc
      let master := d.masterOf (Desc.layer x)
      if d.sideTurn (s.core / 8) ≠ some (s.core % 8) ∨ d.coreWants s.core ∨ !d.dailyWants s then d
      else if d.masterBad master then
        ((((d.bump Obj.faultsPoisoned).sideTakes s.core).onStage h (fun s => { s with dailies := rest })).onTake (fun t => { t with
          skipped := t.skipped + 1 }))
      else
        let rs := (List.range ys.length).map (fun o => d.reference master x row (128 * u + o))
        let refs := rs.map (·.1)
        let d := ((d.sideTakes s.core).onStage h (fun s => { s with dailies := rest })).coreFlags s 5 (orFlags (rs.map (·.2)))
        if !d.names master ∨ refs.any (fun r => !fIsFinite r) then d.onTake (fun t => { t with skipped := t.skipped + 1 })
        else
          let beyond := dailyOver (d.get Obj.dailiesThreshold) ys refs
          let d := d.onTake (fun t => { t with tiles := t.tiles + 1, overTol := t.overTol + beyond.toNat })
          (d.bump Obj.dailiesTilesTotal).addTo Obj.dailiesOverTotal beyond.toNat

/-- DAILIES_REFERENCE_COMPLETE (R177). -/
def execDailiesReferenceComplete (stage : Nat) (s : State) := onDev s (fun d => d.dailyCompare stage)

end Sys2Proof.Machine
end

