-- ==== Sys2Proof/Machine/Collect.lean ====
section
/-!
DEFINITION. The acceptance of a message (R285, R286) and the collectives (R294 to R298): entries and their trees, the local
weight gradient (R158) and its encoding with error feedback (R203), partials, results, and completion.
-/
namespace Sys2Proof.Machine

/-! ### Acceptance -/

/-- A message that R285 drops whatever its kind: a reserved field set, or a peer declared lost. -/
def Device.staleMessage (d : Device) (m : Msg) : Bool := m.reserved || d.isLost m.src || 16384 < m.payload.length

/-- A message dropped under R285. -/
def Device.dropMessage (d : Device) : Device := d.bump Obj.msgStaleDrops

/-- A message of an acknowledged kind that is well formed is accepted once (R286): the acknowledgement goes back, and a
repeated one is only counted. A repeated one is acknowledged again: it has been accepted (DEDUCED, log entry 17). -/
def Device.accept (d : Device) (m : Msg) (f : Device → Device) : Device :=
  if d.net.accepted.contains (m.src, m.msgId) then (d.bump Obj.msgDuplicates).sendAck m.src m.msgId
  else f ((d.onNet (fun n => { n with accepted := (m.src, m.msgId) :: n.accepted })).sendAck m.src m.msgId)

/-! ### Entries (R294, R296) -/

namespace Ce
def op (e : Nat) : Nat := bits e 0 3
def host (e : Nat) : Bool := bit e 3
def bf16 (e : Nat) : Bool := bit e 4
def payload (e : Nat) : Nat := bits e 8 8
def partialF (e : Nat) : Nat := bits e 16 8
def resultF (e : Nat) : Nat := bits e 24 8
def fanin (e : Nat) : Nat := bits e 32 5
def root (e : Nat) : Nat := bits e 48 10
def layer (e : Nat) : Nat := bits e 64 32
def source (e : Nat) : Nat := bits e 96 32
def dest (e : Nat) : Nat := bits e 128 32
def rankList (e : Nat) : Nat := bits e 160 32
def members (e : Nat) : Nat := bits e 192 11
def elements (e : Nat) : Nat := bits e 224 32
/-- A reserved bit or value is set. -/
def reserved (e : Nat) : Bool :=
  3 < op e || bits e 5 3 != 0 || bits e 37 11 != 0 || bits e 58 6 != 0 || bits e 203 21 != 0 || bits e 256 256 != 0
/-- ALL_REDUCE and REDUCE_SCATTER add; the others carry bytes. -/
def reduces (e : Nat) : Bool := op e ≤ 1
/-- DESC_CHECK of an entry's messages (R285). -/
def check (e : Nat) : Nat := leAt (sha512 (leBytes 64 e)) 0 4
end Ce

/-- S of R296. -/
def shardSize (e : Nat) : Nat := 512 * ceilDiv (Ce.elements e) (512 * max 1 (Ce.members e))

/-- The trees of a collective: root position, first element and the element after the last; empty shards have none. -/
def shards (e : Nat) : List (Nat × Nat × Nat) :=
  let n := Ce.members e
  if Ce.op e = 3 then (if Ce.elements e = 0 then [] else [(Ce.root e, 0, Ce.elements e)])
  else
    let s := shardSize e
    ((List.range n).map (fun k => (k, min (k * s) (Ce.elements e), min ((k + 1) * s) (Ce.elements e)))).filter (fun x => x.2.1 < x.2.2)

/-- Children of a relative position. -/
def treeKids (e q : Nat) : List Nat := (rangeFrom (Ce.fanin e * q + 1) (Ce.fanin e)).filter (· < Ce.members e)

/-- This member's position in a collective. -/
def Device.memberPos (d : Device) (c : Coll) : Nat := (c.ranks.findIdx? (· == d.get Obj.jobRank)).getD 0

/-- The relative position of a member in the tree of shard `k`. -/
def relPos (e k i : Nat) : Nat := (i + Ce.members e - k) % max 1 (Ce.members e)

/-- The rank at a relative position. -/
def Coll.rankAt (c : Coll) (k q : Nat) : Nat := c.ranks.getD ((q + k) % max 1 (Ce.members c.entry)) 0

/-! ### Encodings -/

/-- A format of block lines. -/
def lineFormat (f : Nat) : Bool := f == Fmt.e5m2 || f == Fmt.e2m1

/-- FP32 values encoded (R65, or one by one), with what each decodes to; the flags are those of both (R70). -/
def encVals (f : Nat) (xs : List Nat) : List (Nat × Conv) :=
  if lineFormat f then
    (chunks 32 (xs.length + 1) xs).flatMap (fun b =>
      let e := blockEncode f (b.map (fun x => (x, Rounding.rne)))
      e.elems.map (fun c => let v := blockConv f e.exp c.code; (v.code, { c with flags := c.flags ||| v.flags })))
  else xs.map (fun x => let c := convF32 f .rne x; (toF32 f c.code, c))

/-- Elements of one message (R285): whole block lines, or whole elements. -/
def perMessage (f : Nat) : Nat := if lineFormat f then 56 * lineElems f else 16384 / (max 1 (fmtBits f / 8))

/-- The payload of some values: block lines with a tag, or codes. -/
def payloadOf (f tag : Nat) (xs : List Nat) : Bytes :=
  if lineFormat f then
    ((chunks (lineElems f) (xs.length + 1) xs).map (fun l => (lineEncode f tag (l.map (fun x => (x, Rounding.rne)))).bytes)).flatten
  else (xs.map (fun x => leBytes (fmtBits f / 8) (convF32 f .rne x).code)).flatten

/-- The messages of a run of values from element `off`: offset and payload. -/
def messagesOf (f tag off : Nat) (xs : List Nat) : List (Nat × Bytes) :=
  let n := perMessage f
  (List.range (ceilDiv xs.length n)).map (fun i => (off + n * i, payloadOf f tag ((xs.drop (n * i)).take n)))

/-- A block line that R64 or R62 refuses. -/
def refusedLine (f tag : Nat) (l : Bytes) : Bool := let s := lineSide l; !(s.ok && s.fmt == f && s.tag == tag)

/-- The values a payload carries, with the flags of reading them (R54). A block line that R64 or R62 refuses gives none. -/
def payloadVals (f tag : Nat) (b : Bytes) : List (Option Nat) × Flags :=
  if lineFormat f then
    let ls := (chunks 288 (b.length + 1) b).map (fun l =>
      if refusedLine f tag l then (List.replicate (lineElems f) none, 0)
      else
        let cs := lineConvs l
        (cs.map (fun c => some c.code), orFlags (cs.map (·.flags))))
    (ls.flatMap (·.1), orFlags (ls.map (·.2)))
  else
    let w := max 1 (fmtBits f / 8)
    let cs := (List.range (b.length / w)).map (fun i => leAt b (w * i) w)
    (cs.map (fun c => some (toF32 f c)), orFlags (cs.map (readFlags f)))

/-- The lines of a payload that are refused. -/
def refusedLines (f tag : Nat) (b : Bytes) : Nat :=
  if lineFormat f then ((chunks 288 (b.length + 1) b).filter (refusedLine f tag)).length else 0

/-- The values of a payload, with a free value for each element of a refused line: the converter writes no output for it
(R64), and what its reader then adds the text does not say. -/
def Device.filled (d : Device) (xs : List (Option Nat)) : List Nat × Device :=
  if xs.all (·.isSome) then (xs.filterMap id, d)
  else
    let (n, d) := d.draw
    ((List.range xs.length).map (fun i => ((xs[i]?).getD none).getD (bits (Config.unstated n) (32 * i) 32)), d)

/-! ### Local weight gradients (R158) -/

/-- The FP32 elements of a layer's accumulators. -/
def accumulatorElems (x : Nat) : Nat := accumulatorBytes x / 4

/-- The training stages of a layer with weight gradients, in ascending REPLICA. -/
def Device.gradStages (d : Device) (layer : Nat) : List (Nat × Stage) :=
  let l := (d.layerStages 0 layer).filter (fun p => Desc.wgrad p.2.desc)
  l.foldl (fun acc p => (acc.filter (fun q => Desc.replica q.2.desc ≤ Desc.replica p.2.desc)) ++ [p] ++
    (acc.filter (fun q => Desc.replica p.2.desc < Desc.replica q.2.desc))) []

/-- Elements of an object read as FP32. -/
def Device.f32At (d : Device) (h n : Nat) : List Nat := (List.range n).map (fun i => d.readNat h (4 * i) 4)

/-- The local weight gradient of a layer, with the flags of its additions. -/
def Device.localGradient (d : Device) (layer : Nat) : Row :=
  match d.gradStages layer with
  | [] => ([], 0)
  | p :: rest =>
    rest.foldl (fun acc q =>
      let r := row2 Val.add acc.1 (d.f32At (Desc.wgradAcc q.2.desc) (accumulatorElems q.2.desc))
      (r.1, acc.2 ||| r.2)) (d.f32At (Desc.wgradAcc p.2.desc) (accumulatorElems p.2.desc), 0)

/-- RESIDUAL_OBJECT of a layer, where it names an object (R188). -/
def Device.residualOf (d : Device) (layer : Nat) : Option Nat :=
  match d.layerEntry layer with
  | some e => if d.names (bits e 352 32) then some (bits e 352 32) else none
  | none => none

/-- RESIDUAL_FORMAT of a layer's group is BF16 (R190). -/
def Device.residualBf16 (d : Device) (layer : Nat) : Bool :=
  match d.layerEntry layer with
  | some e => bit (d.run.groups.getD (bits e 32 8) 0) 14
  | none => false

/-- A code of BF16 or FP32 as FP32, with the flag of reading a signalling NaN (R54). -/
def asF32 (bf : Bool) (code : Nat) : Nat × Flags := if bf then (toF32 Fmt.bf16 code, readFlags Fmt.bf16 code) else (code, 0)

/-- Element `i` of a residual, as FP32; residuals stand in the order of the accumulator's elements (DEDUCED, log entry 18). -/
def Device.residualAt (d : Device) (h : Nat) (bf : Bool) (i : Nat) : Nat × Flags :=
  asF32 bf (d.readNat h (if bf then 2 * i else 4 * i) (if bf then 2 else 4))

/-- A residual is carried for this entry (R203). -/
def Device.feedsBack (d : Device) (e : Nat) : Option Nat :=
  if !Ce.host e && lineFormat (Ce.payload e) then d.residualOf (Ce.layer e) else none

/-- v of R203 step 1, with the flags of its arithmetic. -/
def Device.withResidual (d : Device) (layer h : Nat) (cg : Int) (g : List Nat) : Row :=
  let bf := d.residualBf16 layer
  let rs := (List.range g.length).map (d.residualAt h bf)
  let r := rowBy Val.mul (rs.map (·.1)) (fPow2 cg)
  let v := row2 Val.add g r.1
  (v.1, orFlags (rs.map (·.2)) ||| r.2 ||| v.2)

/-- r' of R203 step 2, with the flags of its arithmetic. -/
def pendingResidual (cg : Int) (v vh : List Nat) : Row :=
  let s := row2 Val.sub v vh
  let r := rowBy Val.mul s.1 (fPow2 (-cg))
  (r.1, s.2 ||| r.2)

/-! ### The course of a collective -/

/-- A collective changed. -/
def Device.onColl (d : Device) (i : Nat) (f : Coll → Coll) : Device := d.onNet (fun n => { n with colls := tmod n.colls i f })

/-- An encoding is counted against DEST's record, and its flags and non-finite elements are charged (R168, R178, R297); a
block without a finite encoding counts in NONFINITE_BLOCK_COUNT (R65). -/
def Device.countEncoding (d : Device) (e f : Nat) (cs : List Conv) : Device :=
  let d := d.addTo Obj.nonfiniteBlockCount (if f = Fmt.e2m1 then
    ((chunks 32 (cs.length + 1) cs).filter (fun b => b.any (fun c => c.outcome == .nonFinite))).length else 0)
  let d := (d.count (Ce.dest e) f 0 (cs.map (fun c => (c.code, c.outcome)))).takeFlags 7 (orFlags (cs.map (·.flags)))
  if cs.any (fun c => c.outcome == .nonFinite) then d.chargeBit Hb.nonfiniteGrad else d

/-- Values decoded: a non-finite one is charged on the member that decodes it. -/
def Device.chargeDecoded (d : Device) (xs : List Nat) : Device :=
  if xs.all fIsFinite then d else d.chargeBit Hb.nonfiniteGrad

/-- DEST takes no write where it is DATA_RO: the collective engine's access is a PROTECTION fault on behalf of no stage (R263). -/
def Device.destWrite (d : Device) (e off : Nat) (bs : Bytes) : Device :=
  if d.dataRo (Ce.dest e) then d.protectionFault noStage (Ce.dest e) off true else d.writeBytes (Ce.dest e) off bs

/-- A part of DEST written in FP32. -/
def Device.writeDest (d : Device) (i e off : Nat) (xs : List Nat) : Device :=
  let d := d.destWrite e (4 * off) ((xs.map (leBytes 4)).flatten)
  d.onColl i (fun c => { c with nonFinite := c.nonFinite + (xs.filter (fun x => !fIsFinite x)).length })

/-- Messages of a shard to a rank. -/
def Device.sendShard (d : Device) (i : Nat) (c : Coll) (kind dest f off : Nat) (xs : List Nat) : Device :=
  d.each (messagesOf f (c.tag % 64) off xs) (fun d m => d.send dest kind false i c.tag m.1 f (Ce.check c.entry) m.2)

/-- A collective completes once every shard is done (R298): HOST ones raise COLLECTIVE_DONE. -/
def Device.tryComplete (d : Device) (i : Nat) : Device :=
  match tget d.net.colls i with
  | none => d
  | some c =>
    if c.running && !c.complete && (shards c.entry).all (fun s => c.done.contains s.1) then
      let d := (d.onColl i (fun c => { c with running := false, complete := true, own := [], got := [], results := [] })).bump
        Obj.collectivesDone
      d.onlyIf (Ce.host c.entry) (fun d => d.raise 0x0A08 [a2 i, a8 c.invocations, a4 c.nonFinite])
    else d

/-- A part of DEST written with the values there are: a refused line leaves its elements as they were (R64). -/
def Device.writeSome (d : Device) (i e off : Nat) (xs : List (Option Nat)) : Device :=
  let kept := (List.range xs.length).map (fun j => ((xs[j]?).getD none).getD (d.readNat (Ce.dest e) (4 * (off + j)) 4))
  let d := d.destWrite e (4 * off) ((kept.map (leBytes 4)).flatten)
  d.onColl i (fun c => { c with nonFinite := c.nonFinite + ((xs.filterMap id).filter (fun x => !fIsFinite x)).length })

/-- Values rounded to BF16 where the sums are (R297 step 2), with the flags of the rounding. -/
def sumRound (e : Nat) (xs : List Nat) : Row :=
  if Ce.bf16 e then
    let cs := xs.map (convF32 Fmt.bf16 .rne)
    (cs.map (fun c => toF32 Fmt.bf16 c.code), orFlags (cs.map (·.flags)))
  else (xs, 0)

/-- One child's values added to a partial, each addition rounded. -/
def addChild (e : Nat) (acc : Row) (kid : List Nat) : Row :=
  let r := List.zipWith (fun x y =>
    let s := (floatVal Fmt.fp32 x).add (floatVal Fmt.fp32 y)
    let c := toFloat (if Ce.bf16 e then Fmt.bf16 else Fmt.fp32) .rne s.1
    (toF32 (if Ce.bf16 e then Fmt.bf16 else Fmt.fp32) c.code, s.2 ||| c.flags)) acc.1 kid
  (r.map (·.1), acc.2 ||| orFlags (r.map (·.2)))

/-- A key of `got`: shard and child. -/
def gotKey (k q : Nat) : Nat := k * 2 ^ 16 + q

/-- The values a table of elements from `lo` to `hi` holds, where it holds them all. -/
def wholeShard (t : Tbl Nat) (lo hi : Nat) : Option (List Nat) :=
  if t.length = hi - lo then some (t.map (·.2)) else none

/-- A shard's partial at this member is formed and goes up, or, at the root, becomes the result and goes down (R297). -/
def Device.reduceShard (d : Device) (i : Nat) (sh : Nat × Nat × Nat) : Device :=
  match tget d.net.colls i with
  | none => d
  | some c =>
    let e := c.entry
    let (k, lo, hi) := sh
    let q := relPos e k (d.memberPos c)
    let kids := treeKids e q
    let vals := kids.map (fun q => (tget c.got (gotKey k q)).bind (fun t => wholeShard t lo hi))
    if !c.running ∨ c.sentUp.contains k ∨ vals.any (·.isNone) then d
    else
      let v := (c.own.drop lo).take (hi - lo)
      let cs := (encVals (Ce.payload e) v).map (·.1)
      let (p, fl) := (vals.filterMap id).foldl (addChild e) (sumRound e cs)
      let d := (d.onColl i (fun c => { c with sentUp := k :: c.sentUp })).takeFlags 7 fl
      if q = 0 then
        let enc := encVals (Ce.resultF e) p
        let r := enc.map (·.1)
        let d := d.countEncoding e (Ce.resultF e) (enc.map (·.2))
        let d := d.writeDest i e lo r
        let d := if Ce.op e = 0 then d.each kids (fun d q => d.sendShard i c Kind.result (c.rankAt k q) (Ce.resultF e) lo p) else d
        d.onColl i (fun c => { c with done := k :: c.done })
      else
        let up := c.rankAt k ((q - 1) / Ce.fanin e)
        let d := if kids = [] then d.sendShard i c Kind.contribution up (Ce.payload e) lo v
          else (d.countEncoding e (Ce.partialF e) ((encVals (Ce.partialF e) p).map (·.2))).sendShard i c Kind.contribution up
            (Ce.partialF e) lo p
        if Ce.op e = 1 then d.onColl i (fun c => { c with done := k :: c.done }) else d

/-- The bytes of a shard that a carrying collective brought, written to DEST. -/
def Device.writeCodes (d : Device) (e off : Nat) (bs : Bytes) : Device :=
  d.destWrite e (off * (fmtBits (Ce.payload e) / 8)) bs

/-- The root of a carrying collective's tree sends its elements down (R298). -/
def Device.carryShard (d : Device) (i : Nat) (sh : Nat × Nat × Nat) : Device :=
  match tget d.net.colls i with
  | none => d
  | some c =>
    let e := c.entry
    let (k, lo, hi) := sh
    let f := Ce.payload e
    let w := fmtBits f / 8
    if !c.running ∨ c.done.contains k ∨ relPos e k (d.memberPos c) ≠ 0 then d
    else
      let bs := d.readBytes (Ce.source e) (w * lo) (w * (hi - lo))
      let n := perMessage f
      let msgs := (List.range (ceilDiv (hi - lo) n)).map (fun j => (lo + n * j, (bs.drop (w * n * j)).take (w * n)))
      let d := d.each (treeKids e 0) (fun d q => d.each msgs (fun d m =>
        d.send (c.rankAt k q) Kind.result false i c.tag m.1 f (Ce.check e) m.2))
      (d.writeCodes e lo bs).onColl i (fun c => { c with done := k :: c.done })

/-- Every shard goes as far as it can. -/
def Device.driveColl (d : Device) (i : Nat) : Device :=
  match tget d.net.colls i with
  | none => d
  | some c =>
    let d := d.each (shards c.entry) (fun d s => if Ce.reduces c.entry then d.reduceShard i s else d.carryShard i s)
    d.tryComplete i

/-- A collective with one member writes its values as they are (R297 step 5). -/
def Device.aloneColl (d : Device) (i : Nat) (c : Coll) (v : List Nat) : Device :=
  let e := c.entry
  let d := if Ce.reduces e then d.writeDest i e 0 v
    else d.writeCodes e 0 (d.readBytes (Ce.source e) 0 (Ce.elements e * (fmtBits (Ce.payload e) / 8)))
  (d.onColl i (fun c => { c with done := (shards e).map (·.1) })).tryComplete i

/-- A collective starts on this member: its values are taken, encoded and counted. -/
def Device.startColl (d : Device) (i : Nat) (v : List Nat) : Device :=
  match tget d.net.colls i with
  | none => d
  | some c =>
    let e := c.entry
    let d := d.onColl i (fun c => { c with running := true, own := v })
    if Ce.members e ≤ 1 then d.aloneColl i c v
    else if Ce.reduces e then
      let enc := encVals (Ce.payload e) v
      (d.countEncoding e (Ce.payload e) (enc.map (·.2))).driveColl i
    else d.driveColl i

/-- The partial of relative position `q` in the tree of shard 0 for one element, of which `cs` gives every position's value: the
position's own, then each child's as it arrives, in ascending order (R297 steps 2 and 3), with the flags of its additions. -/
def treePartial (e : Nat) (cs : Nat → Nat) : Nat → Nat → Row
  | 0, q => sumRound e [cs q]
  | n + 1, q => (treeKids e q).foldl (fun acc k =>
      let kid := if treeKids e k = [] then [cs k] else (encVals (Ce.partialF e) (treePartial e cs n k).1).map (·.1)
      addChild e acc kid) (sumRound e [cs q])

/-- A learned activation scale's gradient is reduced like a weight gradient of its layer (R131): the sums of the layer's replicas in
ascending REPLICA, then over the entry's members with its formats, in its order of addition. The text names no shard and no
message that carries the element: it goes through the tree of shard 0, encoded alone and without error feedback, and what the
other members contribute is open (DESIGN CHOICE, log entry 21). -/
def Device.reduceActScale (d : Device) (c : Coll) : Device :=
  let e := c.entry
  let stages := d.gradStages (Ce.layer e)
  if !stages.any (fun p => Desc.learned p.2.desc) then d
  else
    let own := match stages.map (fun p => p.2.actGrad) with
      | [] => (0, 0)
      | s :: rest => rest.foldl (fun acc x => let r := f32bin Val.add acc.1 x; (r.1, acc.2 ||| r.2)) (s, 0)
    let keep : Device → Nat → Device := fun d v => d.onRun (fun r => { r with actGrads := tset r.actGrads (Ce.layer e) v })
    if Ce.members e ≤ 1 then keep (d.takeFlags 7 own.2) own.1
    else
      let me := d.memberPos c
      let (n, d) := d.draw
      let enc := encVals (Ce.payload e) [own.1]
      let cs : Nat → Nat := fun q => if q = me then (enc.map (·.1)).headD 0
        else ((encVals (Ce.payload e) [bits (Config.unstated n) (32 * q) 32]).map (·.1)).headD 0
      let res := encVals (Ce.resultF e) (treePartial e cs (Ce.members e) 0).1
      let d := (d.countEncoding e (Ce.payload e) (enc.map (·.2))).takeFlags 7 (own.2 ||| (treePartial e cs (Ce.members e) me).2)
      let r := (res.map (·.1)).headD 0
      keep (d.chargeDecoded [r]) r

/-- The gradients of a layer go into its reduction, with the residual where error feedback applies (R203): the pending
residual is held with the take. -/
def Device.startReduction (d : Device) (i : Nat) (c : Coll) : Device :=
  let e := c.entry
  let layer := Ce.layer e
  let t := d.get Obj.takeNumber
  let (g, fl) := d.localGradient layer
  let d := (d.reduceActScale c).takeFlags 7 fl
  let d := d.chargeDecoded g
  let cg := (d.run.take.map (·.cg)).getD 0
  if Ce.members e ≤ 1 then d.startColl i g
  else match d.feedsBack e with
    | none => d.startColl i g
    | some h =>
      let v := d.withResidual layer h cg g
      let r := pendingResidual cg v.1 ((encVals (Ce.payload e) v.1).map (·.1))
      ((d.takeFlags 7 (v.2 ||| r.2)).onRun (fun x => { x with residuals := tset x.residuals layer (t, r.1) })).startColl i v.1

/-! ### The end of a layer's local work (R42 step 5) -/

/-- The samples of the open take, once every training input ring has given its last (R388). -/
def Device.takeCount (d : Device) : Option Nat :=
  match d.run.take with
  | none => none
  | some t =>
    let n := t.entries.length
    if d.firstStages.all (fun p => d.takeEnds (Desc.inputObject p.2.desc) n) then some n else none

/-- Some training stage has failed with OBJECT_LOST (R179). -/
def Device.anyFailed (d : Device) : Bool := d.stages.any (fun p => !Desc.serving p.2.desc && p.2.state == .failed)

/-- A training stage holds nothing of the take. -/
def Stage.idle (s : Stage) : Bool :=
  s.fwd.isNone && s.bwd.isNone && s.gradIn.isEmpty && s.op.isNone

/-- A stage has finished its last sample of the take; one that failed counts as finished, and so does one that waits for a
stage that failed (R42, R179). -/
def Device.stageDone (d : Device) (h : Nat) (s : Stage) (n : Nat) : Bool :=
  s.state == .failed || (s.idle && (d.anyFailed ||
    (n ≤ s.nextIx && s.stash.isEmpty && !s.joins.any (fun j => j.stream == 0)))) &&
  !d.deferred.any (fun q => q.2.any (fun it => it.stage == h))

/-- The local work of a layer is complete. -/
def Device.layerDone (d : Device) (layer : Nat) : Bool :=
  match d.takeCount with
  | none => d.anyFailed && (d.layerStages 0 layer).all (fun p => d.stageDone p.1 p.2 0)
  | some n => (d.layerStages 0 layer).all (fun p => d.stageDone p.1 p.2 n)

/-- Poison keeps a reduction from starting: no contribution is ever made of marked bytes (R265, R272). The take carries OBJECT_LOST,
and does not wait for it (DESIGN CHOICE, log entry 116). -/
def Device.collMarked (d : Device) (c : Coll) : Bool :=
  !Ce.host c.entry && (d.marked ([Ce.source c.entry, Ce.dest c.entry] ++ (d.residualOf (Ce.layer c.entry)).toList ++
    (d.gradStages (Ce.layer c.entry)).map (fun p => Desc.wgradAcc p.2.desc))).isSome

/-- The reductions whose layers' last local item has completed start (R42 step 5). -/
def Device.startReductions (d : Device) : Device :=
  if d.takeOpen then
    d.each d.net.colls (fun d p =>
      match tget d.net.colls p.1 with
      | some c =>
        if !Ce.host c.entry && !c.complete && !c.running && !d.collMarked c && d.layerDone (Ce.layer c.entry) then d.startReduction p.1 c else d
      | none => d)
  else d

/-! ### Commands -/

/-- The checks of R285 and R295 of a collective message; what it then does. A repeat of an accepted message is a duplicate
(R286), also once its collective has completed. -/
def Device.collMessage (d : Device) (m : Msg) (f : Device → Coll → Device) : Device :=
  let d := d.hear m.src
  if d.staleMessage m then d.dropMessage
  else if d.net.accepted.contains (m.src, m.msgId) then d.accept m (fun d => d)
  else match tget d.net.colls m.entry with
    | none => d.dropMessage
    | some c =>
      if m.descCheck ≠ Ce.check c.entry then (d.raise 0x0A07 [a2 m.entry, a2 m.src]).detectedFault
      else if m.take ≠ c.tag ∨ c.complete ∨ (Ce.host c.entry ∧ !c.running) then d.dropMessage
      else d.accept m (fun d => f d c)

/-- The tree a message's elements belong to, and the sender's relative position in it. -/
def shardOf (e off : Nat) : Option (Nat × Nat × Nat) := (shards e).find? (fun s => s.2.1 ≤ off && off < s.2.2)

/-- Values placed by their element numbers. -/
def placeVals (t : Tbl Nat) (off hi : Nat) (xs : List Nat) : Tbl Nat :=
  (List.range (min xs.length (hi - off))).foldl (fun t i => tset t (off + i) (xs.getD i 0)) t

/-- Each line refused under R64 or R62 is a SCALE_SKEW of the take, with the tag the line carries. -/
def Device.lineRefused (d : Device) (c : Coll) (f : Nat) (payload : Bytes) : Device :=
  d.onlyIf (lineFormat f) (fun d =>
    d.each ((chunks 288 (payload.length + 1) payload).filter (refusedLine f (c.tag % 64))) (fun d l =>
      d.scaleSkew 6 (Ce.layer c.entry) (Ce.dest c.entry) (c.tag % 64) (lineSide l).tag 0 (d.get Obj.takeNumber) 0))

/-- A contribution or a partial of a child (R297). -/
def Device.contributed (d : Device) (m : Msg) : Device :=
  d.collMessage m (fun d c =>
    let e := c.entry
    match shardOf e m.offset, c.ranks.findIdx? (· == m.src) with
    | some (k, _, hi), some pos =>
      let q := relPos e k pos
      let (vs, fl) := payloadVals m.format (c.tag % 64) m.payload
      let d := ((d.lineRefused c m.format m.payload).takeFlags 7 fl).chargeDecoded (vs.filterMap id)
      let (xs, d) := d.filled vs
      (d.onColl m.entry (fun c => { c with got := tset c.got (gotKey k q) (placeVals (tgetD c.got (gotKey k q) []) m.offset hi xs) })).driveColl
        m.entry
    | _, _ => d)

/-- CONTRIBUTION (R297). -/
def execContribution (m : Msg) (s : State) := onDev s (fun d => d.contributed m)

/-- A result on its way down: it is passed on to the children and written (R297, R298). -/
def Device.resulted (d : Device) (m : Msg) : Device :=
  d.collMessage m (fun d c =>
    let e := c.entry
    match shardOf e m.offset with
    | none => d
    | some (k, lo, hi) =>
      let q := relPos e k (d.memberPos c)
      let d := d.each (treeKids e q) (fun d x =>
        d.send (c.rankAt k x) Kind.result false m.entry c.tag m.offset m.format (Ce.check e) m.payload)
      let (xs, fl) := if Ce.reduces e then payloadVals m.format (c.tag % 64) m.payload
        else (List.replicate (m.payload.length / (max 1 (fmtBits (Ce.payload e) / 8))) (some 0), 0)
      let d := if Ce.reduces e then
          (((d.lineRefused c m.format m.payload).takeFlags 7 fl).chargeDecoded (xs.filterMap id)).writeSome m.entry e m.offset
            (xs.take (hi - m.offset))
        else d.writeCodes e m.offset m.payload
      let t := placeVals (tgetD ((tget d.net.colls m.entry).getD c).results k []) m.offset hi (xs.map (·.getD 0))
      let d := d.onColl m.entry (fun c => { c with results := tset c.results k t })
      let d := if t.length = hi - lo then d.onColl m.entry (fun c => { c with done := k :: c.done }) else d
      d.tryComplete m.entry)

/-- RESULT (R297). -/
def execResult (m : Msg) (s : State) := onDev s (fun d => d.resulted m)

/-- A started collective holds its entry: it runs, or waits to. -/
def Coll.busy (c : Coll) : Bool := c.running || c.waits

/-- The objects a HOST collective reads and writes on this member: its SOURCE where a shard's elements start here, its DEST. -/
def Device.collObjects (d : Device) (c : Coll) : List Nat :=
  let e := c.entry
  (if Ce.reduces e || (shards e).any (fun s => relPos e s.1 (d.memberPos c) == 0) then [Ce.source e] else []) ++ [Ce.dest e]

/-- An object no wait makes readable: engines may not touch it, or an access to it fails at once (R263, R269, R270). -/
def Device.barred (d : Device) (h : Nat) : Bool :=
  match d.entry h with
  | none => true
  | some e => e.forbids 0 false true || d.failsAtOnce h e

/-- The fault of such an access, on behalf of no stage (R263). -/
def Device.barredFault (d : Device) (h : Nat) : Device :=
  match d.entry h with
  | none => d.protectionFault noStage h 0 false
  | some e => if e.forbids 0 false true then d.protectionFault noStage h 0 false else d.lostFault e

/-- A HOST collective whose objects the engines can read begins. -/
def Device.beginHost (d : Device) (i : Nat) (c : Coll) : Device :=
  let e := c.entry
  (d.onColl i (fun c => { c with waits := false })).startColl i (if Ce.reduces e then d.f32At (Ce.source e) (Ce.elements e) else [])

/-- A HOST collective is started: it begins at once, or waits until its objects can be read, the access that met the first of them
counted and what resolves it asked for (R263, R272). Where nothing resolves the fault it ends with nothing sent or written (DESIGN
CHOICE, log entry 128). -/
def Device.startHost (d : Device) (i : Nat) (c : Coll) : Device :=
  let hs := d.collObjects c
  match hs.find? d.barred, d.unreadable hs with
  | some h, _ => (d.barredFault h).onColl i (fun c => { c with waits := false, complete := true })
  | none, some h => (d.faultAt h none noStage (d.get Obj.takeNumber)).onColl i (fun c => { c with waits := true })
  | none, none => d.beginHost i c

/-- The HOST collectives that wait begin once their objects can be read. -/
def Device.startWaiting (d : Device) : Device :=
  d.each (d.net.colls.filter (fun p => p.2.waits && ((d.unreadable (d.collObjects p.2)).isNone || (d.collObjects p.2).any d.barred)))
    (fun d p => d.startHost p.1 p.2)

/-- COLLECTIVE_START (R298). -/
def collectiveStartEffect : Effect := fun d rq i =>
  match (if i < d.get Obj.collectiveCount then tget d.net.colls i else none) with
  | none => (St.range, d)
  | some c =>
    let e := c.entry
    if !Ce.host e then (St.range, d)
    else if c.busy then (St.busy, d)
    else if d.roleOf rq ≠ some 1 then (St.role, d)
    else
      let n := c.invocations + 1
      let d := d.onColl i (fun c => { c with
        invocations := n, tag := 2 ^ 63 + n, complete := false, got := [], sentUp := [], done := [], results := [], nonFinite := 0 })
      (St.ok, d.startHost i c)

/-- COLLECTIVE_START (R298). -/
def execCollectiveStart (rq : Req) (entry : Nat) (s : State) :=
  onReq s rq (fun d => d.command rq Obj.collectiveStart entry collectiveStartEffect)

end Sys2Proof.Machine
end

