-- ==== Sys2Proof/Machine/Backward.lean ====
section
/-!
DEFINITION. The backward of a training sample (chapter 05): the gradient lines a stage receives (R141), its input from the
stash or a recompute pass (R159 to R161), the input gradients (R142, R145, R146), what it sends below (R147, R224), and
the deferred weight-gradient queue (R143, R155 to R157).
-/
namespace Sys2Proof.Machine

/-! ### Gradients -/

/-- A gradient element as it travels: an E5M2 code with its block exponent, or a BF16 code (marked by 2^32). -/
def packGrad (bf : Bool) (ex code : Nat) : Nat := if bf then 2 ^ 32 + code else ex * 2 ^ 16 + code

/-- The exact value of a gradient element (R63, R141). -/
def gradVal (g : Nat) : Val :=
  if 2 ^ 32 ≤ g then floatVal Fmt.bf16 (g - 2 ^ 32)
  else
    let ex : Nat := g / 2 ^ 16
    if ex = 255 then .nan false
    else match floatVal Fmt.e5m2 (g % 2 ^ 16) with
      | .fin neg n d =>
        let (a, b) := scale2 n d ((ex : Int) - 127)
        .fin neg a b
      | v => v

/-- The gradient of an output element: the exact sum of what each destination sent (DEDUCED, log entry 16), with the flags of the
sum. -/
def Bwd.gradSum (w : Bwd) (t o : Nat) : Val × Flags :=
  match w.grads.map (fun rows => gradVal ((rows.getD t []).getD o 0)) with
  | [] => (.fin false 0 1, 0)
  | v :: vs => vs.foldl (fun a b => let r := Val.add a.1 b; (r.1, a.2 ||| r.2)) (v, 0)

/-- The same, its value alone. -/
def Bwd.grad (w : Bwd) (t o : Nat) : Val := (w.gradSum t o).1

/-- The flags of the sums of a sample's gradients, `width` elements a token. -/
def Bwd.gradFlags (w : Bwd) (width : Nat) : Flags :=
  orFlags ((List.range w.tokens).flatMap (fun t => (List.range width).map (fun o => (w.gradSum t o).2)))

/-- The gradient row of a token as FP32, with the flags of its conversion. -/
def Bwd.gradRow (w : Bwd) (width t : Nat) : Row :=
  let cs := (List.range width).map (fun o => toFloat Fmt.fp32 .rne (w.grad t o))
  (cs.map (·.code), orFlags (cs.map (·.flags)))

/-- The stages whose gradients a stage waits for: those it sent the sample to; the loss stage begins with itself. -/
def Device.gradSenders (d : Device) (h : Nat) (s : Stage) (seq : Nat) : List Nat :=
  if Desc.lossStage s.desc then [h] else ((d.nextStages s seq).filter (fun p => sendsBack p.2)).map (·.1)

/-- The training forward of a stage's sample, as the repeated quantisation sees it: nothing of it is counted (R159). -/
def Bwd.asFwd (w : Bwd) : Fwd := { stream := 0, seq := w.seq, take := w.take, tokens := w.tokens, recompute := some 0 }

/-- The rows of a stage's program for a backward sample. -/
def Device.bwdEnv (d : Device) (h : Nat) (s : Stage) (w : Bwd) (t : Nat) : ProgEnv :=
  d.progEnv h s 0 w.take w.seq t ((d.targets (d.entryOf 0 w.seq) w.tokens).getD t 0xFFFF_FFFF)

/-- The rows after the vector program. -/
def Device.bwdRows (d : Device) (h : Nat) (s : Stage) (w : Bwd) : List (List Nat) :=
  let rows := w.input.getD []
  (List.range rows.length).map (fun t => (progRow s.desc (d.bwdEnv h s w t) (rows.getD t [])).1)

/-- The stage quantises its input again (R159): codes, scale words, veins and, under LEARNED, the k of each clip block. -/
def Device.requantise (d : Device) (h : Nat) (s : Stage) (w : Bwd) : Bwd :=
  let x := s.desc
  if !quantised x then w
  else
    let rows := d.bwdRows h s w
    let f := Desc.aFormat x
    let modes : Nat → (Nat → Rounding) × (Nat → Rounding) := fun t => d.actModes h s w.asFwd t
    let blocks := ceilDiv rows.length (max 1 (Desc.clipBlock x))
    let ks := if Desc.learned x then (List.range blocks).map (fun b =>
        (b, (clipK (Desc.clipLimit x) (d.clipCounts s ((clipTokens x rows.length b).map (fun t => (t, rows.getD t [])))
          (fun t => (modes t).1))).1)) else []
    let scale : Nat → Nat := fun t =>
      if Desc.learned x then d.learnedScale s (tgetD ks (t / max 1 (Desc.clipBlock x)) 0)
      else (tokenScale f (rowAmax s.veinsUsed (rows.getD t [])).1).1
    { w with
      ks := ks
      codes := (List.range rows.length).map (fun t => (t, (quantElems f s.veinsUsed (rows.getD t []) (scale t) (modes t).1).1))
      scales := (List.range rows.length).map (fun t => (t, (ScaleWord.mk (scale t) 0 0 f 0).toNat))
      veinX := (List.range rows.length).map (fun t => (t, (veinElems s.veinsUsed (rows.getD t []) (modes t).2).map (·.code))) }

/-! ### Sending below (R147, R224) -/

/-- One row encoded for the stages below: block by block in E5M2, or BF16. -/
def encodeGrad (bf : Bool) (mode : Nat → Rounding) (row : List Nat) : List Nat × List Conv :=
  let xs := (List.range row.length).map (fun c => (row.getD c 0, mode c))
  if bf then
    let cs := xs.map (fun x => convF32 Fmt.bf16 x.2 x.1)
    (cs.map (fun c => packGrad true 0 c.code), cs)
  else
    let bs := (chunks 32 (xs.length + 1) xs).map (blockEncode Fmt.e5m2)
    (bs.flatMap (fun b => b.elems.map (fun c => packGrad false b.exp c.code)), bs.flatMap (fun b => b.elems))

/-- The range of a row that a source of a CONCAT join takes, by the sources' order. -/
def Device.sourceRanges (d : Device) (s : Stage) (sources : List Nat) : List (Nat × Nat) :=
  (sources.foldl (fun acc h =>
    let n := match tget d.stages h with
      | some y => Desc.rowOut y.desc
      | none => 0
    (acc.1 ++ [if Desc.joinMode s.desc = 1 then (acc.2, n) else (0, Desc.inChannels s.desc)], acc.2 + n))
    (([] : List (Nat × Nat)), 0)).1

/-- A range of gradient rows encoded for the stages below (R147). -/
def Device.gradRows (d : Device) (h : Nat) (s : Stage) (w : Bwd) (off n : Nat) (rows : List (List Nat)) : List (List Nat × List Conv) :=
  let x := s.desc
  let key := d.purposeKey h s 0 Pur.grad
  (List.range rows.length).map (fun t =>
    encodeGrad (Desc.bwdMode x == 1)
      (fun c => rounding (Desc.gRounding x) key w.take (elementIx x w.seq t (off + c) (Desc.inChannels x)))
      (((rows.getD t []).drop off).take n))

/-- The encoding of one gradient is counted (R168), its flags and its non-finite elements charged. -/
def Device.countGrad (d : Device) (s : Stage) (cs : List Conv) : Device :=
  let x := s.desc
  let d := (d.count (Desc.gradTensor x) (if Desc.bwdMode x = 1 then Fmt.bf16 else Fmt.e5m2) 0
    (cs.map (fun c => (c.code, c.outcome)))).coreFlags s 2 (orFlags (cs.map (·.flags)))
  if cs.any (fun c => c.outcome == .nonFinite) then d.chargeBit Hb.nonfiniteGrad else d

/-- The side data of the block lines of some gradient rows (R64): each line holds up to 256 elements. -/
def gradSides (tag : Nat) (rows : List (List Nat)) : List Nat :=
  rows.flatMap (fun r => (List.range (ceilDiv r.length 256)).map (fun j =>
    fld (tag % 64) 0 + fld Fmt.e5m2 8 + fld (min 256 (r.length - 256 * j)) 16))

/-- Side data that does not carry a tag, or fails R64. -/
def sideRefused (tag w : Nat) : Bool :=
  let f := bits w 8 8
  bits w 0 6 != tag % 64 || !lineFormat f || bits w 16 16 == 0 || lineElems f < bits w 16 16 || bits w 6 2 != 0 || bits w 32 96 != 0

/-- The lines of some gradients that are refused as they arrive (R64, R141). -/
def GradIn.refused (g : GradIn) : List Nat :=
  (List.range g.sides.length).filter (fun i => sideRefused g.count (g.sides.getD i 0))

/-- Encoded rows go to one stage below, in block lines tagged with the backward sample count, or in BF16. -/
def Device.handGrad (d : Device) (h : Nat) (s : Stage) (w : Bwd) (dest : Nat) (enc : List (List Nat × List Conv)) : Device :=
  let rows := enc.map (·.1)
  d.onStage dest (fun y => { y with gradIn := y.gradIn ++ [{
    sender := h, seq := w.seq, take := w.take, tag := s.bwdCount % 64, count := s.bwdCount, rows := rows
    sides := if Desc.bwdMode s.desc = 1 then [] else gradSides s.bwdCount rows }] })

/-- Gradient rows encoded and counted once, and handed to some stages below. -/
def Device.sendGrad (d : Device) (h : Nat) (s : Stage) (w : Bwd) (dests : List Nat) (off n : Nat) (rows : List (List Nat)) : Device :=
  let enc := d.gradRows h s w off n rows
  (d.countGrad s (enc.flatMap (·.2))).each dests (fun d g => d.handGrad h s w g enc)

/-- The items of a sample (R155): one per input tile, then the vein item; none without WGRAD. -/
def Stage.itemCount (s : Stage) : Nat :=
  if Desc.vector s.desc ∨ !Desc.wgrad s.desc then 0 else inTiles s.desc + (if s.veinsUsed = [] then 0 else 1)

/-- The backward of a sample ends once its gradient has gone below and its items are pushed: its stash is released (R162) and
the counts advance. -/
def Device.endBwd (d : Device) (h : Nat) : Device :=
  match tget d.stages h with
  | none => d
  | some s => match s.bwd with
    | none => d
    | some w =>
      if !w.sent ∨ w.pushed < s.itemCount then d
      else
        let next := w.seq + d.stride s
        d.onStage h (fun s => { s with
          bwd := none, bwdCount := s.bwdCount + 1, bwdIx := next, stash := tdel (tdel s.stash w.seq) (2 ^ 32 + w.seq),
          stashAt := tdel s.stashAt w.seq, stashLost := s.stashLost.filter (· != w.seq), missed := s.missed.filter (· != w.seq), origins := tdel s.origins w.seq })

/-- Gradients of the stage's input rows go to the sources (R224): an ADD join encodes them once for all, a CONCAT join splits
them, a PAIR join sends each source its own. -/
def Device.sendBelow (d : Device) (h : Nat) (s : Stage) (w : Bwd) (rows rows2 : List (List Nat)) : Device :=
  let src := tgetD s.origins w.seq []
  let n := Desc.inChannels s.desc
  let d := if !sendsBack s then d
    else if Desc.joinMode s.desc = 3 then
      (d.sendGrad h s w (src.take 1) 0 n rows).sendGrad h s w ((src.drop 1).take 1) 0 ((rows2.headD []).length) rows2
    else if Desc.joinMode s.desc = 1 then
      let rs := d.sourceRanges s src
      d.each (List.range src.length) (fun d i =>
        let (off, n) := rs.getD i (0, 0)
        d.sendGrad h s w [src.getD i 0] off n rows)
    else d.sendGrad h s w src 0 n rows
  (d.onBwd h (fun w => { w with sent := true })).endBwd h

/-! ### The deferred queue (R155, R156) -/

/-- The queue of a core. -/
def Device.queueOf (d : Device) (core : Nat) : List WItem := tgetD d.deferred core []

/-- An expansion of an activation code (R140): exact value with its factor, and the conversion. -/
def Device.expandX (d : Device) (h : Nat) (s : Stage) (w : Bwd) (t i : Nat) : Val × Conv × Nat :=
  let x := s.desc
  let code := (tgetD w.codes t []).getD i 0
  let sw := ScaleWord.ofNat (tgetD w.scales t 0)
  let sa := sw.scale
  let v := if sw.valid then codeVal (Desc.aFormat x) code 0 else .nan false
  if Desc.bwdMode x = 1 then
    let c := bf16Weight sa v
    (floatVal Fmt.bf16 c.code, c, (toFloat Fmt.fp32 .rne (Val.mul (floatVal Fmt.fp32 sa) v).1).code)
  else
    let cx := d.trackerExp (Desc.trackerX x)
    let key := d.purposeKey h s 0 Pur.xexp
    let c := e4m3Scale (rounding (Desc.xRounding x) key w.take (elementIx x w.seq t i (Desc.inChannels x))) sa cx v
    ((Val.mul (floatVal Fmt.e4m3 c.code) (pow2Val (-cx))).1, c, (toFloat Fmt.fp32 .rne (Val.mul (floatVal Fmt.fp32 sa) v).1).code)

/-- The activation operand of a stage that quantises nothing: its row in BF16 (R113, R140). -/
def Device.sideX (d : Device) (h : Nat) (s : Stage) (w : Bwd) (t : Nat) : List Val := bf16Row ((d.bwdRows h s w).getD t [])

/-- One accumulator element takes an item's partial (R143, R157). -/
def Device.addPartial (d : Device) (s : Stage) (acc off : Nat) (part : Nat × Flags) : Device :=
  let r := f32bin Val.add (d.readNat acc off 4) part.1
  let d := (d.writeNat acc off 4 r.1).coreFlags s 2 (part.2 ||| r.2)
  if fIsFinite r.1 then d else d.chargeBit Hb.nonfiniteGrad

/-- The partial of one element: chunks of 128 tokens (R143). -/
def partialOf (xs gs : List Val) : Nat × Flags := blockDot 128 (List.zip xs gs)

/-- Invalid scale words, and a conversion of a row of them is one of NaN inputs (R62): the count, and its flag (log entry 101). -/
def Device.invalidWords (d : Device) (s : Stage) (engine : Nat) (ws : List ScaleWord) : Device :=
  let n := (ws.filter (fun w => !w.valid)).length
  if n = 0 then d else (d.addTo Obj.invalidScaleCount n).coreFlags s engine Flags.invalid

/-- A main weight-gradient item (R143): its activations are expanded and counted, and each partial added. -/
def Device.mainItem (d : Device) (s : Stage) (it : WItem) : Device :=
  let x := s.desc
  let w := it.work
  let is := (List.range 256).filter (fun i => 256 * it.tile + i < Desc.inChannels x)
  let ex := is.map (fun i => (i, (List.range it.tokens).map (fun t =>
    if quantised x then d.expandX it.stage s w t (256 * it.tile + i)
    else (((d.sideX it.stage s w t)[256 * it.tile + i]?).getD (.fin false 0 1), ⟨0, 0, .none⟩, 0))))
  let cs := ex.flatMap (fun e => e.2.map (fun v => v.2.1))
  let f := if Desc.bwdMode x = 1 then Fmt.bf16 else Fmt.e4m3
  let d := if quantised x then
      let d := (d.count (Desc.inTensor x) f 0 (cs.map (fun c => (c.code, c.outcome)))).coreFlags s 2 (orFlags (cs.map (·.flags)))
      let d := d.invalidWords s 2 ((List.range it.tokens).map (fun t => ScaleWord.ofNat (tgetD w.scales t 0)))
      let d := if cs.any (fun c => c.outcome == .nonFinite) then d.chargeBit Hb.nonfiniteGrad else d
      if Desc.bwdMode x = 1 then d
      else d.track (Desc.trackerX x) (ex.flatMap (fun e => e.2.map (fun v => v.2.2))) (cs.map (fun c => (c.code, c.outcome)))
    else d.coreFlags s 5 (orFlags ((d.bwdRows it.stage s w).map bf16Flags))
  d.each ex (fun d e =>
    d.each (List.range (Desc.outChannels x)) (fun d o =>
      let p := partialOf (e.2.map (·.1)) ((List.range it.tokens).map (fun t => w.grad t o))
      d.addPartial s (Desc.wgradAcc x) ((o / 128 * inTiles x + it.tile) * 131072 + 4 * (o % 128 * 256 + e.1)) p))

/-- A vein weight-gradient item (R145). -/
def Device.veinItem (d : Device) (s : Stage) (it : WItem) : Device :=
  let x := s.desc
  let w := it.work
  let base := outTiles x * inTiles x * 131072
  let p := veinPasses s.veinsUsed.length
  d.each (List.range s.veinsUsed.length) (fun d k =>
    d.each (List.range (Desc.outChannels x)) (fun d o =>
      let xs := (List.range it.tokens).map (fun t => floatVal Fmt.bf16 ((tgetD w.veinX t []).getD k 0))
      let part := partialOf xs ((List.range it.tokens).map (fun t => w.grad t o))
      d.addPartial s (Desc.wgradAcc x) (base + o / 128 * (4 * p * 32 * 128) + 4 * (k * 128 + o % 128)) part))

/-- An item whose operands are there: its sample's input is back, what its rows are formed with again can be read, and its
accumulator is in the fast tier. A poisoned accumulator holds nothing up: OBJECT_LOST is set, and no contribution is made of it
(R269, R272). -/
def Device.itemReady (d : Device) (it : WItem) : Bool :=
  it.work.input.isSome && (match tget d.stages it.stage with
    | some s => (quantised s.desc || (d.unreadable (programObject s.desc)).isNone) &&
        (d.ready (Desc.wgradAcc s.desc) || d.marked [Desc.wgradAcc s.desc] != none)
    | none => true)

/-- The oldest eligible item of a queue among some stages' items: the first of its own stage, with its operands resident (R156
step 2). -/
def Device.eligible (d : Device) (q : List WItem) (among : Nat → Bool) : Option Nat :=
  (List.range q.length).find? (fun i =>
    match q[i]? with
    | none => false
    | some it => among it.stage && !(q.take i).any (fun j => j.stage == it.stage) && d.itemReady it)

/-- Item `i` of a core's queue completes (R143, R145, R157); an accumulator that is DATA_RO takes no write (R263). -/
def Device.runItem (d : Device) (core i : Nat) : Device :=
  let q := d.queueOf core
  match q[i]? with
  | none => d
  | some it =>
    let d := { d with deferred := tset d.deferred core (q.eraseIdx i) }
    match tget d.stages it.stage with
    | none => d
    | some s =>
      if d.dataRo (Desc.wgradAcc s.desc) then d.protectionFault it.stage (Desc.wgradAcc s.desc) 0 true
      else (if it.kind = 1 then d.veinItem s it else d.mainItem s it).bump Obj.deferredItems

/-- The next sample index of a stage that has not been refused. -/
def Device.skipRefused (d : Device) (stride : Nat) : Nat → Nat → Nat
  | 0, i => i
  | n + 1, i =>
    if (d.run.take.map (fun t => t.refused.contains i)).getD false then d.skipRefused stride n (i + stride) else i

/-- The sample a stage's backward takes next (R223). -/
def Device.bwdNext (d : Device) (s : Stage) : Nat :=
  d.skipRefused (d.stride s) ((d.run.take.map (fun t => t.refused.length)).getD 0) s.bwdIx

/-- A stage has finished the backward of its last sample of the take (R156 step 4). -/
def Device.bwdFinished (d : Device) (h : Nat) : Bool :=
  match tget d.stages h, d.takeCount with
  | some s, some n => s.bwd.isNone && n ≤ d.bwdNext s
  | _, _ => false

/-- The item the backward array issues next (R156): while an input-gradient operation of the stage that holds the issue unit is
ready, only one of a stage that has finished its last sample. -/
def Device.nextItem (d : Device) (core : Nat) : Option Nat :=
  let busy := match ((d.unitOf core).holder.bind (fun h => tget d.stages h)) with
    | some s => d.igradReady s
    | none => false
  d.eligible (d.queueOf core) (if busy then d.bwdFinished else fun _ => true)

/-! ### Pushing items (R155, R156 step 3) -/

/-- Bytes an item's activation operands take: a tile's codes and the sample's scale words, or its vein elements; and bytes of
the sample's gradients, as block lines or in BF16. -/
def Stage.xBytes (s : Stage) (kind tokens : Nat) : Nat :=
  if kind = 1 then 2 * tokens * s.veinsUsed.length
  else if quantised s.desc then tokens * (256 * fmtBits (Desc.aFormat s.desc) / 8 + 8) else 512 * tokens
def Stage.gBytes (s : Stage) (tokens : Nat) : Nat :=
  let n := Desc.outChannels s.desc
  if Desc.bwdMode s.desc = 1 then 2 * tokens * n else tokens * 288 * ceilDiv n 256

/-- The extents a stage's items hold in its cluster-store partition. -/
def Device.itemExtents (d : Device) (h : Nat) (s : Stage) : List (Nat × Nat) :=
  ((d.queueOf s.core).filter (fun it => it.stage == h)).flatMap (fun it => [(it.xAddr, it.xBytes), (it.gAddr, it.gBytes)]) ++
    ((s.bwd.bind (·.gAt)).map (fun g => [g])).getD []

/-- Buffer space in a stage's partition: the lowest place that holds it. The text does not say how the Q96 lays the buffers out;
where none of the stage's items is left and the space is still too small, the operands stand at its base (DESIGN CHOICE, log entry 108). -/
def Device.itemPlace (d : Device) (h : Nat) (s : Stage) (n : Nat) : Option Nat :=
  let lo := Desc.cstoreBase s.desc * 65536
  let used := d.itemExtents h s
  match firstFit lo (lo + Desc.cstorePages s.desc * 65536) n used with
  | some a => some a
  | none => if (d.queueOf s.core).any (fun it => it.stage == h) then none else some lo

/-- One item of a stage's sample is pushed; none where the queue is full or its operands find no buffer space. -/
def Device.pushOne (d : Device) (h : Nat) (s : Stage) (w : Bwd) : Option Device :=
  if d.get Obj.deferredDepth ≤ (d.queueOf s.core).length then none
  else
    let kind := if w.pushed < inTiles s.desc then 0 else 1
    let g := match w.gAt with
      | some g => some g
      | none => (d.itemPlace h s (s.gBytes w.tokens)).map (fun a => (a, s.gBytes w.tokens))
    match g with
    | none => none
    | some g =>
      let held := d.onBwd h (fun w => { w with gAt := some g })
      match held.itemPlace h { s with bwd := some { w with gAt := some g } } (s.xBytes kind w.tokens) with
      | none => none
      | some a =>
        let it : WItem := {
          stage := h, bindPos := s.pos, kind := kind, sample := w.seq, tile := if kind = 0 then w.pushed else 0, tokens := w.tokens
          xAddr := a, gAddr := g.1, xBytes := s.xBytes kind w.tokens, gBytes := g.2, work := { w with gAt := some g } }
        let q := d.queueOf s.core ++ [it]
        let d : Device := { held.onBwd h (fun w => { w with pushed := w.pushed + 1 }) with deferred := tset d.deferred s.core q }
        some (if d.get Obj.deferredHighWater < q.length then d.put Obj.deferredHighWater q.length else d)

/-- The items of a stage's sample are pushed as far as they go; a push that finds no room first forces the oldest eligible item
(R156 step 3), and waits where none is eligible. -/
def Device.pushItems (d : Device) (h : Nat) : Nat → Device
  | 0 => d
  | n + 1 =>
    match tget d.stages h with
    | none => d
    | some s => match s.bwd with
      | none => d
      | some w =>
        if s.itemCount ≤ w.pushed then d
        else match d.pushOne h s w with
          | some d => d.pushItems h n
          | none => match d.eligible (d.queueOf s.core) (fun _ => true) with
            | none => d
            | some i => ((d.runItem s.core i).bump Obj.deferredForced).pushItems h n

/-- Rounds enough for a push to empty the queue and to push every item. -/
def Device.pushAll (d : Device) (h : Nat) : Device :=
  (d.pushItems h (1024 + (match tget d.stages h with
    | some s => 2 * s.itemCount
    | none => 0))).endBwd h

/-- The item the backward array of a core issues completes; what waited for room is pushed. -/
def Device.wgradItem (d : Device) (core : Nat) : Device :=
  match (if d.coreStopped core then none else d.nextItem core) with
  | none => d
  | some i =>
    (d.runItem core i).each (tkeys (d.stages.filter (fun p => p.2.core == core))) Device.pushAll

/-- WGRAD_ITEM_COMPLETE (R143). -/
def execWgradItemComplete (core : Nat) (s : State) := onDev s (fun d => (d.wgradItem core).startReductions)

/-! ### A sample's backward begins -/

/-- The gradient of a VECTOR stage's rows: the program's backward. -/
def Device.vectorGrad (d : Device) (h : Nat) (s : Stage) (w : Bwd) : List Row :=
  let rows := w.input.getD []
  (List.range rows.length).map (fun t =>
    let g := w.gradRow (Desc.rowOut s.desc) t
    let r := progGrad s.desc (d.bwdEnv h s w t) (rows.getD t []) g.1
    (r.1, g.2 ||| r.2))

/-- The operands of a sample's items are those its stage now holds. -/
def Device.fillItems (d : Device) (core h : Nat) (w : Bwd) : Device :=
  { d with deferred := tmod d.deferred core (fun q => q.map (fun it =>
      if it.stage = h ∧ it.sample = w.seq then { it with work := w } else it)) }

/-- A stage with its gradients and its input goes on: a VECTOR stage does all of its backward; another quantises again, which
makes its items' operands whole, and ends there where it sends nothing below. -/
def Device.bwdReady (d : Device) (h : Nat) : Device :=
  match tget d.stages h with
  | none => d
  | some s => match s.bwd with
    | none => d
    | some w =>
      if w.input.isNone then d
      else
        let w := d.requantise h s w
        let d := (d.onBwd h (fun _ => w)).fillItems s.core h w
        if Desc.vector s.desc then
          let rs := d.vectorGrad h s w
          (d.coreFlags s 3 (orFlags (rs.map (·.2)))).sendBelow h s w (rs.map (·.1)) []
        else
          (if sendsBack s then d else d.onBwd h (fun w => { w with sent := true })).pushAll h

/-- The gradients of a stage's next sample, in ascending index, once all of them are here (R223). -/
def Device.nextGrad (d : Device) (h : Nat) (s : Stage) : Option (List GradIn) :=
  let q := d.bwdNext s
  let mine := s.gradIn.filter (fun g => g.seq == q)
  if mine ≠ [] ∧ (d.gradSenders h s q).all (fun x => mine.any (fun g => g.sender == x)) then some mine else none

/-- Block lines of some gradient rows (R64). -/
def gradLines (rows : List (List Nat)) : Nat := (rows.map (fun r => ceilDiv r.length 256)).sum

/-- Gradient lines that arrive (R141): each line whose SEQ_TAG is not that of the sender's backward sample count, or that fails R64,
is refused, and the elements it carried are open. -/
def Device.takeLines (d : Device) (s : Stage) (g : GradIn) : List (List Nat) × Device :=
  let gone := g.refused
  if gone = [] then (g.rows, d)
  else
    let tensor := ((tget d.stages g.sender).map (fun y => Desc.gradTensor y.desc)).getD noObject
    let d := d.each gone (fun d i =>
      d.scaleSkew (s.core / 256) (Desc.layer s.desc) tensor (g.count % 64) (bits (g.sides.getD i 0) 0 6) 0 g.take g.seq)
    let (k, d) := d.draw
    ((List.range g.rows.length).map (fun t =>
      let r := g.rows.getD t []
      let first := gradLines (g.rows.take t)
      (List.range r.length).map (fun o =>
        if gone.contains (first + o / 256) then
          let v := bits (Config.unstated k) (16 * (16384 * t + o)) 16
          packGrad false (v / 256) (v % 256)
        else r.getD o 0)), d)

/-- The anchor whose stash is fetched when a stage begins a backward: it stands at the LANE_POSITION before the stage's (R267). -/
def Device.anchorBelow (d : Device) (s : Stage) (seq : Nat) : Option (Nat × Stage) :=
  let lower := d.stages.filter (fun p => Desc.kind p.2.desc == 0 && Desc.lane p.2.desc == Desc.lane s.desc &&
    Desc.lanePosition p.2.desc < Desc.lanePosition s.desc)
  let top := lower.foldl (fun m p => max m (Desc.lanePosition p.2.desc)) 0
  (lower.filter (fun p => Desc.lanePosition p.2.desc == top)).find? (fun p =>
    p.2.anchor && (d.replicaFor 0 (Desc.layer p.2.desc) seq).map (·.1) == some p.1)

/-- What a stage reads to go on with its backward: its program's vectors, and the targets of its loss. -/
def Device.bwdObjects (d : Device) (s : Stage) (w : Bwd) : List Nat := programObject s.desc ++ targetObject s.desc (d.entryOf 0 w.seq)

/-- A stage waits for its own stash, and it is there: it has its input (R159). What its backward reads beside it parks it where it
cannot be read (R264, R265). -/
def Device.stashBack (d : Device) (h : Nat) : Device :=
  match tget d.stages h with
  | none => d
  | some s => match s.bwd with
    | none => d
    | some w =>
      if w.input.isNone && s.stashes w.seq && d.stashReady s then
        match d.unreadable (d.bwdObjects s w) with
        | some o => d.meets h o
        | none => (d.onBwd h (fun w => { w with input := tget s.stash w.seq })).bwdReady h
      else d

/-- A stage receives the gradient of its next sample (R141): it works on one sample at a time (R27), its items are pushed
(R155), the stash of the anchor below is fetched (R267), and an anchor takes its own input back where its stash is there. A
stage that waits for its stash takes it once it is. -/
def Device.gradReceive (d : Device) (h : Nat) : Device :=
  match tget d.stages h with
  | none => d
  | some s =>
    if d.halts s then d
    else if s.bwd.isSome then (d.stashBack h).pushAll h
    else if s.fwd.isSome then d
    else match d.nextGrad h s with
      | none => d
      | some [] => d
      | some (g :: gs) =>
        let (grads, d) := (g :: gs).foldl (fun acc g =>
          let r := acc.2.takeLines s g
          (acc.1 ++ [r.1], r.2)) (([] : List (List (List Nat))), d)
        let w : Bwd := { seq := g.seq, take := g.take, tokens := ((tgetD s.stash g.seq []).length)
                         grads := if Desc.lossStage s.desc then [] else grads, input2 := tgetD s.stash (2 ^ 32 + g.seq) [] }
        let d := d.onStage h (fun s => { s with bwd := some w, gradIn := s.gradIn.filter (fun y => y.seq != g.seq) })
        let d := d.coreFlags s (if Desc.vector s.desc then 3 else 2) (w.gradFlags (Desc.rowOut s.desc))
        let d := match d.anchorBelow s g.seq with
          | some a => d.fetch (Desc.stash a.2.desc) (some (a.2.core / 256))
          | none => d
        let d := match (if s.stashLost.contains g.seq then d.lowerAnchor s g.seq else none) with
          | some a => d.stashGone h s a w
          | none => d
        (d.pushAll h).stashBack h

/-- GRADIENT_LINE_RECEIVE (R141). -/
def execGradientLineReceive (stage : Nat) (s : State) := onDev s (fun d => (d.gradReceive stage).startReductions)

/-! ### Recompute and late stashes (R160, R161) -/

/-- The tile operations of a stage's forward that a recompute pass runs again count (R113, R114, R160). -/
def Device.countRerun (d : Device) (tokens h : Nat) : Device :=
  match tget d.stages h with
  | none => d
  | some s =>
    let x := s.desc
    if Desc.vector x then d
    else
      d.each (List.range (outTiles x)) (fun d u =>
        d.each (List.range (tokenBlocks x tokens)) (fun d b =>
          if quantised x then
            d.countOp s u (blockTokens x tokens b).length ((List.range (inTiles x)).map (fun j => d.wTile s s.weights u j))
          else d.bump Obj.fwdOperations))

/-- The cores whose forward arrays a recompute pass uses. -/
def Device.rerunCores (d : Device) (seq h : Nat) : List Nat :=
  ((d.rerun seq d.stages.length h).filterMap (fun g => match tget d.stages g with
    | some a => if Desc.vector a.desc then none else some a.core
    | none => none)).eraseDups

/-- The stages of a recompute pass on one core, as the issue unit knows them: one of them holds it, or gets it at the boundary the
core stands at. -/
def Device.takeUnit (d : Device) (again : List Nat) (core : Nat) : Bool × Device :=
  let mine := again.filter (fun g => match tget d.stages g with
    | some a => a.core == core && !Desc.vector a.desc
    | none => false)
  let held : Device → Bool := fun d => mine.any (fun g => (d.unitOf core).holder == some g)
  if held d then (true, d)
  else match mine with
    | [] => (true, d)
    | g :: _ => match tget d.stages g with
      | none => (true, d)
      | some a => let d := (d.issues g a).2; (held d, d)

/-- The issue units of every core a recompute pass runs on. -/
def Device.takeUnits (d : Device) (seq h : Nat) : Bool × Device :=
  let again := d.rerun seq d.stages.length h
  (d.rerunCores seq h).foldl (fun acc core => if acc.1 then acc.2.takeUnit again core else acc) (true, d)

/-- A recompute pass gives a stage its input again, bit-identical to what its forward received (R105, R160); each stage
that reran counts, and so do the operations it ran. It runs at rank 2 of R221, with the stashes and weights it needs there, on the
cores of the stages that rerun, whose issue units it takes (R26). The pass is one command: it gives the units up at its end. -/
def Device.recompute (d : Device) (h : Nat) : Device :=
  match tget d.stages h with
  | none => d
  | some s => match s.bwd with
    | none => d
    | some w =>
      if d.halts s ∨ !d.recomputeReady h s then d
      else match d.unreadable (d.bwdObjects s w) with
      | some o => d.meets h o
      | none => match d.takeUnits w.seq h with
        | (false, d) => d
        | (true, d) =>
          let again := (d.rerun w.seq d.stages.length h).eraseDups
          let d := (d.each again (fun d g => d.countRerun w.tokens g)).addTo Obj.recomputePasses again.length
          ((d.onBwd h (fun w => { w with input := tget s.stash w.seq })).bwdReady h).each (d.rerunCores w.seq h) Device.boundary

/-- RECOMPUTE_PASS (R160). -/
def execRecomputePass (stage : Nat) (s : State) := onDev s (fun d => (d.recompute stage).startReductions)

/-- The sample whose stash at an anchor is being fetched, and its take: that of the anchor's own backward, or the one whose backward
the stage at the next LANE_POSITION has begun (R267). -/
def Device.stashAsked (d : Device) (h : Nat) (s : Stage) : Option (Nat × Nat) :=
  match s.bwd.bind (fun w => if w.input.isNone && s.stashes w.seq then some (w.seq, w.take) else none) with
  | some x => some x
  | none => d.stages.findSome? (fun p => p.2.bwd.bind (fun w =>
      if (d.anchorBelow p.2 w.seq).map (·.1) = some h ∧ s.stashes w.seq ∧ (tget s.stash w.seq).isSome ∧
          s.bwd.map (·.seq) ≠ some w.seq then some (w.seq, w.take) else none))

/-- An anchor's stash misses its deadline (R161), where it has one (R214), which counts from when the stage above began the sample's
backward (R267): the sample is recomputed from the anchor below. The first anchor of a lane stalls, which counts in
FIRST_ANCHOR_STALLS and not in STASH_LATE too: R161 counts STASH_LATE on the cheaper path (DESIGN CHOICE, log entry 121). -/
def Device.stashMiss (d : Device) (h : Nat) : Device :=
  match tget d.stages h with
  | none => d
  | some s => match d.stashAsked h s with
    | none => d
    | some (seq, take) =>
      if Desc.stashDeadline s.desc = 0 ∨ d.stashReady s then d
      else match d.lowerAnchor s seq with
        | none => d.bump Obj.firstAnchorStalls
        | some a => d.stashLateFor h s a seq take

/-- STASH_DEADLINE_MISS (R161). -/
def execStashDeadlineMiss (stage : Nat) (s : State) := onDev s (fun d => d.stashMiss stage)

/-! ### Input gradients (R142, R145, R146) -/

/-- A weight in the backward array (R139): its value with its factor, its conversion where it has one, and the FP32 value a
tracker gathers. -/
def Device.expandW (d : Device) (h : Nat) (s : Stage) (w : Bwd) (tile : Bytes) (i o : Nat) (col row : Nat) : Val × Conv × Nat :=
  let x := s.desc
  let f := s.wFmt
  if Desc.side x then (floatVal Fmt.bf16 (tileCode tile Fmt.bf16 i o), ⟨0, 0, .none⟩, 0)
  else
    let code := tileCode tile f i o
    let sw := d.scaleReg s.core (Desc.scaleBase x + col)
    let v := if sw.valid then weightVal f sw.zero (if f = Fmt.cb16 then d.codebook s else []) code else .nan false
    let fl := if sw.valid then 0 else Flags.invalid
    let fp := (toFloat Fmt.fp32 .rne (Val.mul (floatVal Fmt.fp32 sw.scale) v).1).code
    if Desc.bwdMode x = 1 then
      let c := bf16Weight sw.scale v
      (floatVal Fmt.bf16 c.code, { c with flags := c.flags ||| fl }, fp)
    else if Desc.wExpandScale x || s.fallback then
      let cw := d.trackerExp (Desc.trackerW x)
      let key := d.purposeKey h s 0 Pur.wexp
      let c := e4m3Scale (rounding (Desc.wRounding x) key w.take (col * Desc.inChannels x + row)) sw.scale cw v
      ((Val.mul (floatVal Fmt.e4m3 c.code) (pow2Val (-cw))).1, { c with flags := c.flags ||| fl }, fp)
    else
      let e := bits (Desc.expandTable x) (8 * code) 8
      let ev := if sw.valid then floatVal Fmt.e4m3 e else .nan false
      let oc : ConvOutcome := match ev with
        | .nan _ => .nonFinite
        | .inf _ => .nonFinite
        | .fin _ n _ => if n = 0 then .zero else .none
      ((Val.mul ev (floatVal Fmt.fp32 sw.scale)).1, ⟨e, fl, oc⟩, fp)

/-- The input gradient of one token and input channel (R142): output tiles in ascending order; at a vein position the vein
weights stand in (R145). -/
def Device.inputGrad (d : Device) (s : Stage) (w : Bwd) (ws : List (List Val)) (t i : Nat) : Nat × Flags :=
  let x := s.desc
  let n := Desc.outChannels x
  let vs : List Val := match s.veinsUsed.findIdx? (· == i) with
    | some k => (List.range n).map (fun o =>
        floatVal Fmt.bf16 (d.veinWeightAt (Desc.veinWeight x) (o / 128) (veinPasses s.veinsUsed.length) k (o % 128)))
    | none => ws.getD (i % 256) []
  blockDot 128 ((List.range n).map (fun o => (w.grad t o, vs.getD o (.fin false 0 1))))

/-- The row the gradient of R146 leaves with: through the quantiser under LEARNED (R131), with the terms of the learned
activation scale's gradient and the flags of forming them. -/
def Device.throughQuantiser (d : Device) (s : Stage) (w : Bwd) (t : Nat) (row gs : List Nat) (modes : Nat → Rounding) :
    List Nat × List Nat × Flags :=
  let x := s.desc
  if !Desc.learned x then (gs, [], 0)
  else
    let k := tgetD w.ks (t / max 1 (Desc.clipBlock x)) 0
    let se := d.learnedScale s k
    let f := Desc.aFormat x
    let each : Nat → Nat × List Nat × Flags := fun c =>
      let g := gs.getD c 0
      if s.veinsUsed.contains c then (g, [], 0)
      else
        let n := fOfInt (intVal f ((tgetD w.codes t []).getD c 0))
        let gk := f32bin Val.mul g (fPow2 k)
        if clips f (modes c) se (row.getD c 0) then
          let m := f32bin Val.mul gk.1 n
          (0, [m.1], gk.2 ||| m.2)
        else
          let q := f32bin Val.div (row.getD c 0) se
          let e := f32bin Val.sub n q.1
          let m := f32bin Val.mul gk.1 e.1
          (g, [m.1], gk.2 ||| q.2 ||| e.2 ||| m.2)
    let rs := (List.range gs.length).map each
    (rs.map (·.1), rs.flatMap (·.2.1), orFlags (rs.map (·.2.2)))

/-- The whole input gradient of a LINEAR stage's sample goes back through the quantiser and the program, and below. The sum of
R131 goes on from sample to sample of the take: the rule orders token and channel only (DESIGN CHOICE, log entry 105). -/
def Device.finishIgrad (d : Device) (h : Nat) (s : Stage) (w : Bwd) : Device :=
  let x := s.desc
  let rows := d.bwdRows h s w
  let parts := (List.range w.tokens).map (fun t =>
    let gs := (((List.range (inTiles x)).map (fun j => tgetD w.out (64 * t + j) [])).flatten).take (Desc.inChannels x)
    d.throughQuantiser s w t (rows.getD t []) gs (d.actModes h s w.asFwd t).1)
  let terms := parts.flatMap (·.2.1)
  let sum := terms.foldl (fun acc y => let r := f32bin Val.add acc.1 y; (r.1, acc.2 ||| r.2)) (s.actGrad, 0)
  let d := (d.onStage h (fun s => { s with actGrad := sum.1 })).coreFlags s 3 (sum.2 ||| orFlags (parts.map (·.2.2)))
  let back := (List.range w.tokens).map (fun t =>
    progGrad x (d.bwdEnv h s w t) ((w.input.getD []).getD t []) ((parts.getD t ([], [], 0)).1))
  (d.coreFlags s 3 (orFlags (back.map (·.2)))).sendBelow h s w (back.map (·.1)) []

/-- The gradients of a PAIRWISE stage's operands (R224), in BF16: source 0 by source 1, and source 1 by source 0. -/
def Device.pairGrad (d : Device) (h : Nat) (s : Stage) (w : Bwd) : List Row × List Row :=
  let x := s.desc
  let a := (d.bwdRows h s w).map bf16Row
  let b := w.input2.map bf16Row
  let at_ : List (List Val) → Nat → Nat → Val := fun m r c => ((m.getD r [])[c]?).getD (.fin false 0 1)
  let width := Desc.inChannels x
  let n := Desc.outChannels x
  let row : List (Nat × Flags) → Row := fun l => (l.map (·.1), orFlags (l.map (·.2)))
  let ga := (List.range w.tokens).map (fun t => row ((List.range width).map (fun i =>
    blockDot 128 ((List.range n).map (fun o =>
      (w.grad t o, if Desc.pairTranspose x then at_ b o i else at_ b i o))))))
  let width2 := (w.input2.headD []).length
  let gb := (List.range b.length).map (fun r => row ((List.range width2).map (fun c =>
    blockDot 128 ((List.range w.tokens).map (fun t =>
      if Desc.pairTranspose x then (w.grad t r, at_ a t c) else (w.grad t c, at_ a t r))))))
  (ga, gb)

/-- The whole gradient of a PAIRWISE stage's operands goes back through the program, and to its two sources (R224). -/
def Device.finishPair (d : Device) (h : Nat) (s : Stage) (w : Bwd) : Device :=
  let (ga, gb) := d.pairGrad h s w
  let back := (List.range w.tokens).map (fun t =>
    progGrad s.desc (d.bwdEnv h s w t) ((w.input.getD []).getD t []) (ga.getD t ([], 0)).1)
  let operands := orFlags (((d.bwdRows h s w) ++ w.input2).map bf16Flags)
  let d := (d.coreFlags s 2 (operands ||| orFlags ((ga ++ gb).map (·.2)))).coreFlags s 3 (orFlags (back.map (·.2)))
  d.sendBelow h s w (back.map (·.1)) (gb.map (·.1))

/-- The last input-gradient operation of a sample sends its gradient below. -/
def Device.igradEnd (d : Device) (h : Nat) : Device :=
  match tget d.stages h with
  | none => d
  | some s => match s.bwd with
    | none => d
    | some w =>
      if (List.range (inTiles s.desc)).all (fun j =>
          (List.range (tokenBlocks s.desc w.tokens)).all (fun b => w.done.contains (j, b)))
      then (if Desc.pairwise s.desc then d.finishPair h s w else d.finishIgrad h s w) else d

/-- An input-gradient operation marked done. -/
def Device.igradDone (d : Device) (h j b : Nat) : Device := d.onBwd h (fun w => { w with done := w.done ++ [(j, b)] })

/-- The weights of input tile `j` enter the backward array (R139): their expansions, counted with the sample's first token block;
an invalid scale word counts once in the operation (R62, log entry 101). -/
def Device.countWeights (d : Device) (s : Stage) (b : Nat) (ex : List (List (Val × Conv × Nat))) : Device :=
  let x := s.desc
  let cs := ex.flatMap (fun r => r.map (fun v => v.2.1))
  let f := if Desc.bwdMode x = 1 then Fmt.bf16 else Fmt.e4m3
  let d := d.coreFlags s 2 (orFlags (cs.map (·.flags)))
  if Desc.side x then d
  else
    let d := d.invalidWords s 2 ((List.range (Desc.outChannels x)).map (fun o => d.scaleReg s.core (Desc.scaleBase x + o)))
    if b ≠ 0 then d
    else
      let d := d.count (Desc.wcObject x) f 0 (cs.map (fun c => (c.code, c.outcome)))
      let d := if cs.any (fun c => c.outcome == .nonFinite) then d.chargeBit Hb.nonfiniteGrad else d
      if Desc.bwdMode x = 0 ∧ (Desc.wExpandScale x || s.fallback) then
        d.track (Desc.trackerW x) (ex.flatMap (fun r => r.map (fun v => v.2.2))) (cs.map (fun c => (c.code, c.outcome)))
      else d

/-- The operands of an input-gradient operation of tile `j` meet (R142, R145): a failed tag check writes nothing (R109). -/
def Device.igradTile (d : Device) (h j b : Nat) (s : Stage) (w : Bwd) (ts : List Nat) : Device :=
  let x := s.desc
  let is := (List.range 256).filter (fun i => 256 * j + i < Desc.inChannels x)
  let tiles := (List.range (outTiles x)).map (fun u => d.wTile s s.weights u j)
  match (if Desc.side x then none else (List.range (outTiles x)).findSome? (fun u =>
      d.tagFault s (Desc.veinWeight x) u [tiles.getD u []])) with
  | some (tensor, want, found) =>
    let d := (d.igradDone h j b).scaleSkew (s.core / 256) (Desc.layer x) tensor want found 0 w.take w.seq
    (d.each ts (fun d t =>
      let (k, d) := d.draw
      d.onBwd h (fun w => { w with out := tset w.out (64 * t + j) (is.map (fun i => bits (Config.unstated k) (32 * i) 32)) }))).igradEnd h
  | none =>
    let ex := is.map (fun i => (List.range (Desc.outChannels x)).map (fun o =>
      d.expandW h s w (tiles.getD (o / 128) []) i (o % 128) o (256 * j + i)))
    let ws := ex.map (fun r => r.map (·.1))
    let d := (d.countWeights s b ex).each ts (fun d t =>
      let rs := is.map (fun i => d.inputGrad s w ws t (256 * j + i))
      (d.onBwd h (fun w => { w with out := tset w.out (64 * t + j) (rs.map (·.1)) })).coreFlags s 2 (orFlags (rs.map (·.2))))
    ((d.igradDone h j b).bump Obj.bwdOperations).igradEnd h

/-- Items of stages that have finished their last sample go ahead of new input-gradient work (R156 step 4). -/
def Device.itemsFirst (d : Device) (core : Nat) : Bool := (d.eligible (d.queueOf core) d.bwdFinished).isSome

/-- An input-gradient tile operation (R142), issued by the stage that holds the issue unit once its weights are there; the
last one of the sample sends the gradient below. -/
def Device.igradOp (d : Device) (h j b : Nat) : Device :=
  match tget d.stages h with
  | none => d
  | some s => match s.bwd with
    | none => d
    | some w =>
      let x := s.desc
      let ts := blockTokens x w.tokens b
      if w.input.isNone ∨ w.sent ∨ !sendsBack s ∨ Desc.vector x ∨ inTiles x ≤ j ∨ w.done.contains (j, b) ∨ ts = [] ∨ d.halts s ∨
          d.itemsFirst s.core then d
      else if s.fetching then d
      else match d.unreadable ((if Desc.linear x then s.weights :: (if s.veinsUsed = [] then [] else [Desc.veinWeight x]) else []) ++
          (if Desc.lossStage x then [] else programObject x)) with
      | some o => d.meets h o
      | none => match d.issues h s with
        | (false, d) => d
        | (true, d) =>
          (if Desc.pairwise x then ((d.igradDone h j b).bump Obj.bwdOperations).igradEnd h
           else d.igradTile h j b s w ts).opEnds h s.core

/-- IGRAD_TILE_OP_COMPLETE (R142). -/
def execIgradTileOpComplete (stage inTile tokenBlock : Nat) (s : State) := onDev s (fun d => (d.igradOp stage inTile tokenBlock).startReductions)

end Sys2Proof.Machine
end

