-- ==== Sys2Proof/Machine/Security.lean ====
section
/-!
DEFINITION. Trust (chapter 16, first half): firmware images and slots (R447 to R452), the boot sequence (R450, R451),
the anti-rollback commit (R453), the identity and the signing engine (R454, R455), the certificate chain (R456), the debug
port (R457), SPDM on the DOE mailboxes (R458, R459).
-/
namespace Sys2Proof.Machine

/-! ### Images (R448, R449) -/

def imageMagic : Nat := 0x49574651
def imageBytesMax : Nat := 16 * 1024 * 1024
def Image.svn (m : Bytes) : Nat := leAt m 0x08 4
def Image.keySlot (m : Bytes) : Nat := leAt m 0x06 1
def Image.count (m : Bytes) : Nat := leAt m 0x0C 4
def Image.version (m : Bytes) : Nat := leAt m 0x10 8
def Image.bytes (m : Bytes) : Nat := leAt m 0x18 4
def Image.minStepping (m : Bytes) : Nat := leAt m 0x1C 2

/-- Component entry `i`: COMPONENT, OFFSET, LENGTH. -/
def Image.entry (m : Bytes) (i : Nat) : Nat × Nat × Nat :=
  let e := leAt m (0x20 + 16 * i) 16
  (bits e 0 8, bits e 32 32, bits e 64 32)

/-- The entry of a component. -/
def Image.component (m : Bytes) (c : Nat) : Option (Nat × Nat) :=
  ((List.range 8).map (Image.entry m) |>.take (Image.count m)).findSome? (fun e => if e.1 = c then some e.2 else none)

/-- Check 1 of R449: every field in its range, every reserved byte 0, each component exactly once, within the image and
apart from the others. -/
def Image.wellFormed (m : Bytes) : Bool :=
  let n := Image.count m
  let size := Image.bytes m
  let es := (List.range n).map (Image.entry m)
  leAt m 0 4 == imageMagic && leAt m 4 2 == 1 && Image.keySlot m ≤ 3 && leAt m 7 1 == 0 && Image.svn m ≤ 64 &&
  1 ≤ n && n ≤ 8 && 0x100 ≤ size && size ≤ imageBytesMax && leAt m 0x1E 2 == 0 && leAt m 0xE0 32 == 0 &&
  (List.range 8).all (fun i =>
    let e := leAt m (0x20 + 16 * i) 16
    if i < n then bits e 8 24 == 0 && bits e 96 32 == 0 else e == 0) &&
  (List.range 5).all (fun c => (es.filter (fun e => e.1 == c)).length == 1) && es.all (fun e => e.1 < 5) &&
  es.all (fun e => 0x100 ≤ e.2.1 && e.2.1 + e.2.2 ≤ size) &&
  (List.range n).all (fun i => (List.range i).all (fun j =>
    let a := es.getD i (0, 0, 0)
    let b := es.getD j (0, 0, 0)
    a.2.1 + a.2.2 ≤ b.2.1 || b.2.1 + b.2.2 ≤ a.2.1))

/-- The digest an image's signature covers (R448). -/
def Image.digest (m : Bytes) : Bytes := sha512 (slice m 0 0xA0 ++ slice m 0x100 (Image.bytes m - 0x100))

/-- ANTI_ROLLBACK: the counter bits set (R445). -/
def antiRollbackOf (f : Fuses) : Nat := popCount f.rollback 64

/-- The first failed check of R449, 0 where an image is valid. -/
def imageCheck (f : Fuses) (m : Bytes) : Nat :=
  let slot := Image.keySlot m
  if !Image.wellFormed m then 1
  else if bit f.fwRevoked slot then 2
  else if !edVerify (leBytes 32 (bits f.fwKeys (256 * slot) 256)) (Image.digest m) (slice m 0xA0 64) then 3
  else if Image.svn m < antiRollbackOf f then 4
  else if f.stepping < Image.minStepping m then 5
  else 0

/-- The image of a slot. -/
def Device.slotImage (d : Device) (slot : Nat) : Bytes := if slot = 0 then d.sec.spiSlotA else d.sec.spiSlotB

/-- The first failed check of a slot. -/
def Device.slotCheck (d : Device) (slot : Nat) : Nat := imageCheck d.sec.fuses (d.slotImage slot)

/-- The slot a running component comes from (R486). -/
def Device.slotOf (d : Device) (component : Nat) : Nat := bits d.sec.slotMap component 1

/-- The security version of the running image: the lowest among the slots in use (R486). -/
def Device.runningSvn (d : Device) : Nat :=
  let used := ((List.range 5).map d.slotOf)
  let a := Image.svn (d.slotImage 0)
  let b := Image.svn (d.slotImage 1)
  if used.contains 0 && used.contains 1 then min a b else if used.contains 1 then b else a

/-! ### The boot-control record (R450) -/

/-- The 64 bytes of a record. -/
def bcrBytes (seq preferred : Nat) (trial : Bool) (tries epoch : Nat) : Bytes :=
  let head := leBytes 0x3C (fld 0x52434251 0 + fld (seq % 2 ^ 32) 32 + fld preferred 64 + fld trial.toNat 72 +
    fld (tries % 256) 80 + fld epoch 96)
  head ++ leBytes 4 (crc32c head)

/-- A copy is good: its MAGIC and its CRC. -/
def bcrGood (b : Bytes) : Bool := leAt b 0 4 == 0x52434251 && leAt b 0x3C 4 == crc32c (slice b 0 0x3C)

/-- The record written into the copy not in use, with SEQUENCE + 1. -/
def Device.writeBcr (d : Device) : Device :=
  let copy := 1 - d.sec.bcrCopy
  let seq := d.sec.bcrSeq + 1
  let b := bcrBytes seq d.sec.preferred d.sec.trial d.sec.tries d.sec.bootEpoch
  let d := d.onSec (fun x => { x with bcrCopy := copy, bcrSeq := seq % 2 ^ 32 })
  let d := d.onSec (fun x => if copy = 0 then { x with spiBcr0 := b } else { x with spiBcr1 := b })
  d.emit (.spiWrite (0x2000000 + 0x10000 * copy) b)

/-- Steps 2 and 3 of the boot sequence: the record in use is read, and the boot's epoch is written into the other copy. -/
def Device.readBcr (d : Device) : Device :=
  let a := d.sec.spiBcr0
  let b := d.sec.spiBcr1
  let seq : Bytes → Nat := fun x => leAt x 4 4
  let pick := if bcrGood a && (!bcrGood b || seq b ≤ seq a) then some (0, a)
    else if bcrGood b then some (1, b) else none
  let d := match pick with
    | some (copy, x) => d.onSec (fun s => { s with
        bcrCopy := copy, bcrSeq := seq x, preferred := leAt x 8 1 % 2, trial := leAt x 9 1 == 1, tries := leAt x 0xA 1,
        bootEpoch := leAt x 0xC 2 })
    | none => d.onSec (fun s => { s with bcrCopy := 1, bcrSeq := 0, preferred := 0, trial := false, tries := 0, bootEpoch := 0 })
  let d := d.onSec (fun s => { s with
    bootEpoch := min 65535 (s.bootEpoch + 1), tries := if s.trial then s.tries + 1 else s.tries })
  d.writeBcr

/-! ### The certificate chain (R456): X.509 in DER -/

/-- The first element of a DER string: its tag, its content, and what follows it. -/
def derHead (b : Bytes) : Option (Nat × Bytes × Bytes) :=
  match b with
  | t :: l :: rest =>
    if l.toNat < 128 then
      if l.toNat ≤ rest.length then some (t.toNat, rest.take l.toNat, rest.drop l.toNat) else none
    else
      let k := l.toNat - 128
      let n := beNat (rest.take k)
      let body := rest.drop k
      if k = 0 ∨ 4 < k ∨ rest.length < k ∨ body.length < n then none else some (t.toNat, body.take n, body.drop n)
  | _ => none

/-- The elements of a DER string, in order. -/
def derList : Nat → Bytes → List (Nat × Bytes)
  | 0, _ => []
  | n + 1, b => match derHead b with
    | some (t, c, rest) => (t, c) :: derList n rest
    | none => []

/-- The content of element `i`. -/
def derAt (b : Bytes) (i : Nat) : Bytes := ((derList 16 b).getD i (0, [])).2

/-- The serialNumber attribute of a name (object identifier 2.5.4.5). -/
def derSerial (name : Bytes) : Bytes :=
  ((derList 32 name).findSome? (fun rdn =>
    (derList 8 rdn.2).findSome? (fun av =>
      if derAt av.2 0 = [0x55, 0x04, 0x05] then some (derAt av.2 1) else none))).getD []

/-- The subject's serialNumber and the public key of a certificate. -/
def certSubject (cert : Bytes) : Bytes × Bytes :=
  let tbs := derAt cert 0
  let v := if ((derList 16 tbs).getD 0 (0, [])).1 = 0xA0 then 1 else 0
  let spki := derAt tbs (v + 5)
  (derSerial (derAt tbs (v + 4)), (derAt spki 1).drop 1)

/-- The chain as provisioned: the three certificates of the region. -/
def Device.chainBytes (d : Device) : Bytes :=
  let total := (derList 3 d.sec.spiCert).length
  if total < 3 then [] else
    match derHead d.sec.spiCert with
    | some (_, _, r1) => match derHead r1 with
      | some (_, _, r2) => match derHead r2 with
        | some (_, _, r3) => d.sec.spiCert.take (d.sec.spiCert.length - r3.length)
        | none => []
      | none => []
    | none => []

/-- 16 upper-case hexadecimal digits of a number. -/
def hex16 (v : Nat) : Bytes :=
  (List.range 16).map (fun i =>
    let x := bits v (60 - 4 * i) 4
    BitVec.ofNat 8 (if x < 10 then 48 + x else 55 + x))

/-- Step 6 of the boot sequence: none on a match, else the cause CERT_MISMATCH carries. -/
def Device.certCheck (d : Device) : Option Nat :=
  let dev := certSubject (((derList 3 d.sec.spiCert).getD 2 (0, [])).2)
  if dev.2 ≠ d.sec.publicKey then some 0
  else if dev.1 ≠ hex16 d.sec.fuses.serial then some 1
  else none

/-- CERT_CHAIN (R456). -/
def Device.certChain (d : Device) : Bytes := if d.sec.certOk then d.chainBytes else []

/-! ### Signing (R454, R455) -/

/-- The identity private key of a seed: the first 32 bytes of SHA-512 over the seed and "QID1". -/
def identityOf (seed : Nat) : Bytes := (sha512 (leBytes 32 seed ++ [0x51, 0x49, 0x44, 0x31])).take 32

/-- The identity key signs one of the three message forms (0 a record digest, 1 a batch entry, 2 an SPDM input). Each
signature is verified before release; a second failure is a detected fault, and no signature follows. -/
def Device.sign (d : Device) (form : Nat) (m : Bytes) : Option Bytes × Device :=
  if d.sec.signFailed then (none, d)
  else match d.sec.identity with
    | none => (none, d)
    | some key =>
      let sig := edSign key m
      if edVerify d.sec.publicKey m sig then (some sig, d.bump Obj.signatures)
      else
        (none, ((d.onSec (fun x => { x with signFailed := true })).raise 0x1004 [a1 form]).detectedFault)

/-- The debug port opens (R457). -/
def Device.openDebug (d : Device) : Device :=
  (d.onSec (fun x => { x with debugOpen := true, identity := none })).put Obj.debugState 1

/-! ### Boot (R450, R451) -/

/-- Boot stops with a failure code of BOOT_STATUS. -/
def Device.bootStops (d : Device) (failure : Nat) : Device := d.onSec (fun x => { x with bootFailed := true, failure := failure })

/-- FUSE_DUAL_READ (R446, R450 steps 1 to 3, R473 step 3): differing copies stop boot; else the identity key is derived,
the boot-control record is written, and the rails come on. -/
def Device.fuseRead (d : Device) : Device :=
  if !d.boot.porHigh || d.boot.fusesRead || d.sec.bootFailed then d
  else if d.sec.fuseA ≠ d.sec.fuseB then d.bootStops 1
  else
    let key := identityOf d.sec.fuseA.seed
    let d := d.onSec (fun x => { x with fuses := x.fuseA, identity := some key, publicKey := edPublic key })
    let d := if d.sec.fuses.debugLock = 0 ∨ d.sec.debugOpen then d.openDebug else d
    (d.readBcr.onBoot (fun b => { b with fusesRead := true })).enableRails 1 4

def execFuseDualRead (s : State) := onDev s Device.fuseRead

/-- Steps 6 and 7 of the boot sequence with the slot that was found valid. -/
def Device.bootFrom (d : Device) (slot : Nat) : Device :=
  let cause := d.certCheck
  let d := d.onSec (fun x => { x with
    certOk := cause.isNone, runningSlot := slot, slotMap := if slot = 0 then 0 else 31 })
  let d := match cause with
    | some c => d.raise 0x1005 [a1 c]
    | none => d
  (d.onBoot (fun b => { b with slotChecked := true })).startParts

/-- BOOT_SLOT_CHECKED (R450 steps 4 to 7). -/
def Device.slotChecked (d : Device) : Device :=
  if !d.boot.fusesRead || d.boot.slotChecked || d.sec.bootFailed then d
  else
    let p := d.sec.preferred
    let worn := d.sec.trial && 3 ≤ d.sec.tries
    let bad := d.slotCheck p
    if bad = 0 ∧ !worn then d.bootFrom p
    else
      let o := 1 - p
      let d := (d.onSec (fun x => { x with
        preferred := o, trial := false, fallback := true, fallbackDue := some (p, bad, o) })).writeBcr
      if d.slotCheck o = 0 then d.bootFrom o else d.bootStops 3

def execBootSlotChecked (s : State) := onDev s Device.slotChecked

/-! ### FW_UPDATE, PREFERRED_SLOT, ROLLBACK_COMMIT, DEBUG_UNLOCK -/

/-- The bytes an FW_UPDATE object holds for its image. -/
def Device.imageIn (d : Device) (h : Nat) : Bytes :=
  let head := d.readBytes h 0 256
  d.readBytes h 0 (min (Image.bytes head) imageBytesMax)

/-- An object whose bytes can be read. -/
def Device.readable (d : Device) (h : Nat) : Bool :=
  match d.entry h with
  | some e => !e.poisoned && !e.lost && e.tier != 1 && e.move != .resupply
  | none => false

/-- A slot some component runs from. -/
def Device.slotInUse (d : Device) (slot : Nat) : Bool := (List.range 5).any (fun c => d.slotOf c == slot)

/-- The status of an FW_UPDATE that its request settles; none where the image must be read first, or written (R452). -/
def Device.fwUpdateAtOnce (d : Device) (v : Nat) : Option Nat :=
  let h := bits v 0 32
  match d.entry h with
  | none => some St.range
  | some e =>
    if bits v 33 31 ≠ 0 ∨ e.kind ≠ 0 then some St.range
    else
      let c := if d.readable h then imageCheck d.sec.fuses (d.imageIn h) else 0
      if c = 1 ∨ c = 5 then some St.range
      else if d.slotInUse (bits v 32 1) ∨ d.sec.fwUpdate.isSome then some St.busy
      else if e.lost then some St.objectLost
      else none

/-- An FW_UPDATE ends: its event and its final response (R452). -/
def Device.fwEnds (d : Device) (rq : Option Req) (slot status svn : Nat) : Device :=
  (d.raise 0x1002 [a1 slot, a2 status, a4 svn]).finish (fun w => w.key == Obj.fwUpdate && (match rq with
    | some r => w.rq == r
    | none => true)) { status := status }

/-- FW_UPDATE: PENDING, then what its request settles. -/
def Device.fwRequest (d : Device) (rq : Req) (v : Nat) : Device :=
  if d.ctl.waiting.any (fun w => w.key == Obj.fwUpdate && w.rq == rq) then
    match d.fwUpdateAtOnce v with
    | some st => d.fwEnds (some rq) (bits v 32 1) st (Image.svn (d.imageIn (bits v 0 32)))
    | none => d.onSec (fun x => { x with fwUpdate := some (bits v 0 32, bits v 32 1) })
  else d

def execFwUpdate (rq : Req) (value : Nat) (s : State) :=
  onReq s rq (fun d => (d.command rq Obj.fwUpdate value (fun d _ _ => (St.pending, d))).fwRequest rq value)

/-- FW_UPDATE_DONE (R452): the rest of the checks, and the write of the slot. Under any status but OK no slot changes. -/
def Device.fwDone (d : Device) (same : Bool) : Device :=
  match d.sec.fwUpdate with
  | none => d
  | some (h, slot) =>
    let clear := d.onSec (fun x => { x with fwUpdate := none })
    match d.entry h with
    | none => clear.fwEnds none slot St.range 0
    | some e =>
      let m := d.imageIn h
      let c := imageCheck d.sec.fuses m
      if e.lost then clear.fwEnds none slot St.objectLost 0
      else if !d.readable h then d
      else if c = 1 ∨ c = 5 then clear.fwEnds none slot St.range (Image.svn m)
      else if e.size * blockBytes < Image.bytes m then clear.fwEnds none slot St.noSpace (Image.svn m)
      else if c = 2 ∨ c = 3 then clear.fwEnds none slot St.badSignature (Image.svn m)
      else if c = 4 then clear.fwEnds none slot St.rollback (Image.svn m)
      else if !same then clear.fwEnds none slot St.range (Image.svn m)
      else
        let d := clear.onSec (fun x => if slot = 0 then { x with spiSlotA := m } else { x with spiSlotB := m })
        (d.emit (.spiWrite (0x1000000 * slot) m)).fwEnds none slot St.ok (Image.svn m)

def execFwUpdateDone (readBackSame : Bool) (s : State) := onDev s (fun d => d.fwDone readBackSame)

/-- PREFERRED_SLOT (R452). -/
def preferredEffect : Effect := fun d _ v =>
  if 1 < v ∨ d.slotCheck v ≠ 0 then (St.range, d)
  else (St.ok, (d.onSec (fun x => { x with preferred := v, trial := true, tries := 0 })).writeBcr)

def execPreferredSlot (rq : Req) (value : Nat) (s : State) :=
  onReq s rq (fun d => d.command rq Obj.preferredSlot value preferredEffect)

/-- ROLLBACK_COMMIT (R453), with the counter bits that both banks read after the blow. The status of a commit whose
banks then disagree is not stated: a free value. -/
def rollbackEffect (a b : Nat) : Effect := fun d _ v =>
  let now := antiRollbackOf d.sec.fuses
  if 64 < v ∨ d.runningSvn < v then (St.range, d)
  else if v < now then (St.rollback, d)
  else if v = now then (St.ok, d)
  else
    let a := a % 2 ^ 64 ||| d.sec.fuseA.rollback
    let b := b % 2 ^ 64 ||| d.sec.fuseB.rollback
    let d := d.onSec (fun x => { x with
      fuseA := { x.fuseA with rollback := a }, fuseB := { x.fuseB with rollback := b } })
    if a = b ∧ popCount a 64 = v then
      (St.ok, (d.onSec (fun x => { x with fuses := { x.fuses with rollback := a } })).raise 0x1003 [a1 now, a1 v])
    else
      let (n, d) := d.draw
      (St.unsaid n, (d.onSec (fun x => { x with failure := 1 })).detectedFault)

def execRollbackCommit (rq : Req) (value blownA blownB : Nat) (s : State) :=
  onReq s rq (fun d => d.command rq Obj.rollbackCommit value (rollbackEffect blownA blownB))

/-- A serving stream is open. -/
def Device.anyStream (d : Device) : Bool := d.streams != []

/-- DEBUG_UNLOCK (R457). -/
def debugEffect : Effect := fun d rq v =>
  let lock := d.sec.fuses.debugLock
  if v ≠ 1 then (St.range, d)
  else if 2 ≤ lock ∨ d.roleOf rq ≠ some 2 then (St.role, d)
  else if d.runState ≠ 0 ∨ d.anyStream then (St.busy, d)
  else if d.sec.debugOpen then (St.ok, d)
  else (St.ok, d.openDebug.raise 0x1006 [a1 (pathByte rq.path)])

def execDebugUnlock (rq : Req) (value : Nat) (s : State) :=
  onReq s rq (fun d => d.command rq Obj.debugUnlock value debugEffect)

/-! ### SPDM (R458, R459)

The codes and bit positions are the SPDM standard's (PRESUMED, log entry 14). -/

namespace Spdm
def version : Nat := 0x04
def capabilities : Nat := 0x61
def algorithms : Nat := 0x63
def digests : Nat := 0x01
def certificate : Nat := 0x02
def challengeAuth : Nat := 0x03
def measurements : Nat := 0x60
def error : Nat := 0x7F
def invalidRequest : Nat := 0x01
def busy : Nat := 0x03
def unexpectedRequest : Nat := 0x04
def unspecified : Nat := 0x05
def unsupported : Nat := 0x07
def ed25519 : Nat := 0x400
def sha512 : Nat := 0x4
end Spdm

def Device.doe (d : Device) (p code : Nat) (b : Bytes) : Device := d.emit (.doe p code b)
def Device.doeError (d : Device) (p e : Nat) : Device := d.doe p Spdm.error [BitVec.ofNat 8 e]

/-- A request on a port's DOE mailbox: the port must exist and its link be up. -/
def Device.onDoe (d : Device) (p : Nat) (f : Device → Device) : Device := if p ≤ 1 ∧ (d.port p).linkUp then f d else d

/-- A request that needs the connection negotiated. -/
def Device.negotiated (d : Device) (p : Nat) (f : Device → Device) : Device :=
  d.onDoe p (fun d => if (d.port p).spdm = .algorithms then f d else d.doeError p Spdm.unexpectedRequest)

def execGetVersion (port : Nat) (s : State) :=
  onDev s (fun d => d.onDoe port (fun d => (d.onPort port (fun x => { x with spdm := .version })).doe port Spdm.version [0x12, 0x13]))

/-- CERT_CAP, CHAL_CAP, MEAS_CAP with signatures and MEAS_FRESH_CAP. -/
def execGetCapabilities (port : Nat) (s : State) :=
  onDev s (fun d => d.onDoe port (fun d =>
    if (d.port port).spdm = .version then
      (d.onPort port (fun x => { x with spdm := .capabilities })).doe port Spdm.capabilities (leBytes 4 0x36)
    else d.doeError port Spdm.unexpectedRequest))

/-- Ed25519 and SHA-512 are selected where they are offered. -/
def execNegotiateAlgorithms (port asymAlgos hashAlgos : Nat) (s : State) :=
  onDev s (fun d => d.onDoe port (fun d =>
    if (d.port port).spdm = .capabilities then
      (d.onPort port (fun x => { x with spdm := .algorithms })).doe port Spdm.algorithms
        (leBytes 4 (asymAlgos &&& Spdm.ed25519) ++ leBytes 4 (hashAlgos &&& Spdm.sha512))
    else d.doeError port Spdm.unexpectedRequest))

/-- The chain as slot 0 serves it: its length, the digest of the root certificate, the certificates. -/
def Device.spdmChain (d : Device) : Bytes :=
  let c := d.certChain
  let root := match derHead c with
    | some (_, _, rest) => c.take (c.length - rest.length)
    | none => []
  leBytes 4 (c.length + 68) ++ sha512 root ++ c

/-- The slot mask and, where slot 0 is filled, its digest. -/
def execGetDigests (port : Nat) (s : State) :=
  onDev s (fun d => d.negotiated port (fun d =>
    d.doe port Spdm.digests (if d.sec.certOk then 1 :: sha512 d.spdmChain else [0])))

/-- A portion of the chain of slot 0, and what remains. -/
def execGetCertificate (port slot offset length : Nat) (s : State) :=
  onDev s (fun d => d.negotiated port (fun d =>
    let c := d.spdmChain
    if slot ≠ 0 ∨ d.sec.certOk = false ∨ c.length ≤ offset then d.doeError port Spdm.invalidRequest
    else
      let part := (c.drop offset).take length
      d.doe port Spdm.certificate (leBytes 2 part.length ++ leBytes 2 (c.length - offset - part.length) ++ part)))

/-- A signature over an SPDM signing input; ERROR Busy while the management pair restarts, ERROR Unspecified while the
debug port is open. -/
def Device.spdmSigned (d : Device) (p : Nat) (m : Bytes) (answer : Device → Bytes → Device) : Device :=
  if !d.ctl.serving then d.doeError p Spdm.busy
  else if d.sec.debugOpen then d.doeError p Spdm.unspecified
  else match d.sign 2 m with
    | (some sig, d) => answer d sig
    | (none, d) => d.doeError p Spdm.unspecified

def execChallenge (port slot : Nat) (signingInput : Bytes) (s : State) :=
  onDev s (fun d => d.negotiated port (fun d =>
    if slot ≠ 0 ∨ d.sec.certOk = false then d.doeError port Spdm.invalidRequest
    else d.spdmSigned port signingInput (fun d sig => d.doe port Spdm.challengeAuth sig)))

/-- The bytes of a running component. -/
def Device.componentBytes (d : Device) (c : Nat) : Bytes :=
  let m := d.slotImage (d.slotOf c)
  match Image.component m c with
  | some (off, len) => slice m off len
  | none => []

/-- A measurement block (R459); none where its index is absent. -/
def Device.measurement (d : Device) (i : Nat) : Option Bytes :=
  let f := d.sec.fuses
  if i = 1 then some (sha512 d.sec.hubRom)
  else if i = 2 then some (sha512 (slice (d.slotImage (d.slotOf 0)) 0 256))
  else if 3 ≤ i ∧ i ≤ 7 then some (sha512 (d.componentBytes (i - 3)))
  else if i = 8 then some (sha512 (leBytes 128 f.roleMap ++ leBytes 1 f.debugLock ++ leBytes 128 f.fwKeys ++
    leBytes 4 f.fwRevoked ++ leBytes 256 f.serviceKeys ++ leBytes 4 f.serviceRevoked ++ leBytes 1 (antiRollbackOf f) ++
    leBytes 2 f.stepping ++ leBytes 8 f.serial))
  else if i = 9 then some (leBytes 1 (d.get Obj.debugState) ++ leBytes 1 (d.slotOf 0) ++ leBytes 1 d.runningSvn ++
    leBytes 1 (antiRollbackOf f) ++ leBytes 2 d.sec.bootEpoch ++ [0, 0])
  else if i = 10 then some (if d.armed then leBytes 64 (d.get Obj.recipeDigest) else leBytes 64 0)
  else if i = 11 then some (leBytes 64 (d.get Obj.logHead))
  else none

/-- The blocks a request asks for: 0 the number of blocks, 255 all of them. -/
def Device.measured (d : Device) (i : Nat) : Option Bytes :=
  if i = 0 then some [11]
  else if i = 255 then some ((rangeFrom 1 11).flatMap (fun k => (d.measurement k).getD []))
  else d.measurement i

def execGetMeasurements (port index : Nat) (signed : Bool) (signingInput : Bytes) (s : State) :=
  onDev s (fun d => d.negotiated port (fun d =>
    match d.measured index with
    | none => d.doeError port Spdm.invalidRequest
    | some b =>
      if signed then d.spdmSigned port signingInput (fun d sig => d.doe port Spdm.measurements (b ++ sig))
      else d.doe port Spdm.measurements b))

/-- Any other request receives ERROR UnsupportedRequest. -/
def execSpdmUnsupportedRequest (port code : Nat) (s : State) :=
  onDev s (fun d => d.onDoe port (fun d => d.doe port Spdm.error [BitVec.ofNat 8 Spdm.unsupported, BitVec.ofNat 8 code]))

end Sys2Proof.Machine
end

