-- ==== Sys2Proof/Machine/Streams.lean ====
section
/-!
DEFINITION. Streams (R226 to R228), the held versions of a layer (R229 to R231), serving samples (R389, R390, R47),
treatment receipts and their batches (R461 to R466).
-/
namespace Sys2Proof.Machine

/-! ### Digests -/

/-- The digest of an object (R323 steps 1 and 2). -/
def Device.objectDigest (d : Device) (h : Nat) : Bytes :=
  sha512 (((List.range (d.objectBytes h / blockBytes)).map (fun b => sha512 (d.readBytes h (b * blockBytes) blockBytes))).flatten)

/-- The version digest over the objects a version serves from (R462): the working or fallback copy, then the vein
weights. -/
def Device.versionDigest (d : Device) (objs : List Nat) : Bytes := sha512 ((objs.map d.objectDigest).flatten)

/-- The placement fields of R236 in a descriptor. -/
def placementFields : List (Nat × Nat) :=
  [(128, 6), (134, 3), (144, 8), (152, 9), (168, 9), (177, 9), (0xE0 * 8, 32), (0xE0 * 8 + 32, 32), (899, 1), (1088, 32),
   (592, 10), (540, 1), (0xB0 * 8 + 264, 8)]

/-- The bytes of a descriptor that the recipe covers (R463): the placement fields as 0. -/
def recipeBytes (x : Nat) : Bytes := Desc.covered (placementFields.foldl (fun v f => putBits v f.1 f.2 0) x)

/-! ### The lanes of a stream -/

/-- The serving stages bound in a mask of lanes, in ascending LAYER and then REPLICA. -/
def Device.laneStages (d : Device) (mask : Nat) : List (Nat × Stage) :=
  let mine := d.stages.filter (fun p => Desc.serving p.2.desc && bit mask (Desc.lane p.2.desc))
  let rank : Nat × Stage → Nat := fun p => Desc.layer p.2.desc * 256 + Desc.replica p.2.desc
  mine.foldl (fun l p => (l.filter (fun q => rank q ≤ rank p)) ++ [p] ++ (l.filter (fun q => rank p < rank q))) []

/-- The layers of a mask of lanes. -/
def Device.laneLayers (d : Device) (mask : Nat) : List Nat := ((d.laneStages mask).map (fun p => Desc.layer p.2.desc)).eraseDups

/-- The stages of the layers a stage's input comes from. -/
def Device.sourceStages (d : Device) (x : Nat) : List (List Stage) :=
  (Desc.sources x).eraseDups.map (fun l => (d.layerStages (Desc.kind x) l).map (·.2))

/-- The rows of source 0 of a PAIR: the first in ascending LANE, then LANE_POSITION (R224). -/
def firstSource (src : List (List Stage)) : List Stage :=
  let key : List Stage → Nat := fun l => match l with
    | s :: _ => Desc.lane s.desc * 65536 + Desc.lanePosition s.desc
    | [] => 0
  (src.foldl (fun best l => match best with
    | none => some l
    | some b => if key l < key b then some l else some b) none).getD []

/-- The rows a stage's join delivers are not of its IN_FORMAT or not IN_CHANNELS long, whichever replicas deliver them (R211). A
source layer counts once, however often it is listed, and one with no bound stage delivers none: it is refused too, which the
text does not say (DESIGN CHOICE, log entry 125). -/
def Device.rowsRefused (d : Device) (x : Nat) : Bool :=
  if Desc.laneFirst x then false
  else
    let src := d.sourceStages x
    let len : List Stage → Nat := fun l => (l.head?.map (fun s => Desc.rowOut s.desc)).getD 0
    let uneven : List Stage → Bool := fun l => l.any (fun s => Desc.rowOut s.desc != len l)
    src.any (fun l => l.isEmpty || l.any (fun s => Desc.outFormat s.desc != Desc.inFormat x)) ||
    (match Desc.joinMode x with
     | 1 => (src.map len).sum != Desc.inChannels x || src.any uneven
     | 3 => (firstSource src).any (fun s => Desc.rowOut s.desc != Desc.inChannels x)
     | _ => src.any (fun l => l.any (fun s => Desc.rowOut s.desc != Desc.inChannels x)))

/-- The stream recipe digest (R463). -/
def Device.streamRecipe (d : Device) (stream mask : Nat) : Bytes :=
  sha512 (((d.laneStages mask).map (fun p =>
    let x := p.2.desc
    recipeBytes x ++ d.readBytes (Desc.veinList x) 0 (2 * min (Desc.veinCount x) 128) ++
      (if d.names (Desc.paramObject x) then d.readBytes (Desc.paramObject x) 0 (d.objectBytes (Desc.paramObject x)) else []) ++
      ((stageGenerators x).map (fun tp => leBytes 16 (d.genKey stream tp.1 tp.2))).flatten)).flatten)

/-- The keys of a stream's bindings (R232), by 4 × stage + entry. -/
def Device.streamKeys (d : Device) (stream mask : Nat) : Tbl Nat :=
  (d.laneStages mask).foldl (fun t p =>
    ((List.range 4).filter (fun i => Desc.purpose p.2.desc i != 0)).foldl (fun t i =>
      tset t (4 * p.1 + i) (d.genKey stream (stageTensor p.2.desc (Desc.purpose p.2.desc i) (Desc.genTensor p.2.desc i))
        (Desc.purpose p.2.desc i))) t) []

/-! ### Held versions (R229, R230) -/

/-- The version PIN_TAKE selects of a layer (R226, R230): the newest made at or before it, or the current one. Newest is what was
published last, also where a host's take labels are not in order (DESIGN CHOICE, log entry 134). -/
def Device.selectVersion (d : Device) (layer pinTake : Nat) : Option Nat :=
  let vs := tgetD d.versions layer []
  if pinTake = 2 ^ 64 - 1 then vs.head?.map (·.take)
  else (vs.find? (fun v => v.take ≤ pinTake)).map (·.take)

/-- A layer whose stages read weights. -/
def Device.weighted (d : Device) (layer : Nat) : Bool := (d.layerStages 1 layer).any (fun p => Desc.linear p.2.desc)

/-! ### Opening and closing (R227) -/

/-- A new stream of a descriptor. -/
def newStream (desc : Nat) : Stream := { desc := desc }

/-- The header of R226 is wrong or a reserved field is set. -/
def streamDescWrong (v : Nat) : Bool :=
  bits v 0 32 != 0x52545351 || bits v 32 15 == 0 || bit v 47 || bits v 48 3 == 0 || 3 < bits v 48 3 || bits v 52 12 != 0 ||
    bits v 256 16 == 0 || 512 < bits v 256 16 || bits v 272 240 != 0

/-- A stream's BATCH ring. -/
def Device.batchRing (d : Device) (p : Nat) : Nat := d.get (Obj.batchRing0 + p)

/-- Two independent formations of a stream's keys are drawn at the probe counter (R235): `formed` are the probes, by 4 × stage +
entry, that the second formation gave otherwise than the keys say. -/
def keysDiffer (keys : Tbl Nat) (formed : List (Nat × Nat)) : Bool :=
  keys.any (fun k => match tget formed k.1 with
    | some v => v != probeOf k.2
    | none => false)

/-- The first key of a stream whose formations differ, as GENERATOR_STUCK names it: KIND, tensor and purpose. -/
def Device.stuckKey (d : Device) (keys : Tbl Nat) (formed : List (Nat × Nat)) : Option (Nat × Nat × Nat) :=
  (keys.find? (fun k => keysDiffer [k] formed)).bind (fun k => (tget d.stages (k.1 / 4)).map (fun s =>
    let p := Desc.purpose s.desc (k.1 % 4)
    (1, stageTensor s.desc p (Desc.genTensor s.desc (k.1 % 4)), p)))

/-- STREAM_OPEN (R227, R211, R235, R385, R455, R457, R466). A stream of no lanes is opened: R227 names no refusal for it. -/
def streamOpenEffect (formed : List (Nat × Nat)) : Effect := fun d rq h =>
  match d.entry h with
  | none => (St.range, d)
  | some e =>
    let v := d.readNat h 0 64
    let x := newStream v
    let s := bits v 32 15
    let ring := d.ringCheck x.inRing 1
    let ringOut := d.ringCheck x.outRing 2
    if e.lost then (St.objectLost, d)
    else if !d.isOperator rq ∨ portOf rq = none ∨ d.grantPort s ≠ portOf rq then (St.role, d)
    else if d.get Obj.deviceState ≠ 3 ∨ d.sec.signFailed ∨ d.sec.debugOpen then (St.notReady, d)
    else if d.get Obj.powerTransition ≠ 0 then (St.busy, d)
    else if (tget d.streams s).isSome then (St.busy, d)
    else if streamDescWrong v then (St.range, d)
    else if (bitsSet x.laneMask 64).any (fun n => (d.laneStages (2 ^ n)).isEmpty) then (St.range, d)
    else if x.pinned && (d.laneLayers x.laneMask).any (fun l => d.weighted l && (d.selectVersion l x.pinTake).isNone) then
      (St.range, d)
    else if (d.laneStages x.laneMask).any (fun p => d.rowsRefused p.2.desc) then (St.range, d)
    else if ring ≠ St.ok then (ring, d)
    else if ringOut ≠ St.ok then (ringOut, d)
    else if !d.names (d.batchRing ((portOf rq).getD 0)) then (St.notReady, d)
    else
      let pins := if x.pinned then (d.laneLayers x.laneMask).filterMap (fun l => (d.selectVersion l x.pinTake).map (fun t => (l, t))) else []
      let keys := d.streamKeys s x.laneMask
      let x := { x with recipe := d.streamRecipe s x.laneMask, pins := pins, keys := keys, stuck := keysDiffer keys formed }
      let d : Device := { d with streams := tset d.streams s x }
      let d := match d.stuckKey keys formed with
        | some k => (d.raise 0x0802 [a1 k.1, a4 k.2.1, a1 k.2.2]).detectedFault
        | none => d
      (St.ok, d.onlyIf x.pinned (·.releaseAll))

/-- STREAM_OPEN (R227). -/
def execStreamOpen (rq : Req) (x : Opening) (s : State) :=
  onReq s rq (fun d => d.command rq Obj.streamOpen x.handle (streamOpenEffect x.formed))

/-- The last sequence number a stream gave; open where it admitted no sample. -/
def Device.lastSequence (d : Device) (x : Stream) : Nat × Device :=
  if x.nextSeq = 0 then (let (k, d) := d.draw; (Config.unstated k % 2 ^ 64, d)) else (x.nextSeq - 1, d)

/-- A stream closes: its pins go, and STREAM_CLOSED is raised (R240). -/
def Device.closeStream (d : Device) (s : Nat) : Device :=
  match tget d.streams s with
  | none => d
  | some x =>
    let (n, d) := d.lastSequence x
    ({ d with streams := tdel d.streams s }.releaseAll).raiseStream 0x0803 s [a8 n]

/-- STREAM_CLOSE (R227, R242). -/
def streamCloseEffect : Effect := fun d _ s =>
  match tget d.streams s with
  | none => (St.range, d)
  | some x =>
    if x.samples = [] then (St.ok, d.closeStream s)
    else (St.pending, d.onStream s (fun x => { x with state := .closing }))

/-- STREAM_CLOSE (R227). -/
def execStreamClose (rq : Req) (stream : Nat) (s : State) :=
  onReq s rq (fun d => d.command rq Obj.streamClose stream streamCloseEffect)

/-- The last sample of a closing stream has completed (R227). -/
def Device.closeComplete (d : Device) (s : Nat) : Device :=
  match tget d.streams s with
  | none => d
  | some x =>
    if x.state = .closing ∧ x.samples = [] then (d.closeStream s).finishArg Obj.streamClose s St.ok else d

/-- STREAM_CLOSE_COMPLETE (R227). -/
def execStreamCloseComplete (stream : Nat) (s : State) := onDev s (fun d => d.closeComplete stream)

/-- STREAM_CLEAR (R227). -/
def streamClearEffect : Effect := fun d _ s =>
  match tget d.streams s with
  | none => (St.range, d)
  | some x => if x.state = .halted then (St.ok, d.onStream s (fun x => { x with state := .opened })) else (St.range, d)

/-- STREAM_CLEAR (R227). -/
def execStreamClear (rq : Req) (stream : Nat) (s : State) :=
  onReq s rq (fun d => d.command rq Obj.streamClear stream streamClearEffect)

/-- A grant as its first stream and count. -/
def grantRange (v : Nat) : Nat × Nat := (bits v 0 16, bits v 16 16)

/-- STREAM_GRANT of a port (R228); a range past stream 32,767 names no stream. An OPERATOR needs the conductor token, FACILITY and
SERVICE do not (R359; DEDUCED, log entry 34). -/
def streamGrantEffect (p : Nat) : Effect := fun d rq v =>
  let mine := grantRange v
  let other := grantRange (d.get (Obj.streamGrant0 + (1 - p)))
  if d.roleOf rq = some 1 ∧ portOf rq ≠ some (d.get Obj.conductorToken) then (St.role, d)
  else if mine.2 ≠ 0 ∧ (mine.1 = 0 ∨ 32768 < mine.1 + mine.2) then (St.range, d)
  else if rangesMeet mine other then (St.range, d)
  else if d.streams.any (fun x => d.grantPort x.1 == some p && !(mine.1 ≤ x.1 && x.1 < mine.1 + mine.2)) then (St.busy, d)
  else (St.ok, d.put (Obj.streamGrant0 + p) v)

/-- STREAM_GRANT (R228). -/
def execStreamGrant (rq : Req) (port value : Nat) (s : State) :=
  onReq s rq (fun d => if port ≤ 1 then d.command rq (Obj.streamGrant0 + port) value (streamGrantEffect port) else d)

/-! ### Versions a host publishes (R231, R462) -/

/-- A layer of the armed run. -/
def Device.runLayer (d : Device) (layer : Nat) : Bool :=
  d.armed && (d.run.layers.any (fun e => bits e 0 32 == layer) || !(d.layerStages 0 layer).isEmpty)

/-- Requests that wait to publish a version of a layer. -/
def Device.publishing (d : Device) (layer : Nat) : List Nat := d.publications.filter (fun v => bits v 0 32 == layer)

/-- VERSION_PUBLISH (R231): answered with PENDING until the digest is formed. Publications that are still PENDING count among the four
versions (DESIGN CHOICE, log entry 133). -/
def versionPublishEffect : Effect := fun d _ v =>
  let layer := bits v 0 32
  let h := bits v 32 32
  match d.entry h with
  | none => (St.range, d)
  | some e =>
    if e.lost then (St.objectLost, d)
    else if d.runLayer layer then (St.busy, d)
    else if 4 ≤ (tgetD d.versions layer []).length + (d.publishing layer).length then (St.pinnedVersion, d)
    else if 255 ≤ e.pins then (St.noSpace, d)
    else (St.pending, { d.addPin h with publications := d.publications ++ [v] })

/-- VERSION_PUBLISH (R231). -/
def execVersionPublish (rq : Req) (value : Nat) (s : State) :=
  onReq s rq (fun d => d.command rq Obj.versionPublish value versionPublishEffect)

/-- The objects a version of a layer that a host supplied serves from: the handle, and the vein weights of its stages. -/
def Device.hostObjects (d : Device) (layer h : Nat) : List Nat :=
  match d.layerStages 1 layer with
  | p :: _ => if Desc.hasVeins p.2.desc then [h, Desc.veinWeight p.2.desc] else [h, noObject, h]
  | [] => [h, noObject, h]

/-- The digest of the oldest version that waits is formed: the version is the layer's current one (R462). -/
def Device.digestFormed (d : Device) (layer : Nat) : Device :=
  match d.publishing layer with
  | [] => d
  | n :: _ =>
    let h := bits n 32 32
    let objs := d.hostObjects layer h
    let v : Version := { take := bits n 64 64, objs := objs, host := true,
                         digest := d.versionDigest (objs.filter d.names).eraseDups }
    let d := { d with versions := tset d.versions layer (v :: tgetD d.versions layer []), publications := d.publications.erase n }
    let asked := d.ctl.waiting.find? (fun w => w.key == Obj.versionPublish && w.arg == n)
    (d.releaseVersions layer).finish (fun x => asked == some x) { status := St.ok }

/-- VERSION_DIGEST_FORMED (R462). -/
def execVersionDigestFormed (layer : Nat) (s : State) := onDev s (fun d => d.digestFormed layer)

/-! ### Serving samples (R227, R389) -/

/-- Serving samples are admitted: no clock hold, P0 or P1, no transition, a signing engine that works (R407, R420, R455). -/
def Device.admitsSamples (d : Device) : Bool :=
  !d.pwr.hold && d.powerState ≤ 1 && d.get Obj.powerTransition == 0 && !d.sec.signFailed

/-- What MANIFEST_DIGEST covers of the versions a sample reads (R462). -/
def Device.manifest (d : Device) (versions : Tbl Nat) : Bytes :=
  (versions.map (fun p =>
    leBytes 4 p.1 ++ leBytes 8 p.2 ++
      (match (tgetD d.versions p.1 []).find? (fun v => v.take == p.2) with
       | some v => slice v.digest 0 64
       | none => List.replicate 64 0))).flatten

/-- The working copies the stages of a sample will read are fetched (R267), and its holds taken (R229). -/
def Device.fetchWeights (d : Device) (s seq : Nat) (stages : List Nat) : Device :=
  let d := d.each (tkeys d.versions) (fun d l => d.each (tgetD d.versions l []) (fun d v => d.syncHold l v))
  d.each stages (fun d h => match tget d.stages h with
    | none => d
    | some y =>
      if !Desc.linear y.desc then d
      else
        let (wc, vw, _) := d.weightsFor y { stream := s, seq := seq, take := 0 }
        let d := d.fetch wc (some (y.core / 256))
        d.onlyIf (y.veinsUsed != []) (·.fetch vw (some (y.core / 256))))

/-- The next sample of a stream is admitted (R47, R227, R229): it takes the next sequence number and the current or pinned
versions, and every stage of its lanes will take it in its turn. An entry that breaks R387 fails it with RANGE. -/
def Device.admitSample (d : Device) (s : Nat) : Device :=
  match tget d.streams s with
  | none => d
  | some x =>
    let k := d.ringConsumer x.inRing + x.samples.length
    if x.state ≠ .opened ∨ !d.admitsSamples ∨ x.maxInFlight ≤ (x.samples.filter (·.open)).length ∨
        d.ringProducer x.inRing ≤ k then d
    else
      let seq := x.nextSeq
      let layers := d.laneLayers x.laneMask
      let versions := if x.pinned then x.pins
        else layers.filterMap (fun l => ((tgetD d.versions l []).head?).map (fun v => (l, v.take)))
      let entry := d.ringEntry x.inRing k
      let d := d.onStream s (fun x => { x with
        nextSeq := seq + 1, samples := x.samples ++ [{ seq := seq, entry := entry, versions := versions, manifest := d.manifest versions,
                                                       output := if layers = [] then some [] else none }] })
      let firsts := (d.laneStages x.laneMask).filter (fun p => Desc.laneFirst p.2.desc)
      if firsts.any (fun p => !d.entryOk p.2.desc entry) then d.refuseSample s seq St.range
      else if x.stuck then d.failSample s seq Hb.detectedFault
      else
        let stages := layers.filterMap (fun l => (d.replicaFor 1 l seq).map (·.1))
        (d.each stages (fun d h => d.onStage h (fun y => { y with todo := y.todo ++ [(s, seq)] }))).fetchWeights s seq stages

/-- SERVING_SAMPLE_ADMISSION (R227, R389). -/
def execServingSampleAdmission (stream : Nat) (s : State) := onDev s (fun d => d.admitSample stream)

/-! ### Receipts (R461, R462) -/

/-- The first 32 bytes of a digest. -/
def half (b : Bytes) : Nat := leNat (b.take 32)

/-- The batches of a port. -/
def Device.batchesOf (d : Device) (p : Nat) : Batches := tgetD d.batches p {}

/-- The batches of a port changed. -/
def Device.onBatches (d : Device) (p : Nat) (f : Batches → Batches) : Device :=
  { d with batches := tset d.batches p (f (tgetD d.batches p {})) }

/-- A receipt (R461). -/
def Device.receipt (d : Device) (p s : Nat) (x : Stream) (y : Sample) (out : Bytes) : Bytes :=
  let b := d.batchesOf p
  leBytes 64 (fld 0x50435251 0 + fld 1 32 + fld x.cls 40 + fld x.pinned.toNat 48 + fld p 49 + fld s 64 +
    fld d.sec.fuses.stepping 80 + fld out.length 96 + fld y.seq 128 + fld d.mono 192 + fld d.sec.fuses.serial 256 +
    fld b.number 320 + fld b.leaves.length 384 + fld (bits y.entry 96 16) 400) ++
  leBytes 32 (half (sha512 y.manifest)) ++ leBytes 32 (half x.recipe) ++
  leBytes 32 (half (sha512 (d.sampleData y.entry))) ++ leBytes 32 (half (sha512 out))

/-- One level of the tree (R465). -/
def merkleLevel : List Bytes → List Bytes
  | a :: b :: l => sha512 ([1] ++ a ++ b) :: merkleLevel l
  | l => l

/-- The root: `n` levels are enough for 2^n leaves. -/
def merkleRoot : Nat → List Bytes → Bytes
  | 0, l => l.headD []
  | n + 1, l => if l.length ≤ 1 then l.headD [] else merkleRoot n (merkleLevel l)

/-- The open batch of a port closes (R464); an empty one stays open. -/
def Device.closeBatch (d : Device) (p : Nat) : Device :=
  d.onBatches p (fun b => if b.leaves = [] then b
    else { b with number := b.number + 1, leaves := [], first := 0, last := 0,
                  closed := b.closed ++ [⟨b.number, b.leaves.length, b.first, b.last, merkleRoot 13 b.leaves⟩] })

/-- A receipt joins the open batch; a full batch closes (R464). -/
def Device.addReceipt (d : Device) (p : Nat) (r : Bytes) : Device :=
  let c := d.mono
  let d := (d.onBatches p (fun b => { b with
    leaves := b.leaves ++ [sha512 ([0] ++ r)], first := if b.leaves = [] then c else b.first, last := c })).bump Obj.receiptsIssued
  if d.get Obj.batchLeavesMax ≤ (d.batchesOf p).leaves.length then d.closeBatch p else d

/-- BATCH_INTERVAL_EXPIRY (R464). -/
def execBatchIntervalExpiry (port : Nat) (s : State) := onDev s (fun d => if port ≤ 1 then d.closeBatch port else d)

/-- A ring may be written: its object is settled, whole and in a tier. -/
def Device.ringReady (d : Device) (h : Nat) : Bool :=
  match d.entry h with
  | some e => 2 ≤ e.tier && e.move == .settled && !e.poisoned && !e.lost
  | none => false

/-- An entry and its data written into an output or BATCH ring, and PRODUCER advanced. -/
def Device.ringPut (d : Device) (h width : Nat) (entry data : Bytes) (port : Option Nat) : Device :=
  let k := d.ringProducer h
  let n := d.ringEntries h
  let slot := d.ringField h 64 32
  let d := if data = [] then d else d.writeBytes h (64 + n * width + (k % n) * slot) data
  let d := (d.writeBytes h (64 + (k % n) * width) entry).writeNat h 16 8 (k + 1)
  (d.restored h).ringSignal h port

/-- A ring has no room. -/
def Device.ringFull (d : Device) (h : Nat) : Bool := d.ringEntries h ≤ d.ringProducer h - d.ringConsumer h

/-- The bytes of a batch entry before its signature (R465). -/
def Device.batchBytes (d : Device) (p : Nat) (b : ClosedBatch) (prev : Bytes) : Bytes :=
  leBytes 64 (fld 0x54414251 0 + fld 1 32 + fld p 40 + fld d.sec.fuses.stepping 48 + fld d.sec.fuses.serial 64 +
    fld b.number 128 + fld b.count 192 + fld b.first 256 + fld b.last 320) ++ slice b.root 0 64 ++ slice prev 0 64

/-- The oldest closed batch of a port is signed and written; a full ring, or one that is no BATCH ring any more or cannot be
read, makes it wait (R466). A batch whose signature fails is never written (R455). -/
def Device.writeBatch (d : Device) (p : Nat) : Device :=
  let b := d.batchesOf p
  match b.closed with
  | [] => d
  | c :: rest =>
    let h := d.batchRing p
    if !d.ringReady h ∨ d.ringCheck h 3 ≠ St.ok then
      (if b.waiting then d else (d.ringError h (d.ringProducer h)).onBatches p (fun b => { b with waiting := true }))
    else if d.ringFull h then
      (if b.waiting then d else (d.raise 0x1007 [a2 p, a8 c.number]).onBatches p (fun b => { b with waiting := true }))
    else
      let body := d.batchBytes p c b.prev
      let (sig, d) := d.sign 1 body
      let d := d.onBatches p (fun b => { b with closed := rest, prev := c.root, waiting := false })
      match sig with
      | none => d
      | some sig => (d.ringPut h 256 (body ++ slice sig 0 64) [] (some p)).bump Obj.batchesSigned

/-- BATCH_ENTRY_WRITE (R465, R466). -/
def execBatchEntryWrite (port : Nat) (s : State) := onDev s (fun d => if port ≤ 1 then d.writeBatch port else d)

/-! ### Output entries (R390) -/

/-- The 64 bytes of an output entry before the receipt. -/
def outputHead (seq id stream status cause healthBit bytes : Nat) : Bytes :=
  leBytes 64 (fld seq 0 + fld id 64 + fld stream 128 + fld status 144 + fld cause 160 + fld healthBit 168 + fld bytes 192)

/-- The sample at the head of a stream is done with: its entry is written, the input ring's CONSUMER passes it and its holds
are released (R389, R229). -/
def Device.sampleWritten (d : Device) (s : Nat) (x : Stream) (head receipt data : Bytes) : Device :=
  let port := d.grantPort s
  let d := d.ringPut x.outRing 256 (head ++ receipt) data port
  let d := ((d.writeNat x.inRing 24 8 (d.ringConsumer x.inRing + 1)).restored x.inRing).ringSignal x.inRing port
  (d.onStream s (fun x => { x with samples := x.samples.drop 1 })).releaseAll

/-- The oldest sample of a stream that has ended gives its output entry, in sequence order: an output too large fails with
NO_SPACE, a batch that waits for its ring holds entries that would bring a receipt (R390, R466). -/
def Device.writeOutput (d : Device) (s : Nat) : Device :=
  match tget d.streams s with
  | none => d
  | some x => match x.samples with
    | [] => d
    | y :: _ =>
      let id := bits y.entry 0 64
      if !d.ringReady x.outRing ∨ !d.ringReady x.inRing ∨ d.ringFull x.outRing then d
      else match y.ending, y.output with
        | some e, _ =>
          d.sampleWritten s x (outputHead y.seq id s e.status e.cause e.bit 0) (List.replicate 192 0) []
        | none, some out =>
          if d.ringField x.outRing 64 32 < out.length then
            (d.refuseSample s y.seq St.noSpace).sampleWritten s x (outputHead y.seq id s St.noSpace 0 0xFF 0) (List.replicate 192 0) []
          else
            let p := (d.grantPort s).getD 0
            if (d.batchesOf p).waiting then
              (if y.held then d
               else (d.bump Obj.batchRingWaits).onStream s (fun x => { x with samples := x.samples.map (fun z =>
                 if z.seq = y.seq then { z with held := true } else z) }))
            else
              let r := d.receipt p s x y out
              let d := d.sampleWritten s x (outputHead y.seq id s St.ok 0 0xFF out.length) r out
              (d.onlyIf y.nonFinite (·.bump Obj.servingNonfinite)).addReceipt p r
        | none, none => d

/-- The oldest training output whose ring takes one goes there (R390); its receipt is all 0. -/
def Device.writeTraining (d : Device) : Device :=
  match d.run.outputs.findIdx? (fun o => d.ringReady o.1 && !d.ringFull o.1) with
  | none => d
  | some i => match d.run.outputs[i]? with
    | none => d
    | some (h, seq, id, out) =>
      let big := d.ringField h 64 32 < out.length
      let t := d.get Obj.conductorToken
      let data := if big then [] else out
      (d.ringPut h 256 (outputHead seq id 0 (if big then St.noSpace else St.ok) 0 0xFF data.length ++ List.replicate 192 0) data
        (if t ≤ 1 then some t else none)).onRun (fun r => { r with outputs := r.outputs.eraseIdx i })

/-- OUTPUT_ENTRY_WRITE (R390): of a serving stream, or of the run for stream 0. -/
def execOutputEntryWrite (stream : Nat) (s : State) :=
  onDev s (fun d => if stream = 0 then d.writeTraining else d.writeOutput stream)

/-- BATCH_RING of a port (R466, R470). -/
def batchRingEffect (p : Nat) : Effect := fun d _ h =>
  let old := d.batchRing p
  match d.entry h with
  | none => (St.range, d)
  | some e =>
    let st := d.ringCheck h 3
    if st ≠ St.ok then (st, d)
    else if h ≠ old ∧ d.streams.any (fun x => d.grantPort x.1 == some p) then (St.busy, d)
    else if h = old then (St.ok, d)
    else if 255 ≤ e.pins then (St.noSpace, d)
    else (St.ok, (((d.onlyIf (d.names old) (fun d => d.dropPin old)).addPin h).put (Obj.batchRing0 + p) h))

/-- BATCH_RING (R466). -/
def execBatchRing (rq : Req) (port handle : Nat) (s : State) :=
  onReq s rq (fun d => if port ≤ 1 then d.command rq (Obj.batchRing0 + port) handle (batchRingEffect port) else d)

end Sys2Proof.Machine
end

