-- ==== Sys2Proof/Machine/Still.lean ====
section
/-!
DEFINITION. Stills and doubles (R318 to R328, R330): what is stilled and its manifest, the chunks a device sends, and the
slots a double keeps. The commands that receive chunks stand in StillCmd.lean.
-/
namespace Sys2Proof.Machine

/-! ### The layer and group entries (R188, R190, R191) -/

namespace Le
def layer (e : Nat) : Nat := bits e 0 32
def group (e : Nat) : Nat := bits e 32 8
def scaleGroup (e : Nat) : Nat := bits e 40 8
def lapidary (e : Nat) : Nat := bits e 48 1
def actLearned (e : Nat) : Bool := bit e 49
def wLearned (e : Nat) : Bool := bit e 50
def wFormat (e : Nat) : Nat := bits e 64 8
def fallbackFormat (e : Nat) : Nat := bits e 72 8
def inCh (e : Nat) : Nat := bits e 80 15
def outCh (e : Nat) : Nat := bits e 96 13
def veins (e : Nat) : Nat := bits e 112 15
def master (e : Nat) : Nat := bits e 128 32
def state (e : Nat) : Nat := bits e 160 32
def wc (e : Nat) : Nat := bits e 192 32
def veinList (e : Nat) : Nat := bits e 224 32
def veinWeight (e : Nat) : Nat := bits e 256 32
def fallback (e : Nat) : Nat := bits e 288 32
def scale (e : Nat) : Nat := bits e 320 32
def residual (e : Nat) : Nat := bits e 352 32
def codebook (e : Nat) : Nat := bits e 384 32
def versionCount (e : Nat) : Nat := bits e 448 32
/-- A learned scale exists. -/
def learned (e : Nat) : Bool := actLearned e || wLearned e
/-- A reserved field is set. -/
def reserved (e : Nat) : Bool :=
  bits e 51 13 != 0 || bit e 95 || bits e 109 3 != 0 || bit e 127 || bits e 416 32 != 0 || bits e 480 32 != 0
end Le

namespace Ge
def mode (g : Nat) : Nat := bits g 0 2
def frozen (g : Nat) : Bool := mode g == 2
def exempt (g : Nat) : Bool := bit g 2
def combineFirst (g : Nat) : Bool := bit g 3
def sign (g : Nat) : Bool := bit g 4
def states (g : Nat) : Nat := bits g 5 3
def denState (g : Nat) : Nat := bits g 8 3
def sideUnits (g : Nat) : Bool := bit g 11
def wcRounding (g : Nat) : Nat := bits g 12 2
def residualBf16 (g : Nat) : Bool := bit g 14
def curve (g : Nat) : Nat := bits g 32 32
def program (g : Nat) : Nat := bits g 64 32
def lrBase (g : Nat) : Nat := bits g 96 32
def decay (g : Nat) : Nat := bits g 128 32
def epsilon (g : Nat) : Nat := bits g 160 32
def nG (g : Nat) : Nat := bits g 192 32
def start (g : Nat) : Nat := bits g 224 32
def position (g : Nat) : Nat := bits g 256 32
/-- The state record `k`, and its fields. -/
def record (g k : Nat) : Nat := bits g (512 + 192 * k) 192
def a (r : Nat) : Nat := bits r 0 32
def b (r : Nat) : Nat := bits r 32 32
def c (r : Nat) : Nat := bits r 64 32
def n (r : Nat) : Nat := bits r 96 32
def biasCorrect (r : Nat) : Bool := bit r 128
def bf16 (r : Nat) : Bool := bit r 129
def rounding (r : Nat) : Nat := bits r 130 2
def power (r : Nat) : Nat := bits r 160 32
/-- POSITION and the POWER of a state record set. -/
def setPosition (g p : Nat) : Nat := putBits g 256 32 p
def setPower (g k p : Nat) : Nat := putBits g (512 + 192 * k + 160) 32 p
/-- A reserved field or value is set. -/
def reserved (g : Nat) : Bool :=
  mode g == 3 || 4 < states g || 4 < denState g || 1 < wcRounding g || bits g 15 17 != 0 || bits g 288 224 != 0 ||
    bits g 1280 768 != 0 ||
    (List.range (states g)).any (fun k => 1 < rounding (record g k) || bits (record g k) 132 28 != 0)
end Ge

/-- The group of a layer entry, and its scale group. -/
def Device.groupOf (d : Device) (i : Nat) : Nat := d.run.groups.getD i 0

/-! ### What is stilled (R320, R321) -/

/-- A number put in its place among ascending ones. -/
def insertNat (x : Nat) : List Nat → List Nat
  | [] => [x]
  | y :: l => if x < y then x :: y :: l else if x = y then y :: l else y :: insertNat x l

/-- The stilled objects in ascending handle: those of kinds MASTER, STATE, SCALE and RESIDUAL the layer table names. -/
def Device.stilled (d : Device) : List Nat :=
  ((d.run.layers.flatMap (fun e => [Le.master e, Le.state e, Le.scale e, Le.residual e])).filter (fun h =>
    match d.entry h with
    | some e => 1 ≤ e.kind && e.kind ≤ 4
    | none => false)).foldl (fun l h => insertNat h l) []

/-- How an object is stilled. -/
def Device.methodOf (d : Device) (h : Nat) : StillMethod := tgetD d.still.methods h {}

/-- The still state changed. -/
def Device.onStill (d : Device) (f : StillState → StillState) : Device := { d with still := f d.still }

/-- Groups, layers and trackers of the armed run. -/
def Device.trackers (d : Device) : Nat := d.get Obj.trackerCount

/-- GRAD_SCALE_EXP for the next take: the value staged for it, or the one the verdict set (R149). -/
def Device.nextScale (d : Device) : Nat :=
  match tget d.ctl.staged Obj.gradScaleExp with
  | some v => if d.get Obj.stageHold = 1 then d.run.nextCg.getD (d.get Obj.gradScaleExp) else v
  | none => d.run.nextCg.getD (d.get Obj.gradScaleExp)

/-- The part of the manifest fixed when the record of take `n` has been written: everything before VERSION_COUNT, and the
tracker entries. -/
def Device.manifestHead (d : Device) (n : Nat) : Bytes :=
  leBytes 8 n ++ leBytes 8 (d.get Obj.logSequence) ++ leBytes 64 (d.get Obj.logHead) ++ leBytes 64 (d.get Obj.recipeDigest) ++
    leBytes 4 d.nextScale ++ leBytes 4 (d.get Obj.gradScaleCleanRun) ++ leBytes 4 (d.get Obj.consecutiveRetakes) ++
    leBytes 4 d.run.groups.length ++ leBytes 4 d.run.layers.length ++ leBytes 4 d.trackers ++ leBytes 4 d.stilled.length ++
    List.replicate 12 0 ++
    (d.run.groups.map (fun g => leBytes 4 (Ge.position g) ++
      ((List.range 4).map (fun k => leBytes 4 (Ge.power (Ge.record g k)))).flatten)).flatten

/-- The tracker entries as the manifest carries them. -/
def Device.manifestTrackers (d : Device) : Bytes := d.readBytes (d.get Obj.trackerTableObject) 0 (320 * d.trackers)

/-- The rest: VERSION_COUNT of each layer before the trackers, the stilled objects after them. -/
def Device.manifestOf (d : Device) (head trackers : Bytes) : Bytes :=
  let versions := (d.run.layers.map (fun e => leBytes 4 (Le.versionCount e))).flatten
  let objs := (d.stilled.map (fun h => leBytes 4 h ++ leBytes 4 (d.sizeOf h) ++
    leBytes 1 (((d.entry h).map (·.kind)).getD 0) ++ leBytes 1 (d.methodOf h).trace.toNat ++ List.replicate 6 0)).flatten
  let body := head ++ versions ++ trackers ++ objs
  leBytes 4 0x4E414D51 ++ leBytes 4 (body.length + 8) ++ body

/-- STATE_DIGEST (R323). -/
def Device.stateDigest (d : Device) (manifest : Bytes) : Bytes := sha512 (manifest ++ (d.stilled.map d.objectDigest).flatten)

/-! ### Chunks (R326) -/

namespace Ck
def hello : Nat := 0
def block : Nat := 1
def trace : Nat := 2
def manifest : Nat := 3
def end_ : Nat := 4
def abort : Nat := 5
def restore : Nat := 6
def ack : Nat := 7
end Ck

/-- A chunk header. -/
def chunkHead (kind : Nat) (base : Bool) (part index handle take : Nat) : Bytes :=
  leBytes 32 (fld kind 0 + fld base.toNat 4 + fld part 5 + fld index 16 + fld handle 32 + fld take 64)

/-- The fields of a chunk that arrives. -/
structure Chunk where
  kind   : Nat
  base   : Bool
  part   : Nat
  index  : Nat
  handle : Nat
  take   : Nat
  data   : Bytes
  bad    : Bool

def chunkOf (b : Bytes) : Chunk :=
  let h := leAt b 0 32
  { kind := bits h 0 4, base := bit h 4, part := bits h 5 3, index := bits h 16 16, handle := bits h 32 32,
    take := bits h 64 64, data := b.drop 32, bad := 7 < bits h 0 4 || bits h 8 8 != 0 || bits h 128 128 != 0 || b.length < 32 }

/-- The double's rank; none where DOUBLE_ASSIGN names none. -/
def Device.double (d : Device) : Option Nat :=
  let r := bits (d.get Obj.doubleAssign) 0 16
  if r = 0xFFFF then none else some r

/-- A STILL message: its payload counts in STILL_BYTES_SENT, and a chunk the double answers with an ACK is remembered until it
does. -/
def Device.sendChunk (d : Device) (dest take : Nat) (payload : Bytes) : Device :=
  let c := chunkOf payload
  let answered := d.double == some dest && 1 ≤ c.kind && c.kind ≤ 5
  let d := (d.send dest Kind.still false 0xFFFF take 0 0xFF 0 payload).addTo Obj.stillBytesSent payload.length
  d.onlyIf answered (·.onStill (fun s => { s with sent := s.sent ++ [(take, c.index, c.part, c.handle)] }))

/-- A STILL_ACK message. -/
def Device.sendStillAck (d : Device) (dest take : Nat) (payload : Bytes) : Device :=
  d.send dest Kind.stillAck false 0xFFFF take 0 0xFF 0 payload

/-- The eight messages of a block. -/
def Device.sendBlock (d : Device) (dest kind : Nat) (base : Bool) (h b take : Nat) : Device :=
  d.each (List.range 8) (fun d p =>
    d.sendChunk dest take (chunkHead kind base p b h take ++ d.readBytes h (b * blockBytes + p * 8192) 8192))

/-! ### Sending a still -/

/-- The double takes stills: DOUBLE_STATE is PROTECTED or CO_FED_FORCED. -/
def Device.protected (d : Device) : Bool := d.get Obj.doubleState == 1 || d.get Obj.doubleState == 2

/-- No value: all ones in 64 bits. -/
def noTake : Nat := 2 ^ 64 - 1

/-- The still in progress ends. -/
def Device.stillOver (d : Device) : Device := (d.onStill (fun s => { s with job := none })).put Obj.stillState 0

/-- A still fails with a cause (R327): 0 poison, 1 digests, 2 double lost, 3 trace refused. -/
def Device.stillFails (d : Device) (take cause : Nat) : Device :=
  (d.bump Obj.stillsFailed).raise 0x0B05 [a8 take, a1 cause]

/-- The still under way is abandoned: ABORT goes to the double. -/
def Device.abortStill (d : Device) : Device :=
  match d.still.job, d.double with
  | some j, some r => (d.sendChunk r j.take (chunkHead Ck.abort j.base 0 0 noObject j.take)).stillOver
  | _, _ => d.stillOver

/-- The methods chosen at a base still (R322). -/
def Device.chooseMethods (d : Device) (arming : Bool) : Device :=
  d.onStill (fun s => { s with methods := d.stilled.map (fun h =>
    let m := d.methodOf h
    let size := d.sizeOf h
    let ppm := d.get Obj.traceMaxChangePpm
    (h, { trace := !arming && !m.refused && ppm != 0 && d.get Obj.traceMinBlocks ≤ size && m.prints != 0 &&
            m.changed * 1000000 ≤ ppm * size * m.prints })) })

/-- A still that is no base carries an object FULL whose trace was refused: the refusal bears on no later still (R322). -/
def Device.forgetRefusals (d : Device) : Device :=
  d.onStill (fun s => { s with methods := s.methods.map (fun p => (p.1, { p.2 with refused := false })) })

/-- A still of a take begins (R325): its manifest and digest are fixed, and every block it carries is marked. Without a
double it is only counted. -/
def Device.beginStill (d : Device) (take : Nat) (base arming : Bool) (head trackers : Bytes) : Device :=
  let d := if base then d.chooseMethods arming else d.forgetRefusals
  let forced := d.get Obj.doubleState = 2
  let d := d.onlyIf (!d.protected || forced) (·.bump Obj.stillsUnprotected)
  if !d.protected then d
  else
    let m := d.manifestOf head trackers
    let full := d.stilled.filter (fun h => base || !(d.methodOf h).trace)
    let job : StillJob := { take := take, base := base, manifest := m, digest := d.stateDigest m, chunks := ceilDiv m.length 8192,
                            blocks := full.flatMap (fun h => (List.range (d.sizeOf h)).map (fun b => (h, b))) }
    let latestOwn := d.get Obj.stillLatestTake ≠ d.get Obj.stillBaseTake
    let d := d.onlyIf (!base || latestOwn) (fun d => d.put Obj.stillLatestTake noTake)
    (d.onStill (fun s => { s with job := some job })).put Obj.stillState 1

/-- A poisoned block stops the still (R327). -/
def Device.stillPoison (d : Device) (take : Nat) : Device := ((d.abortStill).bump Obj.faultsPoisoned).stillFails take 0

/-- A marked block is sent; a poisoned one ends the still. -/
def Device.stillBlock (d : Device) (j : StillJob) (r h b : Nat) : Device :=
  if ((d.entry h).map (·.poisoned)).getD true then d.stillPoison j.take
  else
    (d.sendBlock r Ck.block j.base h b j.take).onStill (fun s => { s with job := s.job.map (fun j =>
      { j with blocks := j.blocks.filter (· != (h, b)) }) })

/-- The traces of an object end: what the double has of it since its base is not whole, so that it is FULL at the next still (R322),
and the still under way is abandoned. -/
def Device.traceEnds (d : Device) (h take : Nat) : Device :=
  let d := d.onStill (fun s => { s with
    methods := tset s.methods h { tgetD s.methods h {} with trace := false, refused := true }, traces := s.traces.filter (fun t => t.1 != h) })
  match d.still.job with
  | some j => if take ≤ j.take then d.abortStill else d
  | none => d

/-- A trace block that waits is sent. A trace that meets poison fails the still it belongs to (R327), which its sender aborts. -/
def Device.traceBlock (d : Device) (r h b take : Nat) : Device :=
  if ((d.entry h).map (·.poisoned)).getD true then
    let d := (d.bump Obj.faultsPoisoned).onlyIf d.still.job.isNone (fun d =>
      d.sendChunk r take (chunkHead Ck.abort false 0 0 noObject take))
    (d.traceEnds h take).stillFails take 0
  else (d.sendBlock r Ck.trace false h b take).onStill (fun s => { s with traces := s.traces.filter (· != (h, b, take)) })

/-- The next chunk of what waits: traces, then the manifest, the blocks and END. -/
def Device.nextChunk (d : Device) : Device :=
  match d.double with
  | none => d
  | some r =>
    match d.still.traces with
    | (h, b, t) :: _ => d.traceBlock r h b t
    | [] =>
      match d.still.job with
      | none => d
      | some j =>
        if j.chunks ≠ 0 then
          let i := ceilDiv j.manifest.length 8192 - j.chunks
          (d.sendChunk r j.take (chunkHead Ck.manifest j.base 0 i noObject j.take ++ slice j.manifest (8192 * i) 8192)).onStill
            (fun s => { s with job := s.job.map (fun j => { j with chunks := j.chunks - 1 }) })
        else match j.blocks with
          | (h, b) :: _ => d.stillBlock j r h b
          | [] =>
            if j.ended then d
            else (d.sendChunk r j.take (chunkHead Ck.end_ j.base 0 0 noObject j.take ++ j.digest)).onStill
              (fun s => { s with job := s.job.map (fun j => { j with ended := true }) })

/-- Before the blocks of an object from byte `lo` to `hi` are written, those with a pending mark, and waiting traces of them,
are sent first (R325). -/
def Device.forceSends (d : Device) (h lo hi : Nat) : Device :=
  match d.double with
  | none => d
  | some r =>
    let inside : Nat → Bool := fun b => lo < (b + 1) * blockBytes && b * blockBytes < hi
    let marked := (match d.still.job with
      | some j => j.blocks.filter (fun x => x.1 == h && inside x.2)
      | none => [])
    let d := d.each marked (fun d x => match d.still.job with
      | some j => (d.stillBlock j r x.1 x.2).bump Obj.forcedSends
      | none => d)
    d.each (d.still.traces.filter (fun x => x.1 == h && inside x.2.1)) (fun d x =>
      (d.traceBlock r x.1 x.2.1 x.2.2).bump Obj.forcedSends)

/-- The blocks of an object that an update changed: they count, and those of a TRACE object are traced (R322). -/
def Device.traceChanges (d : Device) (before : Device) (h take : Nat) : Device :=
  let changed := (List.range (d.sizeOf h)).filter (fun b =>
    d.readBytes h (b * blockBytes) blockBytes != before.readBytes h (b * blockBytes) blockBytes)
  let m := d.methodOf h
  let d := d.onStill (fun s => { s with methods := tset s.methods h { m with changed := m.changed + changed.length } })
  if m.trace && !m.refused && d.protected then d.onStill (fun s => { s with traces := s.traces ++ changed.map (fun b => (h, b, take)) })
  else d

/-- The cadence of a level (R330). -/
def cadence (level : Nat) : Nat := [4096, 1024, 256, 64, 16, 4, 2, 1].getD level 1

/-- A print decides whether its still is due (R330). -/
def Device.stillDue (d : Device) (n : Nat) : Device :=
  let c := cadence (d.get Obj.riskLevel)
  let d := (d.put Obj.stillCadence c).onStill (fun s => { s with methods := s.methods.map (fun p => (p.1, { p.2 with prints := p.2.prints + 1 })) })
  if n % c ≠ 0 then d
  else
    let base := n % 4096 = 0
    if d.still.job.isSome ∨ d.still.due.isSome then
      if base then ((d.onlyIf d.still.job.isSome (·.abortStill))).onStill (fun s => { s with due := some (n, true) })
      else (d.bump Obj.stillsSkipped).raise 0x0B06 [a8 n, a1 (d.get Obj.riskLevel)]
    else d.onStill (fun s => { s with due := some (n, base) })

/-! ### The double's slots (R324) -/

/-- The key of an eighth of a block. -/
def partKey (handle block part : Nat) : Nat := handle * 2 ^ 19 + block * 8 + part

/-- A served device changed. -/
def Device.onServed (d : Device) (rank : Nat) (f : Served → Served) : Device :=
  d.onStill (fun s => { s with served := s.served.map (fun x => if x.rank = rank then f x else x) })

/-- A served device. -/
def Device.servedOf (d : Device) (rank : Nat) : Option Served := d.still.served.find? (fun x => x.rank == rank)

/-- The slot that holds the base. -/
def Served.base (x : Served) : Option StillSlot :=
  match x.slotA, x.slotB with
  | some a, _ => if a.valid && a.base then some a else (match x.slotB with
    | some b => if b.valid && b.base then some b else none
    | none => none)
  | none, some b => if b.valid && b.base then some b else none
  | none, none => none

/-- The slot of the latest still: the other one where it is valid, else the base. -/
def Served.latest (x : Served) : Option StillSlot :=
  ([x.slotA, x.slotB].filterMap id).foldl (fun best s =>
    if !s.valid then best else match best with
      | some b => if b.take < s.take then some s else best
      | none => some s) none

/-- The base stands in slot B. -/
def Served.baseInB (x : Served) : Bool :=
  match x.slotB with
  | some b => b.valid && b.base
  | none => false

/-- The slot a still is written into: the one that does not hold the base. -/
def Served.writing (x : Served) : Option StillSlot := if x.baseInB then x.slotA else x.slotB
def Served.setWriting (x : Served) (s : Option StillSlot) : Served :=
  if x.baseInB then { x with slotA := s } else { x with slotB := s }

/-- The slot a chunk of a take goes to, fresh where the slot holds another take's still. -/
def Served.slotFor (x : Served) (take : Nat) (base : Bool) : StillSlot :=
  match x.writing with
  | some s => if s.take = take ∧ !s.valid then s else { take := take, base := base }
  | none => { take := take, base := base }

/-- The manifest of a slot, cut to its own length. -/
def StillSlot.manifestBytes (s : StillSlot) : Bytes :=
  let b := (s.manifest.map (·.2)).flatten
  b.take (leAt b 4 4)

/-- Group, layer, tracker and object counts of a manifest, and where its parts start. -/
def manifestCounts (m : Bytes) : Nat × Nat × Nat × Nat := (leAt m 0xA4 4, leAt m 0xA8 4, leAt m 0xAC 4, leAt m 0xB0 4)
def layersAt (m : Bytes) : Nat := 0xC0 + 20 * (manifestCounts m).1
def trackersAt (m : Bytes) : Nat := layersAt m + 4 * (manifestCounts m).2.1
def objectsAt (m : Bytes) : Nat := trackersAt m + 320 * (manifestCounts m).2.2.1

/-- The stilled objects of a manifest: handle, SIZE, KIND and METHOD. -/
def manifestObjects (m : Bytes) : List (Nat × Nat × Nat × Nat) :=
  (List.range (manifestCounts m).2.2.2).map (fun i =>
    let o := objectsAt m + 16 * i
    (leAt m o 4, leAt m (o + 4) 4, leAt m (o + 8) 1, leAt m (o + 9) 1))

/-- An eighth of a block in a slot: its own, or, for a TRACE object of a slot that is not a base, the base's with the traces
up to the slot's take (R322). -/
def Served.part (x : Served) (s : StillSlot) (trace : Bool) (h b p : Nat) : Option Bytes :=
  match tget s.parts (partKey h b p) with
  | some v => some v
  | none =>
    if s.base || !trace then none
    else match (x.traces.filter (fun t => t.1 ≤ s.take && t.2.1 == partKey h b p)).getLast? with
    | some t => some t.2.2
    | none => x.base.bind (fun z => tget z.parts (partKey h b p))

/-- A block of a slot. -/
def Served.block (x : Served) (s : StillSlot) (trace : Bool) (h b : Nat) : Option Bytes :=
  let ps := (List.range 8).map (x.part s trace h b)
  if ps.all (·.isSome) then some ((ps.filterMap id).flatten) else none

/-- The STATE_DIGEST a double forms of a slot; none while something is missing. -/
def Served.digest (x : Served) (s : StillSlot) : Option Bytes :=
  let m := s.manifestBytes
  let objs := (manifestObjects m).map (fun o => (List.range o.2.1).map (fun b => x.block s (o.2.2.2 == 1) o.1 b))
  if objs.any (fun l => l.any (·.isNone)) then none
  else some (sha512 (m ++ (objs.map (fun l => sha512 (((l.filterMap id).map sha512).flatten))).flatten))

/-- The data of an ACK. -/
def ackData (status slot : Nat) (digest : Bytes) : Bytes := leBytes 2 status ++ leBytes 1 slot ++ List.replicate 5 0 ++ slice digest 0 64

/-- The number of a slot in ACK and RESTORE_REQUEST: 1 BASE, 2 LATEST, as STILL_RESTORE numbers them (DEDUCED, log entry 20). -/
def slotNumber (base : Bool) : Nat := if base then 1 else 2

/-- Blocks a double's store holds of the devices it serves: two slots each, and their traces. -/
def Device.storeUsed (d : Device) : Nat :=
  (d.still.served.map (fun x => 2 * x.blocks + ceilDiv x.traces.length 8)).sum

/-- The still store's blocks. -/
def Device.storeSize (d : Device) : Nat := d.sizeOf (d.get Obj.stillStoreObject)

/-- The still store is poisoned or lost. -/
def Device.storeBad (d : Device) : Bool :=
  match d.entry (d.get Obj.stillStoreObject) with
  | some e => e.poisoned || e.lost
  | none => true

end Sys2Proof.Machine
end

