-- ==== Sys2Proof/Machine/Update.lean ====
section
/-!
DEFINITION. The Lapidary update engines (chapter 07): the update context of a print, recurrence and program mode, learned
scales, the commit of residuals, working copies and their publication (R187 to R208), with the space a layer reserves
(R258), the version gate (R44) and the pins on versions (R231).
-/
namespace Sys2Proof.Machine

/-! ### Curves and contexts (R193, R199) -/

/-- A point of a curve. -/
def curvePos (c : Bytes) (i : Nat) : Nat := leAt c (16 + 8 * i) 4
def curveVal (c : Bytes) (i : Nat) : Nat := leAt c (20 + 8 * i) 4
def curvePoints (c : Bytes) : Nat := leAt c 4 2

/-- The last POSITION of a curve. -/
def curveLast (c : Bytes) : Nat := curvePos c (curvePoints c - 1)

/-- A value with the flags that forming it set. -/
abbrev FV := Nat × Flags

/-- A binary operation of values with flags. -/
def fop (op : Val → Val → Val × Flags) (a b : FV) : FV :=
  let r := f32bin op a.1 b.1
  (r.1, a.2 ||| b.2 ||| r.2)

/-- curve(p) in FP32, operation by operation (R199), with the flags of the operations. -/
def curveFlagged (c : Bytes) (p : Nat) : FV :=
  let n := curvePoints c
  if curveLast c ≤ p then (curveVal c (n - 1), 0)
  else
    let i := ((List.range n).filter (fun i => curvePos c i ≤ p)).length - 1
    let x : Nat → FV := fun k => let r := toFloat Fmt.fp32 .rne (.fin false k 1); (r.code, r.flags)
    let v : Nat → FV := fun k => (curveVal c k, 0)
    let f := fop Val.div (fop Val.sub (x p) (x (curvePos c i))) (fop Val.sub (x (curvePos c (i + 1))) (x (curvePos c i)))
    fop Val.add (v i) (fop Val.mul (fop Val.sub (v (i + 1)) (v i)) f)

/-- curve(p). -/
def curveAt (c : Bytes) (p : Nat) : Nat := (curveFlagged c p).1

/-- A curve object breaks R199. -/
def curveWrong (c : Bytes) : Bool :=
  let n := curvePoints c
  leAt c 0 4 != 0x56524351 || n == 0 || 4096 < n || leAt c 6 10 != 0 || curvePos c 0 != 0 ||
    !ascending ((List.range n).map (curvePos c)) || (List.range n).any (fun i => !fIsFinite (curveVal c i))

/-- −0 in LR_BASE, DECAY or EPSILON is used as +0 (R192, R505). -/
def plusZero (x : Nat) : Nat := if x = 2 ^ 31 then 0 else x

/-- P' and h of a state record at a print (R193 step 4), with the flags of forming them. An A of −0 is used as +0 (R505). -/
def powerFlagged (r : Nat) : FV := f32bin Val.mul (Ge.power r) (plusZero (Ge.a r))
def hFlagged (r : Nat) : FV :=
  if Ge.biasCorrect r then fop Val.div (fOne, 0) (fop Val.sub (fOne, 0) (powerFlagged r)) else (fOne, 0)
def statePower (r : Nat) : Nat := (powerFlagged r).1
def stateH (r : Nat) : Nat := (hFlagged r).1

/-- The context of a group at a print (R193), with m the multiplier in effect at the take's admission, and the flags of its
arithmetic. -/
def ctxFlagged (g : Nat) (curve : Bytes) (m : Nat) : GroupCtx × Flags :=
  let p := Ge.position g
  let sigma := curveFlagged curve p
  let eta := fop Val.mul (fop Val.mul (plusZero (Ge.lrBase g), 0) sigma) (if Ge.exempt g then fOne else m, 0)
  let decay := fop Val.mul eta (plusZero (Ge.decay g), 0)
  let hs := (List.range 4).map (fun k => if k < Ge.states g then hFlagged (Ge.record g k) else (fOne, 0))
  ({ sigma := sigma.1, eta := eta.1, etaDecay := decay.1, h := hs.map (·.1), pos := p }, decay.2 ||| orFlags (hs.map (·.2)))

/-- The context alone. -/
def groupCtx (g : Nat) (curve : Bytes) (m : Nat) : GroupCtx := (ctxFlagged g curve m).1

/-- The group entry once a print has used it: POWER and POSITION advance. -/
def groupAdvance (g : Nat) : Nat :=
  let g := (List.range (Ge.states g)).foldl (fun g k =>
    if Ge.biasCorrect (Ge.record g k) then Ge.setPower g k (statePower (Ge.record g k)) else g) g
  Ge.setPosition g (min 0xFFFF_FFFF (Ge.position g + 1))

/-- The update context of a printed take is formed for every group that is not FROZEN; CURVE_END is raised once for a group
whose position has reached its last point. -/
def Device.formContext (d : Device) (take : Nat) (cg : Int) : Device :=
  let m := d.get Obj.stepMultiplier
  let gs := d.run.groups
  let cs := (List.range gs.length).map (fun i =>
    let g := gs.getD i 0
    if Ge.frozen g then ({}, 0) else ctxFlagged g (tgetD d.run.curves i []) m)
  let ctx : UpdateCtx := ⟨take, cg, cs.map (·.1)⟩
  let d := d.takeFlags 6 (orFlags (cs.map (·.2)))
  let ended := (List.range gs.length).filter (fun i =>
    let g := gs.getD i 0
    !Ge.frozen g && curveLast (tgetD d.run.curves i []) ≤ Ge.position g && !d.run.curveEnded.contains i)
  let d := d.each ended (fun d i => d.raise 0x0703 [a1 i, a4 (Ge.position (gs.getD i 0))])
  d.onRun (fun r => { r with
    contexts := r.contexts ++ [ctx], curveEnded := r.curveEnded ++ ended,
    groups := r.groups.map (fun g => if Ge.frozen g then g else groupAdvance g) })

/-! ### Masters, states and gradients -/

/-- A Lapidary's write of a field: an object that is DATA_RO takes none (R263). -/
def Device.lapPut (d : Device) (h off n v : Nat) : Device := if d.dataRo h then d else d.writeNat h off n v

/-- A Lapidary's write of bytes. -/
def Device.lapBytes (d : Device) (h off : Nat) (bs : Bytes) : Device := if d.dataRo h then d else d.writeBytes h off bs

/-- Bytes of an element of a state. -/
def stateBytes (r : Nat) : Nat := if Ge.bf16 r then 2 else 4

/-- Where state `k` of a tensor of `n` elements starts: the states stand one after another, each in its own format. -/
def stateAt (g n k : Nat) : Nat := ((List.range k).map (fun i => n * stateBytes (Ge.record g i))).sum

/-- An element of a state, as FP32, with the flag of reading it (R54). -/
def Device.stateGet (d : Device) (h base g n k e : Nat) : FV :=
  let r := Ge.record g k
  asF32 (Ge.bf16 r) (d.readNat h (base + stateAt g n k + e * stateBytes r) (stateBytes r))

/-- A value rounded to a state's FORMAT under its ROUNDING (R195). -/
def stateConv (r key take e x : Nat) : Conv :=
  convF32 (if Ge.bf16 r then Fmt.bf16 else Fmt.fp32) (rounding (Ge.rounding r) key take e) x

/-- An element of a state written. -/
def Device.statePut (d : Device) (h base g n k e code : Nat) : Device :=
  let r := Ge.record g k
  d.lapPut h (base + stateAt g n k + e * stateBytes r) (stateBytes r) code

/-- The layer runs in fallback (R124): as its bound stages say, else by its vein count. -/
def Device.layerFalls (d : Device) (e : Nat) : Bool :=
  match d.layerStages 0 (Le.layer e) with
  | p :: _ => p.2.fallback
  | [] => 128 < Le.veins e

/-- The vein positions of a layer: the list its bound stage copied at binding (R116), at most 128 (R126 step 4); none in
fallback. -/
def Device.layerVeins (d : Device) (e : Nat) : List Nat :=
  if d.layerFalls e then []
  else match d.layerStages 0 (Le.layer e) with
    | p :: _ => p.2.veins
    | [] => (List.range (min 128 (Le.veins e))).map (fun i => d.readNat (Le.veinList e) (2 * i) 2)

/-- Input tiles and output tiles of a layer. -/
def leIn (e : Nat) : Nat := ceilDiv (Le.inCh e) 256
def leOut (e : Nat) : Nat := ceilDiv (Le.outCh e) 128

/-- Where the gradient of master (i, o) stands among the accumulator's elements (R157): a vein's in its vein block. -/
def gradIndex (e : Nat) (veins : List Nat) (i o : Nat) : Nat :=
  match veins.findIdx? (· == i) with
  | some k =>
    let p := veinPasses veins.length
    32768 * leOut e * leIn e + o / 128 * (p * 32 * 128) + k * 128 + o % 128
  | none => (o / 128 * leIn e + i / 256) * 32768 + o % 128 * 256 + i % 256

/-- The reduction of a layer. -/
def Device.collOf (d : Device) (layer : Nat) : Option Coll :=
  (d.net.colls.find? (fun p => !Ce.host p.2.entry && Ce.layer p.2.entry == layer)).map (·.2)

/-- The reduced gradient a layer's update reads: DEST of its reduction, each element times 2^−cg (R148, R194 step 1), with the
flags of the product. -/
def Device.gradFlagged (d : Device) (e : Nat) (veins : List Nat) (cg : Int) (i o : Nat) : Nat × Flags :=
  match d.collOf (Le.layer e) with
  | some c => f32bin Val.mul (d.readNat (Ce.dest c.entry) (4 * gradIndex e veins i o) 4) (fPow2 (-cg))
  | none => (0, 0)

/-- The same, its value alone. -/
def Device.reducedGrad (d : Device) (e : Nat) (veins : List Nat) (cg : Int) (i o : Nat) : Nat := (d.gradFlagged e veins cg i o).1

/-- The flags of the products of every element (R70, R194 step 1). -/
def Device.gradFlags (d : Device) (e : Nat) (veins : List Nat) (cg : Int) : Flags :=
  orFlags ((List.range (Le.outCh e)).flatMap (fun o => (List.range (Le.inCh e)).map (fun i => (d.gradFlagged e veins cg i o).2)))

/-- A master as it stands. -/
def Device.master (d : Device) (e i o : Nat) : Nat := d.readNat (Le.master e) (4 * (o * Le.inCh e + i)) 4

/-! ### Recurrence mode (R195) -/

/-- A coefficient of +0 or −0 leaves its term out. -/
def nonZero (c : Nat) : Bool := fAbs c != 0

/-- A sum of the terms that are there, in order; +0 where none is. -/
def sumTerms (ts : List (Option FV)) : FV :=
  match ts.filterMap id with
  | [] => (0, 0)
  | t :: rest => rest.foldl (fop Val.add) t

/-- A term of a coefficient. -/
def term (c : Nat) (x : FV) : Option FV := if nonZero c then some (fop Val.mul (c, 0) x) else none

/-- A state of one element after the gradient has entered it, before rounding. -/
def recState (r s g : Nat) : FV :=
  sumTerms [term (Ge.a r) (s, 0), term (Ge.b r) (g, 0), term (Ge.c r) (f32bin Val.mul g g)]

/-- The sign of a quotient: +1, −1, +0 of a zero; a NaN gives the canonical one (R54). -/
def signOf (u : Nat) : Nat := if fIsNan u then fNaN else if fAbs u = 0 then 0 else if fNeg u then fNegate fOne else fOne

/-- The master of one element after the combine stage: `use` are the states it reads. EPSILON is no coefficient: it is added
where it is 0 too. -/
def recMaster (gr : Nat) (cx : GroupCtx) (use : List Nat) (g w : Nat) : FV :=
  let corr : Nat → FV := fun k =>
    let h := cx.h.getD k fOne
    if h = fOne then (use.getD k 0, 0) else f32bin Val.mul (use.getD k 0) h
  let n := sumTerms ((List.range (Ge.states gr)).map (fun k => term (Ge.n (Ge.record gr k)) (corr k)) ++ [term (Ge.nG gr) (g, 0)])
  let u := if Ge.denState gr = 4 then n
    else
      let c := corr (Ge.denState gr)
      let r := f32un Val.sqrt c.1
      fop Val.div n (fop Val.add (r.1, c.2 ||| r.2) (plusZero (Ge.epsilon gr), 0))
  let u := if Ge.sign gr then (signOf u.1, u.2) else u
  match term cx.eta u, term cx.etaDecay (w, 0) with
  | none, none => (w, u.2)
  | some a, none => fop Val.sub (w, 0) a
  | none, some b => fop Val.sub (w, u.2) b
  | some a, some b => fop Val.sub (w, 0) (fop Val.add a b)

/-- One element of a tensor goes through the recurrence: its states at `h` from byte `base`, its master's new value. -/
def Device.recElement (d : Device) (h base gr : Nat) (cx : GroupCtx) (keys : List Nat) (take n e g w : Nat) : Nat × Device :=
  let ks := List.range (Ge.states gr)
  let olds := ks.map (fun k => d.stateGet h base gr n k e)
  let old := olds.map (·.1)
  let raw := ks.map (fun k => recState (Ge.record gr k) (old.getD k 0) g)
  let convs := ks.map (fun k => stateConv (Ge.record gr k) (keys.getD k 0) take e (raw.getD k (0, 0)).1)
  let codes := convs.map (·.code)
  let new := ks.map (fun k => if Ge.bf16 (Ge.record gr k) then toF32 Fmt.bf16 (codes.getD k 0) else codes.getD k 0)
  let m := recMaster gr cx (if Ge.combineFirst gr then old else new) g w
  let d := d.each ks (fun d k => d.statePut h base gr n k e (codes.getD k 0))
  (m.1, d.takeFlags 6 (m.2 ||| orFlags (olds.map (·.2)) ||| orFlags (raw.map (·.2)) ||| orFlags (convs.map (·.flags))))

/-- The keys of a layer's states (R233). -/
def Device.stateKeys (d : Device) (tensor : Nat) : List Nat := (List.range 4).map (fun k => d.genKey 0 tensor (Pur.state0 + k))

/-- The recurrence over every master of a layer. -/
def Device.recurrence (d : Device) (e gr : Nat) (cx : GroupCtx) (take : Nat) (grad : Nat → Nat → Nat) : Device :=
  let keys := d.stateKeys (Le.state e)
  let n := Le.inCh e * Le.outCh e
  d.each (List.range (Le.outCh e)) (fun d o => d.each (List.range (Le.inCh e)) (fun d i =>
    let ix := o * Le.inCh e + i
    let (w, d) := d.recElement (Le.state e) 0 gr cx keys take n ix (grad i o) (d.master e i o)
    d.lapPut (Le.master e) (4 * ix) 4 w))

/-! ### Program mode (R196 to R198) -/

/-- A tensor register: rows, columns and the elements row by row. -/
structure Mat where
  rows : Nat
  cols : Nat
  data : List Nat

def Mat.at_ (m : Mat) (i j : Nat) : Nat := m.data.getD ((if m.rows = 1 then 0 else i) * m.cols + (if m.cols = 1 then 0 else j)) 0

/-- A matrix of a function. -/
def Mat.of (rows cols : Nat) (f : Nat → Nat → Nat) : Mat :=
  ⟨rows, cols, (List.range rows).flatMap (fun i => (List.range cols).map (fun j => f i j))⟩

/-- The shape two shapes broadcast to (R196): one of them, to which the other is equal, or of 1 × 1, 1 × cols or rows × 1. That rows × 1
and 1 × cols together make a shape neither has is not said, and is refused (DESIGN CHOICE, log entry 131). -/
def broadcastShape (a b : Nat × Nat) : Option (Nat × Nat) :=
  let fits : Nat × Nat → Nat × Nat → Bool := fun x y => (x.1 == y.1 || x.1 == 1) && (x.2 == y.2 || x.2 == 1)
  if fits a b then some b else if fits b a then some a else none

/-- The shape three shapes broadcast to: one of them, to which both others broadcast. -/
def broadcastShape3 (a b c : Nat × Nat) : Option (Nat × Nat) :=
  [a, b, c].find? (fun s => [a, b, c].all (fun x => broadcastShape x s == some s))

/-- A matrix of a function whose values come with flags. -/
def Mat.ofFlagged (rows cols : Nat) (f : Nat → Nat → FV) : Mat × Flags :=
  let rs := (List.range rows).flatMap (fun i => (List.range cols).map (fun j => f i j))
  (⟨rows, cols, rs.map (·.1)⟩, orFlags (rs.map (·.2)))

/-- An operation element by element, with broadcast. -/
def Mat.zip (f : Nat → Nat → FV) (a b : Mat) : Mat × Flags :=
  match broadcastShape (a.rows, a.cols) (b.rows, b.cols) with
  | some (r, c) => Mat.ofFlagged r c (fun i j => f (a.at_ i j) (b.at_ i j))
  | none => (⟨0, 0, []⟩, 0)

def Mat.map (f : Nat → FV) (a : Mat) : Mat × Flags := Mat.ofFlagged a.rows a.cols (fun i j => f (a.at_ i j))

/-- Fields of an operation word. -/
def opCode (w : Nat) : Nat := bits w 0 8
def opDst (w : Nat) : Nat := bits w 8 4
def opA (w : Nat) : Nat := bits w 12 4
def opB (w : Nat) : Nat := bits w 16 4
def opC (w : Nat) : Nat := bits w 20 4
def opRsv (w : Nat) : Nat := bits w 24 8
def opIm (w : Nat) : Nat := bits w 32 32

/-- Word `i` of a program, and how many there are. -/
def progWord (p : Bytes) (i : Nat) : Nat := leAt p (16 + 8 * i) 8
def progCount (p : Bytes) : Nat := leAt p 4 1

/-- MAX and MIN of FP32 values (R217's order): +0 above −0; a NaN gives the canonical NaN. -/
def maxOf (a b : Nat) : Nat :=
  if fIsNan a || fIsNan b then fNaN
  else if fAbs a = 0 ∧ fAbs b = 0 then (if fNeg a then b else a)
  else match fNeg a, fNeg b with
    | false, true => a
    | true, false => b
    | false, false => if fAbs a < fAbs b then b else a
    | true, true => if fAbs b < fAbs a then b else a
def minOf (a b : Nat) : Nat := if fIsNan a || fIsNan b then fNaN else if maxOf a b = a then b else a

/-- A fused multiply and add, rounded once. -/
def fma (a b c : Nat) : FV :=
  let p := (floatVal Fmt.fp32 a).mul (floatVal Fmt.fp32 b)
  let s := (p.1).add (floatVal Fmt.fp32 c)
  let r := toFloat Fmt.fp32 .rne s.1
  (r.code, p.2 ||| s.2 ||| r.flags)

/-- A result that no arithmetic rounds, with the flag of reading a signalling NaN (R54). -/
def bare (f : Nat → Nat) (x : Nat) : FV := (f x, readFlags Fmt.fp32 x)
def bare2 (f : Nat → Nat → Nat) (x y : Nat) : FV := (f x y, readFlags Fmt.fp32 x ||| readFlags Fmt.fp32 y)

/-- Squares in blocks of 256, summed exactly and rounded once, accumulated (R198). -/
def sumSquares (xs : List Nat) : List (Val × Val) := xs.map (fun x => (floatVal Fmt.fp32 x, floatVal Fmt.fp32 x))

/-- The block sums of a row. -/
def rowBlocks (xs : List Nat) : List FV := (chunks 256 (xs.length + 1) (sumSquares xs)).map dotRound

/-- A norm of block sums: accumulated from +0 and rooted once. -/
def normOf (bs : List FV) : FV :=
  let s := bs.foldl (fop Val.add) (0, 0)
  let r := f32un Val.sqrt s.1
  (r.1, s.2 ||| r.2)

def Mat.row (a : Mat) (i : Nat) : List Nat := (List.range a.cols).map (fun j => a.at_ i j)
def Mat.col (a : Mat) (j : Nat) : List Nat := (List.range a.rows).map (fun i => a.at_ i j)

/-- A matrix product of BF16 operands in blocks of `k` (R198). -/
def matmul (k : Nat) (a b : Mat) (bt : Bool) : Mat × Flags :=
  let m := Mat.ofFlagged a.rows (if bt then b.rows else b.cols) (fun i j =>
    blockDot k (List.zip (bf16Row (a.row i)) (bf16Row (if bt then b.row j else b.col j))))
  (m.1, m.2 ||| bf16Flags a.data ||| bf16Flags b.data)

/-- The scalars of SRC_C. -/
def scalar (gr : Nat) (cx : GroupCtx) (i : Nat) : Nat :=
  match i with
  | 0 => cx.eta
  | 1 => cx.etaDecay
  | 2 => cx.h.getD 0 0
  | 3 => cx.h.getD 1 0
  | 4 => cx.h.getD 2 0
  | 5 => cx.h.getD 3 0
  | 6 => plusZero (Ge.lrBase gr)
  | 7 => plusZero (Ge.decay gr)
  | 8 => plusZero (Ge.epsilon gr)
  | 9 => cx.sigma
  | _ => fOfInt cx.pos

/-- The result of an operation that only computes. -/
def matOp (gr : Nat) (cx : GroupCtx) (w : Nat) (a b c : Mat) : Mat × Flags :=
  let im := opIm w
  match opCode w with
  | 0x10 => a.zip (f32bin Val.add) b
  | 0x11 => a.zip (f32bin Val.sub) b
  | 0x12 => a.zip (f32bin Val.mul) b
  | 0x13 => a.zip (f32bin Val.div) b
  | 0x14 => a.zip (bare2 maxOf) b
  | 0x15 => a.zip (bare2 minOf) b
  | 0x16 => a.map (f32un Val.sqrt)
  | 0x17 => a.map (bare fAbsOf)
  | 0x18 => a.map (bare fNegOf)
  | 0x19 => a.map (bare signOf)
  | 0x1A =>
    match broadcastShape3 (a.rows, a.cols) (b.rows, b.cols) (c.rows, c.cols) with
    | some (r, n) => Mat.ofFlagged r n (fun i j => fma (a.at_ i j) (b.at_ i j) (c.at_ i j))
    | none => (⟨0, 0, []⟩, 0)
  | 0x20 => a.map (fun x => f32bin Val.add x im)
  | 0x21 => a.map (fun x => f32bin Val.mul x im)
  | 0x22 => a.map (fun x => bare2 maxOf x im)
  | 0x23 => a.map (fun x => bare2 minOf x im)
  | 0x28 => a.map (fun x => f32bin Val.add x (scalar gr cx (opC w)))
  | 0x29 => a.map (fun x => f32bin Val.mul x (scalar gr cx (opC w)))
  | 0x30 => Mat.ofFlagged 1 1 (fun _ _ => normOf ((List.range a.rows).flatMap (fun i => rowBlocks (a.row i))))
  | 0x31 => Mat.ofFlagged a.rows 1 (fun i _ => normOf (rowBlocks (a.row i)))
  | 0x32 => Mat.ofFlagged 1 a.cols (fun _ j => normOf (rowBlocks (a.col j)))
  | 0x38 => (Mat.of a.cols a.rows (fun i j => a.at_ j i), 0)
  | 0x39 => matmul (if Ge.sideUnits gr then 64 else 256) a b false
  | _ => matmul (if Ge.sideUnits gr then 64 else 256) a b true

/-- An operation on whole tensors (R198): a norm, a transpose or a product. -/
def wholeTensor (op : Nat) : Bool := 0x30 ≤ op

/-- The live registers are written out to the Lapidary's scratch object (R198): register k's elements from byte 4 × k × E, with E
the largest element count among them. Which registers are live, and where each stands, the text does not say: every one
written so far, in that place (DESIGN CHOICE, log entry 107). -/
def Device.spillRegs (d : Device) (key : Nat) (regs : Tbl Mat) : Device :=
  let h := d.get key
  let n := regs.foldl (fun m r => max m r.2.data.length) 0
  d.each regs (fun d r => d.writeBytes h (4 * r.1 * n) ((r.2.data.map (leBytes 4)).flatten))

/-- An operation word runs on the registers (R196). -/
def Device.progStep (d : Device) (e gr : Nat) (cx : GroupCtx) (take : Nat) (grad : Nat → Nat → Nat) (regs : Tbl Mat) (w : Nat) :
    Tbl Mat × Device :=
  let none_ : Mat := ⟨0, 0, []⟩
  let r : Nat → Mat := fun i => tgetD regs i none_
  let n := Le.inCh e * Le.outCh e
  let ix : Nat → Nat → Nat := fun i o => o * Le.inCh e + i
  let k := opC w
  match opCode w with
  | 0x01 => (tset regs (opDst w) (Mat.of (Le.inCh e) (Le.outCh e) grad), d)
  | 0x02 => (tset regs (opDst w) (Mat.of (Le.inCh e) (Le.outCh e) (d.master e)), d)
  | 0x03 =>
    let m := Mat.ofFlagged (Le.inCh e) (Le.outCh e) (fun i o => d.stateGet (Le.state e) 0 gr n k (ix i o))
    (tset regs (opDst w) m.1, d.takeFlags 6 m.2)
  | 0x04 =>
    let m := r (opA w)
    (regs, d.each (List.range (Le.outCh e)) (fun d o => d.each (List.range (Le.inCh e)) (fun d i =>
      d.lapPut (Le.master e) (4 * ix i o) 4 (m.at_ i o))))
  | 0x05 =>
    let m := r (opA w)
    let rec' := Ge.record gr k
    let key := d.genKey 0 (Le.state e) (Pur.state0 + k)
    let conv : Nat → Nat → Conv := fun i o => stateConv rec' key take (ix i o) (m.at_ i o)
    let code : Nat → Nat → Nat := fun i o => (conv i o).code
    let d := d.takeFlags 6 (orFlags ((List.range (Le.inCh e)).flatMap (fun i => (List.range (Le.outCh e)).map (fun o => (conv i o).flags))))
    let d := d.each (List.range (Le.outCh e)) (fun d o => d.each (List.range (Le.inCh e)) (fun d i =>
      d.statePut (Le.state e) 0 gr n k (ix i o) (code i o)))
    (tset regs (opA w) (Mat.of m.rows m.cols (fun i o => if Ge.bf16 rec' then toF32 Fmt.bf16 (code i o) else code i o)), d)
  | c =>
    let d := d.onlyIf (wholeTensor c) (·.spillRegs (if Le.lapidary e = 0 then Obj.scratchA else Obj.scratchB) regs)
    let d := d.onlyIf (c == 0x39 || c == 0x3A) (fun d => d.bump (if Ge.sideUnits gr then Obj.matrixOpsSide else Obj.matrixOpsLapidary))
    let m := matOp gr cx w (r (opA w)) (r (opB w)) (r (opC w))
    (tset regs (opDst w) m.1, d.takeFlags 6 m.2)

/-- The words before END. -/
def progBody (p : Bytes) : List Nat := ((List.range (progCount p)).map (progWord p)).takeWhile (fun w => opCode w != 0)

/-- A program runs on a layer. -/
def Device.runProgram (d : Device) (e gr : Nat) (p : Bytes) (cx : GroupCtx) (take : Nat) (grad : Nat → Nat → Nat) : Device :=
  ((progBody p).foldl (fun acc w => acc.2.progStep e gr cx take grad acc.1 w) (([] : Tbl Mat), d)).2

/-! The check of a program against a layer (R197). -/

/-- An opcode R196 lists. -/
def matOpKnown (o : Nat) : Bool :=
  (1 ≤ o && o ≤ 5) || (0x10 ≤ o && o ≤ 0x1A) || (0x20 ≤ o && o ≤ 0x23) || o == 0x28 || o == 0x29 ||
    (0x30 ≤ o && o ≤ 0x32) || (0x38 ≤ o && o ≤ 0x3A)

/-- Shapes by register, and what has been stored: 0 the masters, 1 + k state k. -/
abbrev Shapes := Tbl (Nat × Nat) × List Nat

/-- The shape an operation gives its destination; none where it is refused. -/
def shapeStep (rows cols states : Nat) (acc : Option Shapes) (w : Nat) : Option Shapes :=
  match acc with
  | none => none
  | some (t, stored) =>
    let a := tget t (opA w)
    let b := tget t (opB w)
    let c := tget t (opC w)
    let put : Option (Nat × Nat) → Option Shapes := fun s => match s with
      | some s => if 2 ^ 26 < s.1 * s.2 then none else some (tset t (opDst w) s, stored)
      | none => none
    let store : Nat → Option Shapes := fun k =>
      if a = some (rows, cols) ∧ !stored.contains k then some (t, k :: stored) else none
    let o := opCode w
    if opRsv w ≠ 0 ∨ !matOpKnown o ∨ !fIsFinite (opIm w) then none
    else if o = 1 ∨ o = 2 then put (some (rows, cols))
    else if o = 3 then (if opC w < states then put (some (rows, cols)) else none)
    else if o = 4 then store 0
    else if o = 5 then (if opC w < states then store (1 + opC w) else none)
    else if o ≤ 0x15 then put (a.bind (fun a => b.bind (fun b => broadcastShape a b)))
    else if o = 0x1A then put (a.bind (fun a => b.bind (fun b => c.bind (fun c => broadcastShape3 a b c))))
    else if o = 0x28 ∨ o = 0x29 then (if opC w ≤ 10 then put a else none)
    else if o = 0x30 then put (a.map (fun _ => (1, 1)))
    else if o = 0x31 then put (a.map (fun a => (a.1, 1)))
    else if o = 0x32 then put (a.map (fun a => (1, a.2)))
    else if o = 0x38 then put (a.map (fun a => (a.2, a.1)))
    else if o = 0x39 then put (a.bind (fun a => b.bind (fun b => if a.2 = b.1 then some (a.1, b.2) else none)))
    else if o = 0x3A then put (a.bind (fun a => b.bind (fun b => if a.2 = b.2 then some (a.1, b.1) else none)))
    else put a

/-- A program breaks R197 on a layer of a shape and a group of some states. -/
def programWrong (p : Bytes) (rows cols states : Nat) : Bool :=
  let n := progCount p
  leAt p 0 4 != 0x47525051 || n == 0 || 64 < n || leAt p 5 11 != 0 ||
    (progBody p).length + 1 != n || opRsv (progWord p (n - 1)) != 0 || !fIsFinite (opIm (progWord p (n - 1))) ||
    ((progBody p).foldl (shapeStep rows cols states) (some ([], []))).isNone

/-- The largest element count a register takes. -/
def programElems (p : Bytes) (rows cols states : Nat) : Nat :=
  ((progBody p).foldl (fun acc w =>
    let s := shapeStep rows cols states acc.1 w
    (s, max acc.2 (match s with
      | some (t, _) => (t.map (fun x => x.2.1 * x.2.2)).foldl max 0
      | none => 0))) (some (([], []) : Shapes), 0)).2

/-! ### Working copies (R201, R202, R125) -/

/-- The masters of an output channel, in ascending input. -/
def Device.column (d : Device) (e o : Nat) : List Nat := (List.range (Le.inCh e)).map (fun i => d.master e i o)

/-- The largest magnitude of finite masters. -/
def amaxOf (ws : List Nat) : Nat := ((ws.filter fIsFinite).map fAbs).foldl max 0

/-- A derived scale of 0 becomes 1.0. -/
def scaleOr1 (s : Nat) : Nat := if fAbs s = 0 then fOne else s

/-- The scale and zero point R125 derives for an integer format, with the flags of deriving them (R70). -/
def derivedInt (f : Nat) (ws : List Nat) : Nat × Nat × Flags :=
  let b := fmtBits f
  if fmtIsUnsigned f then
    let fs := ws.filter fIsFinite
    let lo := fs.foldl (fun m x => minOf m x) (fs.headD 0)
    let hi := fs.foldl (fun m x => maxOf m x) (fs.headD 0)
    let q := fop Val.div (fop Val.sub (hi, 0) (lo, 0)) (fOfInt (2 ^ b - 1), 0)
    let s := scaleOr1 q.1
    let v := fop Val.div (fNegate lo, 0) (s, 0)
    let z : Int × Bool := match floatVal Fmt.fp32 v.1 with
      | .fin neg n dn => roundInt .rne neg n dn
      | .inf neg => (if neg then 0 else 2 ^ b, false)
      | .nan _ => (0, false)
    (s, (min (max z.1 0) (2 ^ b - 1)).toNat, q.2 ||| v.2 ||| (if z.2 then Flags.inexact else 0))
  else
    let q := f32bin Val.div (amaxOf ws) (fOfInt (2 ^ (b - 1) - 1))
    (scaleOr1 q.1, 0, q.2)

/-- The scale word's scale and zero point of an output channel of a narrow copy (R201), with the flags of deriving them. -/
def narrowScale (f : Nat) (learned : Option Nat) (book : List Nat) (ws : List Nat) : Nat × Nat × Flags :=
  let over_ : FV → Nat → Nat × Nat × Flags := fun a n => let q := fop Val.div a (n, 0); (scaleOr1 q.1, 0, q.2)
  match learned with
  | some s => (s, if fmtIsUnsigned f then 2 ^ (fmtBits f - 1) else 0, 0)
  | none =>
    if f = Fmt.binary then over_ ((ws.map fAbs).foldl (fun acc x => fop Val.add acc (x, 0)) (0, 0)) (fOfInt ws.length)
    else if f = Fmt.e2m1 then over_ (amaxOf ws, 0) (fOfInt 6)
    else if f = Fmt.cb16 then over_ (amaxOf ws, 0) (amaxOf (book.map (toF32 Fmt.bf16)))
    else derivedInt f ws

/-- |a − b| of two finite values, as a numerator over a common denominator. -/
def distance (a b : Val) : Nat × Nat :=
  match a, b with
  | .fin na xa da, .fin nb xb db =>
    let l : Int := (if na then -(xa * db : Int) else xa * db)
    let r : Int := (if nb then -(xb * da : Int) else xb * da)
    ((l - r).natAbs, da * db)
  | _, _ => (2 ^ 2000, 1)

/-- The index of the codebook entry nearest a value and its distance; the lower index on a tie. No rule gives the index of a
value that is not finite: it gets index 0 (DESIGN CHOICE, log entry 97). -/
def nearestEntry (book : List Nat) (v : Val) : Nat × Nat × Nat :=
  (List.range 16).foldl (fun (best : Nat × Nat × Nat) k =>
    let e := floatVal Fmt.bf16 (book.getD k 0)
    let dk := distance v e
    if !fIsFinite (toF32 Fmt.bf16 (book.getD k 0)) then best
    else if dk.1 * best.2.2 < best.2.1 * dk.2 then (k, dk) else best) (0, 2 ^ 2000, 1)

/-- The code of one master (R201): E2M1 and CB16 take the exact quotient w / s (R66). -/
def weightCode (f : Nat) (mode : Rounding) (s z : Nat) (book : List Nat) (w : Nat) : Conv :=
  let q := Val.div (floatVal Fmt.fp32 w) (floatVal Fmt.fp32 s)
  if f = Fmt.bf16 then convF32 Fmt.bf16 mode w
  else if f = Fmt.e2m1 then
    let c := toFloat Fmt.e2m1 mode q.1
    { c with flags := c.flags ||| q.2 }
  else if f = Fmt.cb16 then
    let k := nearestEntry book q.1
    if !fIsFinite w then ⟨k.1, Flags.invalid, .nonFinite⟩
    else ⟨k.1, if k.2.1 = 0 then 0 else Flags.inexact,
      if bits (book.getD k.1 0) 0 15 ≠ 0 then .none else if fAbs w = 0 then .zero else .vanishing⟩
  else quantise f mode s z w

/-- A copy as it is written: the codes and scale words of each output channel, and its conversions. -/
structure Column where
  s     : Nat
  z     : Nat
  convs : List Conv
  /-- The flags of deriving its scale and zero point. -/
  flags : Flags := 0

/-- The take that names the version and the rounding of its codes: a fallback copy rounds to nearest (R125). A layer in fallback
uses no learned weight scale, also where it keeps its working copy. -/
def Device.copyColumn (d : Device) (e gr f : Nat) (fb : Bool) (take o : Nat) : Column :=
  let ws := d.column e o
  let book := (List.range 16).map (fun k => d.readNat (Le.codebook e) (2 * k) 2)
  let sz := if fb then derivedInt f ws
    else if f = Fmt.bf16 then (fOne, 0, 0)
    else narrowScale f (if Le.wLearned e && !d.layerFalls e then some (d.readNat (Le.scale e) (4 * o) 4) else none) book ws
  let key := d.genKey 0 (Le.wc e) Pur.wc
  let mode : Nat → Rounding := fun i => if fb then .rne else rounding (Ge.wcRounding gr) key take (o * Le.inCh e + i)
  ⟨sz.1, sz.2.1, (List.range ws.length).map (fun i => weightCode f (mode i) sz.1 sz.2.1 book (ws.getD i 0)), sz.2.2⟩

/-- The planes of a tile of codes (R60), its column sums and its trailer (R97). -/
def tileOf (f tag u j : Nat) (book : Codebook) (code : Nat → Nat → Nat) : Bytes :=
  let trailer := leBytes 32 (fld (tag % 64) 0 + fld f 8 + fld j 16 + fld u 32)
  if f = Fmt.bf16 then
    ((List.range 128).flatMap (fun o => (List.range 256).map (fun i => leBytes 2 (code i o)))).flatten ++ trailer
  else
    let plane : Nat → Bytes := fun p => (List.range 4096).map (fun b =>
      BitVec.ofNat 8 (((List.range 8).map (fun k => (bit (code ((b % 32) * 8 + k) (b / 32)) p).toNat * 2 ^ k)).sum))
    let sums := (List.range 128).map (fun o =>
      leBytes (sumBytes f) (ofSigned (8 * sumBytes f) (((List.range 256).map (fun i => wArr f book (code i o))).foldl (· + ·) 0)))
    ((List.range (planesOf f)).map plane).flatten ++ sums.flatten ++ trailer

/-- The code at a position of a tile: a master's, or an open one where the tile has an unused row or column (R98), but one that
the Q96 writes (R57, R58). -/
def tileCodeOf (e f : Nat) (cols : List Column) (u j i o : Nat) : Nat :=
  let r := 256 * j + i
  let c := 128 * u + o
  if r < Le.inCh e ∧ c < Le.outCh e then
    match cols[c]? with
    | some x => ((x.convs[r]?).map (·.code)).getD 0
    | none => 0
  else legalCode f (Config.padCode (c * 2 ^ 15 + r))

/-- Tiles, scale words and, where one is learned, the activation scale word of a copy (R202). -/
def Device.copyBytes (d : Device) (e f tag : Nat) (cols : List Column) : Bytes :=
  let book := if f = Fmt.cb16 then codebookOf ((List.range 16).map (fun k => d.readNat (Le.codebook e) (2 * k) 2)) else e2m1Book
  let tiles := (List.range (leOut e)).flatMap (fun u => (List.range (leIn e)).map (fun j =>
    tileOf f tag u j book (tileCodeOf e f cols u j)))
  let word : Nat → Nat → Nat → Bytes := fun s z fm => leBytes 8 (fld s 0 + fld z 32 + fld (tag % 64) 48 + fld fm 56)
  let words := if f = Fmt.bf16 then [] else cols.map (fun c => word c.s c.z f)
  let act := match d.layerStages 0 (Le.layer e) with
    | p :: _ => if Le.actLearned e then word (d.readNat (Le.scale e) (4 * Le.outCh e) 4) 0 (Desc.aFormat p.2.desc) else []
    | [] => []
  tiles.flatten ++ words.flatten ++ act

/-- The vein weights of a version (R122): each master at a listed position rounded to BF16. Columns at or above OUT_CHANNELS hold
+0 and the trailer's input-tile index is 0: the text says neither (DESIGN CHOICE, log entry 104). -/
def Device.veinBytes (d : Device) (e tag : Nat) : Bytes :=
  let veins := d.layerVeins e
  let p := veinPasses veins.length
  ((List.range (leOut e)).map (fun u =>
    ((List.range (32 * p)).flatMap (fun k => (List.range 128).map (fun c =>
      let o := 128 * u + c
      match veins[k]? with
      | some i => leBytes 2 (if o < Le.outCh e then (convF32 Fmt.bf16 .rne (d.master e i o)).code else 0)
      | none => leBytes 2 0))).flatten ++
      leBytes 32 (fld (tag % 64) 0 + fld Fmt.bf16 8 + fld u 32))).flatten

/-- The format a layer's copy is written in. -/
def Device.copyFormat (d : Device) (e : Nat) : Nat :=
  if d.layerFalls e ∧ fmtBits (Le.wFormat e) < 8 then Le.fallbackFormat e else Le.wFormat e

/-- The object a layer's copy is written to. -/
def Device.copyObject (d : Device) (e : Nat) : Nat :=
  if d.layerFalls e ∧ fmtBits (Le.wFormat e) < 8 then Le.fallback e else Le.wc e

/-- Codebook entries that the copy's column sums round, and nonzero ones that their alignment makes 0 (R95 step 4, R96). -/
def bookCounts (f : Nat) (book : List Nat) : Nat × Nat :=
  if f = Fmt.cb16 then ((codebookOf book).rounds, (codebookOf book).vanished book) else (0, 0)

/-- What the conversions of a copy count (R168, R169), held for the take that first reads it (R132); the codebook's vanished entries
are among them (R95). -/
def countSummary (f : Nat) (book : List Nat) (cols : List Column) : List Nat :=
  let value : Nat → Nat → Val := fun z code => if f = Fmt.cb16 then floatVal Fmt.bf16 (book.getD code 0) else codeVal f code z
  let cs := cols.flatMap (fun c => c.convs.map (fun v => (statBinOf f (value c.z v.code) v.outcome, v.outcome)))
  let n : ConvOutcome → Nat := fun o => (cs.filter (fun c => c.2 == o)).length
  let gone := (bookCounts f book).2
  [cs.length + gone, n .zero, n .saturation, n .nonFinite, n .vanishing + gone] ++
    (List.range 32).map (fun k => (cs.filter (fun c => c.1 == k)).length + (if k = 0 then gone else 0))

/-- A version of a layer's copies written over its objects: the copy and the vein weights, with a tag; `take` names it. -/
def Device.writeCopies (d : Device) (e take tag : Nat) : Device :=
  let gr := d.groupOf (Le.group e)
  let f := d.copyFormat e
  let fb := d.layerFalls e && fmtBits (Le.wFormat e) < 8
  let h := d.copyObject e
  let cols := (List.range (Le.outCh e)).map (fun o => d.copyColumn e gr f fb take o)
  let book := (List.range 16).map (fun k => d.readNat (Le.codebook e) (2 * k) 2)
  let veinFlags := if d.layerFalls e then 0 else orFlags ((d.layerVeins e).flatMap (fun i =>
    (List.range (Le.outCh e)).map (fun o => (convF32 Fmt.bf16 .rne (d.master e i o)).flags)))
  let rounds := (bookCounts f book).1
  let flags := veinFlags ||| orFlags (cols.map (·.flags)) ||| orFlags (cols.flatMap (fun c => c.convs.map (·.flags))) |||
    (if rounds = 0 then 0 else Flags.inexact)
  let d := (d.onRun (fun r => { r with wcCounts := tset r.wcCounts (Le.layer e) (h, f, flags, countSummary f book cols) })).addTo
    Obj.codebookRoundings rounds
  let veins := !d.layerFalls e && d.layerVeins e != []
  let vb := d.veinBytes e tag
  let d := d.lapBytes h 0 (d.copyBytes e f tag cols)
  d.onlyIf veins (fun d => d.lapBytes (Le.veinWeight e) 0 vb)

/-- The objects a version of a layer is read through. -/
def versionObjects (e : Nat) : List Nat := [Le.wc e, Le.veinWeight e, Le.fallback e]

/-- The objects its digest covers (R462). -/
def Device.digestObjects (d : Device) (e : Nat) : List Nat :=
  if d.layerFalls e then [d.copyObject e] else [Le.wc e] ++ (if d.layerVeins e != [] then [Le.veinWeight e] else [])

/-! ### Learned scales (R128 to R131, R194 steps 2 and 4) -/

/-- The gradient of a learned weight scale: its terms in ascending input, from the masters and scales before the update; with the
flags of its arithmetic. -/
def Device.scaleGradient (d : Device) (e gr take : Nat) (grad : Nat → Nat → Nat) (o : Nat) : FV :=
  let f := Le.wFormat e
  let col := d.copyColumn e gr f false take o
  ((List.range (Le.inCh e)).map (fun i =>
    let w := d.master e i o
    let g : FV := (grad i o, 0)
    match col.convs[i]? with
    | none => (0, 0)
    | some c =>
      let q := toFloat Fmt.fp32 .rne (if f = Fmt.cb16 then floatVal Fmt.bf16 (d.readNat (Le.codebook e) (2 * c.code) 2)
        else codeVal f c.code col.z)
      let qv : FV := (q.code, q.flags)
      if c.outcome = .saturation then fop Val.mul g qv
      else fop Val.mul g (fop Val.sub qv (fop Val.div (w, 0) (col.s, 0))))).foldl (fop Val.add) (0, 0)

/-- The gradient of a learned activation scale, as the take's reduction gave it (R131), with the gradient scale removed as a weight
gradient's is (R148). -/
def Device.actScaleGradient (d : Device) (e : Nat) (cg : Int) : FV :=
  f32bin Val.mul (tgetD d.run.actGrads (Le.layer e) 0) (fPow2 (-cg))

/-- A learned scale within [2^−126, the largest finite value] (R129). -/
def clampScale (x : Nat) : Nat × Bool :=
  if fNeg x || fAbs x < 0x0080_0000 then (0x0080_0000, x != 0x0080_0000)
  else if 0x7F7F_FFFF < x then (0x7F7F_FFFF, true) else (x, false)

/-- One learned scale goes through its group's recurrence and its limits. Its states stand after the scale masters. -/
def Device.updateScale (d : Device) (e gr : Nat) (cx : GroupCtx) (take ix g : Nat) : Device :=
  let n := Le.outCh e + 1
  let keys := d.stateKeys (Le.scale e)
  let (w, d) := d.recElement (Le.scale e) (4 * n) gr cx keys take n ix g (d.readNat (Le.scale e) (4 * ix) 4)
  let c := clampScale w
  (d.lapPut (Le.scale e) (4 * ix) 4 c.1).onlyIf c.2 (·.bump Obj.learnedScaleClamps)

/-! ### The course of a layer (R194) -/

/-- The layers whose update is due on a Lapidary, in their order. -/
def Device.dueOn (d : Device) (lap : Nat) : List (Nat × Nat × Nat) := d.run.updates.filter (fun u => u.1 == lap)

/-- Objects of a layer that live in the slow tier. -/
def slowObjects (e : Nat) : List Nat := [Le.master e, Le.state e, Le.scale e, Le.residual e]

/-- The worst-case growth of a layer (R258). -/
def Device.layerGrowth (d : Device) (e : Nat) : Nat :=
  ((slowObjects e).map (fun h => match d.entry h with
    | some o => if o.compressed then 128 * o.size + mapSectors o.size - o.sectors else 0
    | none => 0)).sum

/-- A layer's program has an operation on whole tensors, which uses the scratch object (R198). -/
def Device.usesScratch (d : Device) (e : Nat) : Bool :=
  let gr := d.groupOf (Le.group e)
  !Ge.frozen gr && Ge.mode gr == 1 && (progBody (tgetD d.run.programs (Le.group e) [])).any (fun w => wholeTensor (opCode w))

/-- The objects steps 1 to 6 of a layer's update read: its slow objects, its codebook, its reduction's DEST and the scratch object. -/
def Device.layerInputs (d : Device) (e : Nat) : List Nat :=
  slowObjects e ++ (if Le.wFormat e = Fmt.cb16 then [Le.codebook e] else []) ++
    (match d.collOf (Le.layer e) with
     | some c => [Ce.dest c.entry]
     | none => []) ++
    (if d.usesScratch e then [d.get (if Le.lapidary e = 0 then Obj.scratchA else Obj.scratchB)] else [])

/-- An object of the layer whose bytes the Lapidary may not use: poisoned or LOST. -/
def Device.layerMarked (d : Device) (e : Nat) : Option Nat :=
  (d.layerInputs e).find? (fun h => match d.entry h with
    | some o => o.poisoned || o.lost
    | none => false)

/-- A Lapidary meets poison in a layer's update: the layer stops (R265). Its POISONED fault counts once for as long as it waits
on the object (R263). -/
def Device.lapidaryStops (d : Device) (lap h : Nat) : Device :=
  if d.ms.waiters.contains (h, .lapidary lap) ∨ ((d.entry h).map (·.lost)).getD false then d else (d.waitOn h (.lapidary lap)).bump Obj.faultsPoisoned

/-- The layer whose newest version a handle belongs to. -/
def Device.copyLayer (d : Device) (h : Nat) : Option Nat :=
  (d.newestCopy h).bind (fun v => d.run.layers.find? (fun e => Le.layer e == v.1))

/-- The rebuild of a poisoned newest working copy is complete (R269): its bits are the ones it held (R201). It makes nothing of
poisoned masters: the Lapidary stops on them as in an update (R265, R272). -/
def Device.rebuilt (d : Device) (h : Nat) : Device :=
  match d.entry h with
  | none => d
  | some e =>
    match (if e.move = .rebuilding then (d.copyLayer h).bind (fun l => (d.layerMarked l).map (fun m => (Le.lapidary l, m))) else none) with
    | some (lap, m) => d.lapidaryStops lap m
    | none =>
    if e.move = .rebuilding then
      let v := (e.version + 1) % 2 ^ 32
      let d := d.modEntry h (fun e => { e with move := .settled, moveDone := 0, poisoned := false, lost := false, version := v })
      (d.raise 0x0908 [a4 h, a4 v]).wake h
    else d

/-- WORKING_COPY_REBUILD (R269). -/
def execWorkingCopyRebuild (handle : Nat) (s : State) := onDev s (fun d => d.rebuilt handle)

/-- A version of the layer's copies that is being rebuilt: the rebuild completes before step 3 (R269). -/
def Device.layerBlocked (d : Device) (e : Nat) : Bool :=
  (versionObjects e).any (fun h => match d.entry h with
    | some o => o.move == .rebuilding
    | none => false)

/-- The number of layers a Lapidary homes. -/
def Device.homed (d : Device) (lap : Nat) : Nat := (d.run.layers.filter (fun e => Le.lapidary e == lap)).length

/-- A LIVE_UPDATE of the Lapidaries pauses them between takes (R485). -/
def Device.lapidaryPaused (d : Device) (lap take : Nat) : Bool :=
  (match d.sec.liveUpdate with
   | some (c, _) => c == 1
   | none => false) && (d.dueOn lap).length == d.homed lap && (d.dueOn lap).all (fun u => u.2.2 == take)

/-- The layer table entry of an update that is due. -/
def Device.dueEntry (d : Device) (lap : Nat) : Option (Nat × Nat) :=
  match d.dueOn lap with
  | [] => none
  | (_, layer, take) :: _ => (d.run.layers.find? (fun e => Le.layer e == layer)).map (fun e => (e, take))

/-- Steps 1, 2 and 4 run for learned scales (R194). -/
def Device.scalesMove (d : Device) (e : Nat) : Bool := Le.learned e && !Ge.frozen (d.groupOf (Le.scaleGroup e))

/-- The learned scales of a layer as SCALE_OBJECT holds them. -/
def Device.scaleBytes (d : Device) (e : Nat) : Bytes := if Le.learned e then d.readBytes (Le.scale e) 0 (4 * (Le.outCh e + 1)) else []

/-- A layer's update makes a new version: its group is not FROZEN, or steps 1 to 5 have changed a learned scale, of which
`before` holds the bytes. -/
def Device.makesVersion (d before : Device) (e : Nat) : Bool :=
  !Ge.frozen (d.groupOf (Le.group e)) || d.scaleBytes e != before.scaleBytes e

/-- Both Lapidaries have completed the updates of a take: a still that is due begins (R325). -/
def Device.takeUpdated (d : Device) (take : Nat) : Device :=
  let d := d.onRun (fun r => { r with contexts := r.contexts.filter (fun c => c.take != take) })
  match d.still.due with
  | some (n, base) =>
    if n = take ∧ d.still.snap ≠ [] then
      (d.onStill (fun s => { s with due := none, snap := [] })).beginStill n base false (d.still.snap.take (d.still.snap.length - 320 * d.trackers))
        (d.still.snap.drop (d.still.snap.length - 320 * d.trackers))
    else d
  | none => d

/-- A Lapidary that is not lost. -/
def Device.lapidaryLives (d : Device) (lap : Nat) : Bool := !d.lostUnit lap

/-- The takes whose updates are still due on a lost Lapidary alone count as updated (R332). -/
def Device.settleUpdates (d : Device) : Device :=
  d.each (d.run.contexts.filter (fun c => !d.run.updates.any (fun u => u.2.2 == c.take && d.lapidaryLives u.1))) (fun d c => d.takeUpdated c.take)

/-- A layer is done, and its reservation returns (R258): the next begins, or the take's updates are complete on this Lapidary, and then perhaps on both (R194
step 8, R42 step 12, R332). -/
def Device.layerEnds (d : Device) (lap layer take : Nat) : Device :=
  let d := d.onRun (fun r => { r with
    updates := r.updates.filter (· != (lap, layer, take)), writing := r.writing.filter (· != layer),
    pinWait := r.pinWait.filter (· != (layer, take)) })
  let d := (d.onMs (fun m => { m with reserved := tdel m.reserved lap })).spaceFreed
  let d := d.bump (if lap = 0 then Obj.layerUpdatesA else Obj.layerUpdatesB)
  if (d.dueOn lap).any (fun u => u.2.2 == take) then d
  else
    let d := (d.put (if lap = 0 then Obj.lastCompleteTakeA else Obj.lastCompleteTakeB) take).raiseFrom (4 + lap) 0x0701
      [a8 take, a1 lap, a4 (d.homed lap)]
    if d.run.updates.any (fun u => u.2.2 == take && d.lapidaryLives u.1) then d else d.takeUpdated take

/-- The pending residual of a take is committed (R203 step 3). -/
def Device.commitResidual (d : Device) (e take : Nat) : Device :=
  match tget d.run.residuals (Le.layer e) with
  | some (t, r) =>
    if t ≠ take then d
    else
      let bf := Ge.residualBf16 (d.groupOf (Le.group e))
      let cs := r.map (convF32 Fmt.bf16 .rne)
      let bytes := if bf then (cs.map (fun c => leBytes 2 c.code)).flatten else (r.map (leBytes 4)).flatten
      let d := (d.forceSends (Le.residual e) 0 bytes.length).takeFlags 6 (if bf then orFlags (cs.map (·.flags)) else 0)
      (d.lapBytes (Le.residual e) 0 bytes).onRun (fun x => { x with residuals := tdel x.residuals (Le.layer e) })
  | none => d

/-- The parts of its objects that steps 3 and 4 of a layer's update write, from a byte to a byte (R325): every master and state in
recurrence mode, what the program stores in program mode, and the learned scales that are updated with their states. -/
def Device.writtenParts (d : Device) (e : Nat) (weights : Bool) : List (Nat × Nat × Nat) :=
  let gr := d.groupOf (Le.group e)
  let n := Le.inCh e * Le.outCh e
  let words := if Ge.mode gr = 1 then progBody (tgetD d.run.programs (Le.group e) []) else []
  let state : Nat → Nat × Nat × Nat := fun k => (Le.state e, stateAt gr n k, stateAt gr n (k + 1))
  let rule := if Ge.frozen gr then []
    else if Ge.mode gr = 1 then
      (if words.any (fun w => opCode w == 4) then [(Le.master e, 0, 4 * n)] else []) ++
        (words.filter (fun w => opCode w == 5)).map (fun w => state (opC w))
    else (Le.master e, 0, 4 * n) :: (List.range (Ge.states gr)).map state
  let sg := d.groupOf (Le.scaleGroup e)
  let m := Le.outCh e + 1
  let lo := if weights then 0 else Le.outCh e
  let hi := if Le.actLearned e then m else Le.outCh e
  let scales := if !d.scalesMove e then []
    else (Le.scale e, 4 * lo, 4 * hi) :: (List.range (Ge.states sg)).map (fun k =>
      let z := stateBytes (Ge.record sg k)
      (Le.scale e, 4 * m + stateAt sg m k + z * lo, 4 * m + stateAt sg m k + z * hi))
  (rule ++ scales).filter (fun p => p.2.1 < p.2.2 && !d.dataRo p.1)

/-- The objects steps 1 to 5 of a layer's update write. -/
def Device.layerWrites (d : Device) (e take : Nat) : List Nat :=
  (if Ge.frozen (d.groupOf (Le.group e)) then [] else [Le.master e, Le.state e]) ++ (if d.scalesMove e then [Le.scale e] else []) ++
    (if (tget d.run.residuals (Le.layer e)).map (·.1) = some take then [Le.residual e] else [])

/-- A slow object of a layer whose bytes its update changed: what it grows by comes from the layer's reservation (R257, R258). -/
def Device.regrown (d : Device) (e h : Nat) : Device :=
  match d.entry h with
  | none => d
  | some o =>
    if o.tier = 3 ∨ o.tier = 4 then
      let need := d.storedSectors h o
      let d := d.modEntry h (fun o => { o with sectors := need })
      let d := d.onMs (fun m => { m with reserved := tset m.reserved (Le.lapidary e) (d.layerGrowth e) })
      (d.setMap h (fun _ => false)).checkLowWater (o.tier - 3) need
    else d

/-- Steps 1 to 5 of R194 on one layer, each write of an object that is DATA_RO a PROTECTION fault: the reserved space, the sends a still forces, the rule, the learned scales, the
residual. -/
def Device.applyRule (d : Device) (e take : Nat) (ctx : UpdateCtx) : Device :=
  let before := d
  let gr := d.groupOf (Le.group e)
  let cx := ctx.groups.getD (Le.group e) {}
  let veins := d.layerVeins e
  let grad := d.reducedGrad e veins ctx.cg
  let vers := ((tgetD d.versions (Le.layer e) []).head?.map (·.take)).getD 0
  let wgs := if Le.wLearned e && !d.layerFalls e && d.scalesMove e then (List.range (Le.outCh e)).map (d.scaleGradient e gr vers grad) else []
  let wg := wgs.map (·.1)
  let d := (d.takeFlags 6 (d.gradFlags e veins ctx.cg ||| orFlags (wgs.map (·.2)))).each ((d.layerWrites e take).filter d.dataRo)
    (fun d h => d.protectionFault noStage h 0 true)
  let d := d.each (d.writtenParts e (!wgs.isEmpty)) (fun d p => d.forceSends p.1 p.2.1 p.2.2)
  let d := if Ge.frozen gr then d
    else
      let d := if Ge.mode gr = 1 then d.runProgram e gr (tgetD d.run.programs (Le.group e) []) cx take grad
        else d.recurrence e gr cx take grad
      d.addTo Obj.paramsUpdated (Le.inCh e * Le.outCh e)
  let d := if d.scalesMove e then
      let sg := d.groupOf (Le.scaleGroup e)
      let scx := ctx.groups.getD (Le.scaleGroup e) {}
      let d := d.each (List.range wg.length) (fun d o => d.updateScale e sg scx take o (wg.getD o 0))
      if Le.actLearned e then
        let g := d.actScaleGradient e ctx.cg
        (d.takeFlags 6 g.2).updateScale e sg scx take (Le.outCh e) g.1
      else d
    else d
  let d := d.commitResidual e take
  let d := d.each (slowObjects e) (fun d h => d.regrown e h)
  d.each ((slowObjects e).filter (fun h => d.stilled.contains h)) (fun d h => d.traceChanges before h take)

/-- Steps 1 to 5 of a layer, with the space its slow objects may still grow by reserved (R258). -/
def Device.layerSteps (d : Device) (lap e take : Nat) (ctx : UpdateCtx) : Device :=
  let before := d
  let d := d.onMs (fun m => { m with
    spaceHold := m.spaceHold.filter (· != lap), reserved := tset m.reserved lap (before.layerGrowth e) })
  let d := d.checkLowWater lap (before.layerGrowth e)
  let d := d.applyRule e take ctx
  let d := d.onMs (fun m => { m with reserved := tset m.reserved lap (d.layerGrowth e) })
  if d.makesVersion before e then d.onRun (fun r => { r with writing := r.writing ++ [Le.layer e] })
  else d.layerEnds lap (Le.layer e) take

/-- A Lapidary works on its next layer (R194 steps 1 to 5): it waits where space must be freed first (R258), where an object
is poisoned or being rebuilt (R265, R269), where its component is being loaded (R485) and while its rail is faulted (R415). -/
def Device.updateLayer (d : Device) (lap : Nat) : Device :=
  match d.dueEntry lap with
  | none => d
  | some (e, take) =>
    if d.run.writing.contains (Le.layer e) ∨ !d.lapidaryLives lap ∨ d.layerBlocked e ∨ d.lapidaryPaused lap take ∨ d.lapidaryOff lap ∨ d.pwr.hold then d
    else match d.layerMarked e with
      | some h => d.lapidaryStops lap h
      | none => match d.run.contexts.find? (fun c => c.take == take) with
        | none => d
        | some ctx =>
          let need := d.layerGrowth e
          if need ≤ d.slowFree lap then d.layerSteps lap e take ctx
          else if d.ms.spaceHold.contains lap then d
          else ((d.onMs (fun m => { m with spaceHold := lap :: m.spaceHold })).raise 0x0906
            [a1 lap, a4 (d.slowFree lap), a4 need]).bump Obj.spaceWaits

/-- LAYER_UPDATE (R194): what the Lapidary's checked reads find comes first (R253, R256). -/
def execLayerUpdate (x : CheckedRead) (s : State) := onDev s (fun d => (d.findings x.found).updateLayer x.subject)

/-! ### Publication (R194 steps 6 and 7, R231) -/

/-- The handle an older version of a layer is kept at. -/
def shadow (take layer k : Nat) : Nat := 2 ^ 60 + take * 2 ^ 34 + layer * 4 + k

/-- The bytes of a held version move to places of their own, and its space is taken (R229, R231); the pins of its hold leave the
objects it no longer stands in. -/
def Device.keepVersion (d : Device) (layer : Nat) (v : Version) : Option Device :=
  let live := (List.range v.objs.length).filter (fun k => d.names (v.objs.getD k noObject))
  let step : Option (Device × List (Nat × Nat)) → Nat → Option (Device × List (Nat × Nat)) := fun acc k =>
    match acc with
    | none => none
    | some (d, xs) =>
      let size := d.sizeOf (v.objs.getD k noObject)
      match { d with versions := tmod d.versions layer (fun l => l.map (fun (o : Version) =>
          if o.take = v.take then { o with extents := xs } else o)) }.place size (d.dieOrder none none) with
      | some (loc, d) => some (d, xs ++ [(loc, size)])
      | none => none
  match live.foldl step (some (d, [])) with
  | none => none
  | some (d, xs) =>
    let d := d.each live (fun d k =>
      let h := v.objs.getD k noObject
      d.writeBytes (shadow v.take layer k) 0 (d.readBytes h 0 (d.sizeOf h * blockBytes)))
    let objs := (List.range v.objs.length).map (fun k => if live.contains k then shadow v.take layer k else v.objs.getD k noObject)
    let d := d.each (if v.pinned then d.versionHandles v else []) Device.dropPin
    some { d with versions := tmod d.versions layer (fun l => l.map (fun (o : Version) =>
      if o.take = v.take then { o with extents := xs, objs := objs, pinned := false } else o)) }

/-- The Lapidary waits at step 6: PINNED_VERSION once per layer per take, naming up to four of the pinning streams; each
turn it waits counts (R231). -/
def Device.pinnedWait (d : Device) (layer take : Nat) : Device :=
  if d.run.pinWait.contains (layer, take) then d
  else
    let s := d.pinningStreams layer
    ((d.onRun (fun r => { r with pinWait := r.pinWait ++ [(layer, take)] })).raise 0x0801
      ([a4 layer, a8 take] ++ (s.take 4).map a2)).bump Obj.pinnedVersionWaits

/-- The versions of a layer make way for a new one (R231): not where four are held, the current one among them; else every
version still read through the objects to be written is kept in places of its own, where there is room beside them. -/
def Device.makeWay (d : Device) (e : Nat) : Option Device :=
  let layer := Le.layer e
  let used : Version → Bool := fun o => d.versionUsed layer o.take
  match tgetD d.versions layer [] with
  | [] => some d
  | v :: rest =>
    if 3 ≤ (rest.filter used).length then none
    else
      let stay := (v :: rest).filter used
      (stay.filter (fun o => o.objs.any (fun h => h != noObject && (versionObjects e).contains h))).foldl
        (fun acc o => acc.bind (fun d => d.keepVersion layer o)) (some { d with versions := tset d.versions layer stay })

/-- The objects that hold a layer's newest copy, once written. -/
def Device.writtenCopies (d : Device) (e : Nat) : List Nat :=
  d.copyObject e :: (if !d.layerFalls e && d.layerVeins e != [] then [Le.veinWeight e] else [])

/-- Steps 6 and 7 of R194: the copies are written whole, VERSION_COUNT advances, and the version is the one the gate releases. A
poisoned copy that has been written holds good data again, and who waited on it goes on. -/
def Device.newVersion (d : Device) (e take : Nat) : Device :=
  let layer := Le.layer e
  let count := (Le.versionCount e + 1) % 2 ^ 32
  let e' := putBits e 448 32 count
  let d := d.onRun (fun r => { r with layers := r.layers.map (fun x => if Le.layer x = layer then e' else x) })
  let d := (d.each ((d.writtenCopies e').filter d.dataRo) (fun d h => d.protectionFault noStage h 0 true)).writeCopies e' take count
  let v : Version := { take := take, objs := versionObjects e', digest := d.versionDigest (d.digestObjects e') }
  let d := { d with versions := tset d.versions layer (v :: tgetD d.versions layer []) }
  d.each ((d.writtenCopies e').filter d.names) (fun d h => ((d.modEntry h (fun x => { x with poisoned := false, lost := false })).bumpVersion h).wake h)

/-- A new version is written whole and published (R194 steps 6 and 7, R201, R202). -/
def Device.publishCopy (d : Device) (lap : Nat) : Device :=
  match d.dueEntry lap with
  | none => d
  | some (e, take) =>
    let layer := Le.layer e
    if !d.run.writing.contains layer ∨ !d.lapidaryLives lap ∨ d.lapidaryOff lap ∨ d.pwr.hold then d
    else match d.layerMarked e with
      | some h => d.lapidaryStops lap h
      | none => match d.makeWay e with
        | none => d.pinnedWait layer take
        | some d => (((d.newVersion e take).layerEnds lap layer take).releaseVersions layer).serveWanting d.ms.wanting

/-- WORKING_COPY_PUBLISH (R201). -/
def execWorkingCopyPublish (lapidary : Nat) (s : State) := onDev s (fun d => d.publishCopy lapidary)

/-! ### The arming version (R201) -/

/-- The way of a layer's arming version of take P. A held version of the same take with the same bits is that version, and gives it
its name; one with other bits, which only an earlier run's can have, holds the arming up as any hold does (R230, R231). -/
def Device.armingWay (d : Device) (p e : Nat) : Option Device :=
  let layer := Le.layer e
  let made := d.writeCopies e p (Le.versionCount e)
  let digest := made.versionDigest (made.digestObjects e)
  let l := tgetD d.versions layer []
  let same := l.filter (fun v => v.take == p)
  if same.any (fun v => d.versionUsed layer p && v.digest != digest) then none
  else ({ d with versions := tset d.versions layer (l.filter (fun v => v.take != p)) }.each same Device.freeVersion).makeWay e

/-- A layer whose older versions leave no way for its arming version (R231). -/
def Device.armingHeld (d : Device) (p : Nat) : Option Nat :=
  (d.run.layers.find? (fun e => (d.armingWay p e).isNone)).map Le.layer

/-- The arming version of every working copy (R201): it carries take P and each layer's VERSION_COUNT as it stands. Versions that
are still held make way first (R230, R231). -/
def Device.armingVersions (d : Device) (p : Nat) : Device :=
  d.each d.run.layers (fun d e =>
    let d := ((d.armingWay p e).getD d).writeCopies e p (Le.versionCount e)
    let v : Version := { take := p, objs := versionObjects e, digest := d.versionDigest (d.digestObjects e) }
    { d with versions := tset d.versions (Le.layer e) (v :: tgetD d.versions (Le.layer e) []) })

end Sys2Proof.Machine
end

