-- ==== Sys2Proof/Machine/Log.lean ====
section
/-!
DEFINITION. The continuity log (R307 to R313): the digests of the recipe and the dictionary, the bytes of a record, its
writing into the ring, and the records a replay reads (R314).
-/
namespace Sys2Proof.Machine

/-! ### The recipe and the dictionary (R311, R312) -/

/-- A number with some of its fields written as 0. -/
def blank (x : Nat) (fs : List (Nat × Nat)) : Nat := fs.foldl (fun x f => putBits x f.1 f.2 0) x

/-- The recipe part of a stage: its descriptor, its vein list and its parameters. -/
def Device.stageRecipe (d : Device) (h : Nat) : Bytes :=
  let x := d.descriptor h
  recipeBytes x ++
    (if Desc.veinCount x = 0 then [] else d.readBytes (Desc.veinList x) 0 (2 * min (Desc.veinCount x) 128)) ++
    (if d.names (Desc.paramObject x) then d.readBytes (Desc.paramObject x) 0 (d.sizeOf (Desc.paramObject x) * blockBytes) else [])

/-- The recipe part of a layer entry. -/
def Device.layerRecipe (d : Device) (e : Nat) : Bytes :=
  leBytes 64 (blank e [(48, 1), (448, 32)]) ++ (if Le.wFormat e = Fmt.cb16 then d.readBytes (Le.codebook e) 0 32 else [])

/-- A header and its items: a curve's points, or a program's words. -/
def Device.tableBytes (d : Device) (h countBytes : Nat) : Bytes :=
  if d.names h then d.readBytes h 0 (16 + 8 * d.readNat h 4 countBytes) else []

/-- The recipe part of a group entry. -/
def Device.groupRecipe (d : Device) (g : Nat) : Bytes :=
  leBytes 256 (blank g ((256, 32) :: (List.range 4).map (fun k => (512 + 192 * k + 160, 32)))) ++
    d.tableBytes (Ge.curve g) 2 ++ d.tableBytes (Ge.program g) 1

/-- The recipe part of a tracker. -/
def Device.trackerRecipe (d : Device) (i : Nat) : Bytes :=
  leBytes 64 (blank (d.readNat (d.get Obj.trackerTableObject) (trackerAt i) 64)
    [(64, 8), (72, 7), (80, 6), (96, 32), (128, 32), (160, 32), (192, 32)])

/-- The recipe part of a collective: its entry and its rank list. -/
def Device.collRecipe (d : Device) (c : Coll) : Bytes :=
  leBytes 64 c.entry ++ d.readBytes (Ce.rankList c.entry) 0 (2 * Ce.members c.entry)

/-- RECIPE_DIGEST of the armed tables (R311). -/
def Device.recipeDigest (d : Device) : Bytes :=
  sha512 ((d.run.listed.map d.stageRecipe).flatten ++ (d.run.layers.map d.layerRecipe).flatten ++
    (d.run.groups.map d.groupRecipe).flatten ++ ((List.range d.trackers).map d.trackerRecipe).flatten ++
    (d.net.colls.map (fun p => d.collRecipe p.2)).flatten)

/-- The keys of the objects of class TAKE or ARMED, ascending, with the lengths of their values. -/
def recipeKeys : List (Nat × Nat) :=
  (rows.filter (fun r => r.cls == .take || r.cls == .armed)).flatMap (fun r =>
    (rangeFrom r.lo (r.hi + 1 - r.lo)).map (fun s => (r.index * 256 + s, r.len)))

/-- DICT_DIGEST (R312). -/
def Device.dictDigest (d : Device) : Bytes :=
  sha512 ((recipeKeys.map (fun k =>
    leBytes 2 (k.1 / 256) ++ leBytes 1 (k.1 % 256) ++ leBytes 4 k.2 ++ leBytes k.2 (d.get k.1))).flatten)

/-! ### Records (R308, R309) -/

/-- A length raised to a multiple of 8. -/
def pad8 (n : Nat) : Nat := 8 * ceilDiv n 8

/-- RECORD_BYTES of a record. -/
def recordBytes (samples trackers : Nat) (signed : Bool) : Nat := 384 + 80 * samples + pad8 trackers + (if signed then 64 else 0)

/-- The sample entries of a record. -/
def sampleBytes (xs : List (Nat × Nat × Bytes)) : Bytes :=
  (xs.map (fun x => leBytes 8 x.1 ++ leBytes 8 x.2.1 ++ slice x.2.2 0 64)).flatten

/-- The bytes of a record before its signature, written now. -/
def Device.recordBody (d : Device) (r : LogRecord) : Bytes :=
  let s := sampleBytes r.samples
  let n := recordBytes r.samples.length r.trackers.length r.signed
  leBytes 64 (fld 0x474F4C51 0 + fld r.kind 32 + fld 1 40 + fld r.outcome 48 + fld (ofSigned 8 r.cg) 56 +
    fld (d.get Obj.logSequence) 64 + fld r.take 128 + fld r.verdict 192 + fld r.samples.length 256 +
    fld r.trackers.length 288 + fld n 320 + fld r.retake.toNat 352 + fld r.signed.toNat 353 + fld d.mono 384 +
    fld r.fromTake 448) ++
  leBytes 64 (d.get Obj.logHead) ++ leBytes 64 (d.get Obj.recipeDigest) ++ slice r.dict 0 64 ++ sha512 s ++ slice r.state 0 64 ++
  s ++ slice (r.trackers.map (BitVec.ofNat 8)) 0 (pad8 r.trackers.length)

/-- CURRENT_EXP of every tracker, as the body of a record holds it. -/
def Device.trackerExps (d : Device) : List Nat :=
  (List.range d.trackers).map (fun i => d.readNat (d.get Obj.trackerTableObject) (trackerAt i + 8) 1)

/-- The sample entries of the open take, by ascending index. -/
def Take.sampleEntries (t : Take) : List (Nat × Nat × Bytes) :=
  t.entries.map (fun e => (Machine.bits e.2 0 64, e.1, sha512 ((t.digests.filter (fun x => x.1 / 2 ^ 33 == e.1)).map (·.2)).flatten))

/-- A record that is due. -/
def Device.record (d : Device) (r : LogRecord) : Device := { d with log := { d.log with waiting := d.log.waiting ++ [r] } }

/-! ### The ring of the log (R307) -/

/-- Where a record of `n` bytes goes: the zero fill before it and its first byte; none while it does not fit. -/
def logPlace (size w consumed n : Nat) : Option (Nat × Nat) :=
  let unread := (w + size - consumed) % size
  let fill := if w + n ≤ size then 0 else size - w
  if unread + fill + n + 8 ≤ size then some (fill, if fill = 0 then w else 0) else none

/-- Records of some lengths fit one after another. -/
def logFits (size consumed : Nat) : Nat → List Nat → Bool
  | _, [] => true
  | w, n :: rest => match logPlace size w consumed n with
    | none => false
    | some p => logFits size consumed ((p.2 + n) % size) rest

/-- A record that waits does not fit, so that the admission of the next take waits with it (R307). -/
def Device.logBlocks (d : Device) : Bool :=
  !logFits (d.sizeOf (d.get Obj.logObject) * blockBytes) (d.get Obj.logConsumed) (d.get Obj.logWriteOffset)
    (d.log.waiting.map (fun r => recordBytes r.samples.length r.trackers.length r.signed))

/-- What the print of a take leaves for the manifest of its still: the next take may be admitted before the record. -/
def Device.snapPrint (d : Device) (take : Nat) : Device :=
  match d.still.due with
  | some (n, _) => if n = take then d.onStill (fun s => { s with printed := d.manifestHead n ++ d.manifestTrackers }) else d
  | none => d

/-- The part of the manifest that the record of a take whose still is due fixes; a still whose updates are already complete
begins. -/
def Device.snapStill (d : Device) (take : Nat) : Device :=
  match d.still.due with
  | some (n, _) =>
    if n = take then
      let b := if d.still.printed = [] then d.manifestHead n ++ d.manifestTrackers else d.still.printed
      let snap := b.take 8 ++ leBytes 8 (d.get Obj.logSequence) ++ leBytes 64 (d.get Obj.logHead) ++ b.drop 80
      let d := d.onStill (fun s => { s with snap := snap, printed := [] })
      if d.run.updates.any (fun u => u.2.2 == take && d.lapidaryLives u.1) then d else d.takeUpdated take
    else d
  | none => d

/-- A record is in the log: it is the head of the chain, and LOG_WRITTEN tells the hosts (R391, R399). -/
def Device.chained (d : Device) (r : LogRecord) (body sig : Bytes) (place : Nat × Nat) : Device :=
  let h := d.get Obj.logObject
  let size := d.sizeOf h * blockBytes
  let all := body ++ sig
  let d := if place.1 = 0 then d else d.writeBytes h (d.get Obj.logWriteOffset) (List.replicate place.1 0)
  let d := ((d.writeBytes h place.2 all).put Obj.logWriteOffset ((place.2 + all.length) % size)).put Obj.logHead (leNat (sha512 body))
  let d := { d.bump Obj.logSequence with log := { d.log with waiting := d.log.waiting.drop 1, full := false } }
  let d := d.raise 0x0D05 [a4 (d.get Obj.logWriteOffset), a1 r.kind, a8 r.take]
  let d := d.onlyIf (r.kind == 3) (·.put Obj.replayState 2)
  if (r.kind = 1 ∧ r.outcome = 1) ∨ r.kind = 0 then d.snapStill r.take else d

/-- The oldest record that waits is written once it fits (R307); one that needs a signature which the engine no longer gives
is never written (R455). -/
def Device.writeRecord (d : Device) : Device :=
  match d.log.waiting with
  | [] => d
  | r :: _ =>
    let h := d.get Obj.logObject
    let size := d.sizeOf h * blockBytes
    if !d.ready h ∨ (r.signed ∧ d.sec.signFailed) then d
    else match logPlace size (d.get Obj.logWriteOffset) (d.get Obj.logConsumed) (recordBytes r.samples.length r.trackers.length r.signed) with
      | none =>
        if d.log.full then d
        else ({ d.bump Obj.logFullWaits with log := { d.log with full := true } }).raise 0x0B01
          [a4 (d.get Obj.logWriteOffset), a4 (d.get Obj.logConsumed)]
      | some place =>
        let body := d.recordBody r
        if r.signed then
          match d.sign 0 (sha512 body) with
          | (some sig, d) => d.chained r body (slice sig 0 64) place
          | (none, d) => d
        else d.chained r body [] place

/-- LOG_RECORD_WRITE (R307, R310). -/
def execLogRecordWrite (s : State) := onDev s Device.writeRecord

/-- A value of LOG_CONSUMED that R339 accepts: a multiple of 8 within the unread part, its ends included. -/
def consumedOk (size w c v : Nat) : Bool :=
  v % 8 == 0 && (v == w || (v < size && (v + size - c) % size ≤ (w + size - c) % size))

/-- LOG_CONSUMED (R307, R339). -/
def logConsumedEffect : Effect := fun d _ v =>
  let size := d.sizeOf (d.get Obj.logObject) * blockBytes
  if consumedOk size (d.get Obj.logWriteOffset) (d.get Obj.logConsumed) v then (St.ok, d.put Obj.logConsumed v) else (St.range, d)

/-- A write of LOG_CONSUMED (R339). -/
def execLogConsumed (rq : Req) (value : Nat) (s : State) :=
  onReq s rq (fun d => d.command rq Obj.logConsumed value logConsumedEffect)

/-! ### The records of a replay (R314) -/

/-- A TAKE record at a byte of an object, with its length; none where it is not one of take `take`, of the chain's head
`prev` and of recipe `recipe`. A head of `none` is accepted as it stands (R317). -/
def Device.replayRecord (d : Device) (h off take : Nat) (prev : Option Bytes) (recipe : Bytes) : Option (ReplayRecord × Nat) :=
  let size := d.sizeOf h * blockBytes
  let x := d.readNat h off 64
  let n := bits x 256 32
  let tr := bits x 288 32
  let signed := bit x 353
  let len := recordBytes n tr signed
  let head := d.readBytes h (off + 64) 64
  if size < off + 384 ∨ bits x 0 32 ≠ 0x474F4C51 ∨ bits x 32 8 ≠ 1 ∨ bits x 40 8 ≠ 1 ∨ bits x 48 8 = 0 ∨ 2 < bits x 48 8 ∨
      bits x 128 64 ≠ take ∨ bits x 320 32 ≠ len ∨ size < off + len ∨ 65536 < n ∨
      (prev.any (fun p => slice p 0 64 != head)) = true ∨ d.readBytes h (off + 128) 64 ≠ slice recipe 0 64 then none
  else
    some ({
      outcome := bits x 48 8, cg := toSigned 8 (bits x 56 8), take := take, verdict := bits x 192 64, retake := bit x 352,
      samples := (List.range n).map (fun i =>
        let o := off + 384 + 80 * i
        (d.readNat h o 8, d.readNat h (o + 8) 2, d.readBytes h (o + 16) 64)),
      trackers := (List.range tr).map (fun i => d.readNat h (off + 384 + 80 * n + i) 1),
      dict := d.readBytes h (off + 192) 64,
      digest := sha512 (d.readBytes h off (len - (if signed then 64 else 0))) }, len)

/-- The records of `n` takes from `take`, back to back from a byte of the object. -/
def Device.replayRecords (d : Device) (h : Nat) (recipe : Bytes) : Nat → Nat → Nat → Option Bytes → Option (List ReplayRecord)
  | 0, _, _, _ => some []
  | n + 1, off, take, prev =>
    match d.replayRecord h off take prev recipe with
    | none => none
    | some (r, len) => (d.replayRecords h recipe n (off + len) (take + 1) (some r.digest)).map (r :: ·)

end Sys2Proof.Machine
end

