-- ==== Sys2Proof/Machine/Verdict.lean ====
section
/-!
DEFINITION. The course of a take (R42): its admission (R40, R152, R171), the latch of the local health word (R132, R172,
R177, R178), the verdict on its way up and down (R180, R183, R299), and what a print and a discard change (R149, R153,
R181, R182), in a run and in a replay (R315).
-/
namespace Sys2Proof.Machine

/-! ### The statistics slot (R171) -/

/-- A field of the slot's header of a take. -/
def Device.slotPut (d : Device) (take byte n v : Nat) : Device :=
  d.writeNat (d.get Obj.statsObject) (d.slotBase take + byte) n v

/-- The slot of a take is cleared, and its header and records begun. A slot that was used before is reused; the ring's poison ends
with it (R269; log entry 70). -/
def Device.slotClear (d : Device) (take : Nat) (cg : Int) : Device :=
  let h := d.get Obj.statsObject
  let b := d.slotBase take
  let used := d.readNat h b 4 = 0x41545351
  let d := d.onlyIf used (·.bump Obj.statsOverwrites)
  let head := fld 0x41545351 0 + fld take 64 + fld d.run.stats.length 288 + fld (ofSigned 16 cg) 416
  let recs := (d.run.stats.map (fun r => leBytes 192 (fld r.1 0 + fld r.2 32))).flatten
  (d.writeBytes h b (leBytes 64 head ++ recs)).modEntry h (fun e => { e with poisoned := false, lost := false })

/-! ### Admission (R40, R42 step 1) -/

/-- A REGENERATED object is reinitialised, and its poison clears (R269). -/
def Device.reinitialise (d : Device) (h : Nat) : Device := d.modEntry h (fun e => { e with poisoned := false, lost := false })

/-- floor(log2(448 / h)) for a positive FP32 value. -/
def expFor448 (h : Nat) : Int :=
  match floatVal Fmt.fp32 h with
  | .fin _ n d => log2Floor (448 * d) n
  | _ => 0

/-- CURRENT_EXP of a tracker at an admission, before its limit (R152). -/
def Device.trackerWant (d : Device) (i : Nat) : Int :=
  let h := d.get Obj.trackerTableObject
  let b := trackerAt i
  let len := d.readNat h (b + 5) 1 % 128
  let valid := d.readNat h (b + 9) 1 % 128
  let next := d.readNat h (b + 10) 1 % 64
  let init := toSigned 8 (d.readNat h (b + 7) 1)
  let top := (List.range valid).foldl (fun m k =>
    max m (d.readNat h (b + 64 + 4 * ((next + len - 1 - k) % max 1 len)) 4)) 0
  if valid = 0 ∨ top = 0 then init else expFor448 top - (d.readNat h (b + 6) 1 % 16 : Nat)

/-- A tracker at an admission: its exponent within −64 to 63, its counts of the take at 0. -/
def Device.trackerStart (d : Device) (take i : Nat) : Device :=
  let h := d.get Obj.trackerTableObject
  let b := trackerAt i
  let c := d.trackerWant i
  let lim := max (-64) (min 63 c)
  let d := if lim = c then d
    else
      let d := d.writeNat h (b + 24) 4 ((d.readNat h (b + 24) 4 + 1) % 2 ^ 32)
      (d.raise 0x0504 [a4 i, a4 (d.readNat h b 4), a4 (ofSigned 32 c), a8 take]).onRun (fun r => { r with
        nextBits := r.nextBits ||| 2 ^ Hb.trackerClamp })
  (d.writeNat h (b + 8) 1 (ofSigned 8 lim)).writeBytes h (b + 12) (List.replicate 12 0)

/-- Every element of an accumulator counts as +0 from the admission (R157). -/
def Device.clearAccumulators (d : Device) : Device :=
  let accs := (d.stages.filter (fun p => !Desc.serving p.2.desc && Desc.wgrad p.2.desc)).map (fun p => Desc.wgradAcc p.2.desc)
  let bufs := (d.net.colls.filter (fun p => !Ce.host p.2.entry)).flatMap (fun p => [Ce.source p.2.entry, Ce.dest p.2.entry])
  (d.each accs Device.clearObject).each (accs ++ bufs.filter (fun h => ((d.entry h).map (·.kind)).getD 0 == 7)) Device.reinitialise

/-- A training stage at an admission: its first sample, and nothing raised yet; a stage that failed takes part again. -/
def Stage.admitted (s : Stage) : Stage :=
  if Desc.serving s.desc then s
  else { s with nextIx := Desc.replica s.desc, bwdIx := Desc.replica s.desc, stashLost := [], missed := [], outlierSeen := false, clipSeen := false, stashLate := false, actGrad := 0,
                state := if s.state = .failed then .ready else s.state }

/-- A reduction at an admission: it waits for its layer. -/
def Coll.admitted (c : Coll) (take : Nat) : Coll :=
  if Ce.host c.entry then c
  else { c with tag := take, complete := false, running := false, own := [], got := [], sentUp := [], done := [], results := [],
                nonFinite := 0 }

/-- cg and the staged values take effect (R40, R149, R346): a host's write comes before the verdict's cg. -/
def Device.applyTakeValues (d : Device) : Device :=
  let d := match d.run.nextCg with
    | some v => (d.put Obj.gradScaleExp v).onRun (fun r => { r with nextCg := none })
    | none => d
  if d.get Obj.stageHold = 1 then d
  else
    let d := if (tget d.ctl.staged Obj.gradScaleExp).isSome then d.put Obj.gradScaleCleanRun 0 else d
    d.applyStaged

/-- The entries of an input ring that belong to the open take: up to END_OF_TAKE, or the first 65,536 (R388); none while the
last is not there. -/
def Device.takeEntries (d : Device) (ring : Nat) : Option Nat :=
  let c := d.ringConsumer ring
  let n := min 65536 (d.ringProducer ring - c)
  match (List.range n).find? (fun i => bit (d.ringEntry ring (c + i)) 127) with
  | some i => some (i + 1)
  | none => if n = 65536 then some n else none

/-- The input rings of the run. -/
def Device.inputRings (d : Device) : List Nat := (d.firstRings.map (·.2)).eraseDups

/-- CONSUMER of every input ring passes the take's entries (R388). A take whose last entry is not there yet is passed once
it is. -/
def Device.passEntries (d : Device) : Device :=
  let ns := d.inputRings.map (fun r => (r, d.takeEntries r))
  if ns.any (fun x => x.2.isNone) then d.onRun (fun r => { r with skipDue := true })
  else
    let t := d.get Obj.conductorToken
    (d.each ns (fun d x =>
      ((d.writeNat x.1 24 8 (d.ringConsumer x.1 + x.2.getD 0)).restored x.1).ringSignal x.1 (if t ≤ 1 then some t else none))).onRun
      (fun r => { r with skipDue := false })

/-- What stops an admission: the run does not run, a take is open, a record does not fit (R307), the clocks are held, a drain or a
substitution is under way (R331, R480), a replay has diverged (R315), the signing engine has failed (R455), or a skipped
take's entries are not all there. -/
def Device.admissionBlocked (d : Device) : Bool :=
  d.runState != 3 || d.run.take.isSome || d.logBlocks || d.pwr.hold || !d.svc.substs.isEmpty ||
    (match d.svc.job with
     | some j => j.command == 1
     | none => false) || d.get Obj.replayState == 3 || d.sec.signFailed || d.run.skipDue

/-- The health bits a take starts with (R127, R301, R332). -/
def Device.startBits (d : Device) : Nat :=
  d.run.nextBits ||| (if d.get Obj.fallbackDenied = 0 then 0 else 2 ^ Hb.fallbackIncomplete) |||
    (if d.net.lost = [] then 0 else 2 ^ Hb.linkLoss) ||| (if d.run.partLost then 2 ^ Hb.detectedFault else 0)

/-- The risk source of the dailies counts the last 64 takes, those cut early among them (R329). -/
def Device.alarmWindow (d : Device) (take : Nat) (alarm : Bool) : Device :=
  let recent := (if alarm then [take] else []) ++ d.risk.alarms.filter (fun n => take < n + 64 && !(alarm && n == take))
  (d.onRisk (fun r => { r with alarms := recent })).riskSource Src.dailies (if recent = [] then 0 else 1)

/-- A take is admitted. -/
def Device.openTake (d : Device) (n : Nat) : Device :=
  let d := (d.applyTakeValues.put Obj.takeNumber n).alarmWindow n false
  let d := d.each (List.range d.trackers) (fun d i => d.trackerStart n i)
  let cg := toSigned 32 (d.get Obj.gradScaleExp)
  let d := (d.slotClear n cg).clearAccumulators
  let bits0 := d.startBits
  let dict := d.dictDigest
  let take : Take := { number := n, bits := bits0, cg := cg, flags := d.run.nextFlags }
  let units := (d.stages.filter (fun p => !Desc.serving p.2.desc)).map (·.2.unit)
  let d : Device := { d with
    stages := d.stages.map (fun p => (p.1, p.2.admitted)), engineFlags := d.engineFlags.filter (fun p => !units.contains p.1) }
  let d := d.onNet (fun (x : LinkSys) => { x with accepted := [], colls := x.colls.map (fun (p : Nat × Coll) => (p.1, p.2.admitted n)) })
  let again := d.run.rerun
  let d := d.onRun (fun r => { r with
    take := some take, nextBits := 0, nextFlags := 0, dictDigest := dict, retake := again, rerun := false, reports := [],
    upSent := false, formed := none, marked := false, rootCut := false, trackersSeen := [] })
  d.showHealth

/-- A take that starts with a discard bit is cut at its admission where EARLY_CUT is 1 (R183), and, whatever that holds, where
a part is lost (R332). -/
def Device.cutAtAdmission (d : Device) : Device :=
  match d.run.take with
  | some t => if d.run.partLost || (bits t.bits 0 16 != 0 && d.get Obj.earlyCut == 1) then d.cutTake else d
  | none => d

/-! ### Leaving a take -/

/-- A stage without the take's work. -/
def Stage.leaveTake (s : Stage) : Stage :=
  if Desc.serving s.desc then s
  else { s.dropTraining with op := none, state := if s.state = .parked then .ready else s.state }

/-- A reduction that is abandoned with its take. -/
def Coll.leaveTake (c : Coll) : Coll :=
  if Ce.host c.entry then c else { c with running := false, complete := true, own := [], got := [], results := [] }

/-- A message of a reduction of a take. -/
def Sent.ofTake (m : Sent) (n : Nat) : Bool :=
  (leAt m.msg 0 1 == Kind.contribution || leAt m.msg 0 1 == Kind.result) && leAt m.msg 8 8 == n

/-- A waiter that is not a training stage. -/
def Device.otherWaiter (d : Device) : Waiter → Bool
  | .stage h => ((tget d.stages h).map (fun s => Desc.serving s.desc)).getD true
  | _ => true

/-- The training work of the take is dropped, with its deferred items and its collectives (R181, R183). -/
def Device.dropTakeWork (d : Device) (n : Nat) : Device :=
  let d : Device := { d with deferred := [], stages := d.stages.map (fun p => (p.1, p.2.leaveTake)) }
  let d := d.onMs (fun m => { m with waiters := m.waiters.filter (fun w => d.otherWaiter w.2) })
  let d := d.onNet (fun (x : LinkSys) => { x with
    colls := x.colls.map (fun (p : Nat × Coll) => (p.1, p.2.leaveTake)), sent := x.sent.filter (fun m => !m.ofTake n) })
  d.onRun (fun r => { r with residuals := r.residuals.filter (fun p => p.2.1 != n) })

/-- Objects pinned for a retake are released. -/
def Device.dropRetakePins (d : Device) : Device :=
  (d.each d.run.retakePins (fun d h => d.dropPin h)).onRun (fun r => { r with retakePins := [] })

/-- The entries of a take that its input rings offer so far: all of them, or those before its last one has come (R388). -/
def Device.offeredEntries (d : Device) : List Nat :=
  d.inputRings.flatMap (fun r =>
    (List.range ((d.takeEntries r).getD (min 65536 (d.ringProducer r - d.ringConsumer r)))).map (fun i => d.ringEntry r (d.ringConsumer r + i)))

/-- The input objects of a take are pinned until its sample list prints or is skipped (R182): those of every entry of every input
ring; one that comes later is pinned as it is taken. -/
def Device.pinInputs (d : Device) (t : Take) : Device :=
  d.pinRetake ((t.entries.map (·.2) ++ d.offeredEntries).flatMap entryObjects)

/-- The cg of the next take after a discard (R149). -/
def Device.cgAfterDiscard (d : Device) (n : Nat) (cg : Int) : Device :=
  let d := d.put Obj.gradScaleCleanRun 0
  if d.get Obj.gradScaleOnDiscard = 1 then d.onRun (fun r => { r with nextCg := some (ofSigned 32 cg) })
  else
    let low := toSigned 32 (d.get Obj.gradScaleMinExp)
    let next := max (cg - 1) low
    let d := d.onRun (fun r => { r with nextCg := some (ofSigned 32 next) })
    if cg - 1 < low then
      ((d.bump Obj.gradScaleFloorHits).raise 0x0503 [a8 n, a4 (ofSigned 32 next)]).onRun (fun r => { r with
        nextBits := r.nextBits ||| 2 ^ Hb.gradScaleFloor })
    else d

/-- The cg of the next take after a print (R149). -/
def Device.cgAfterPrint (d : Device) (cg : Int) : Device :=
  let g := d.get Obj.gradScaleGrowth
  let c := d.get Obj.gradScaleCleanRun + 1
  if 0 < g ∧ c = g then
    (d.put Obj.gradScaleCleanRun 0).onRun (fun r => { r with nextCg := some (ofSigned 32 (min (cg + 1) (toSigned 32 (d.get Obj.gradScaleMaxExp)))) })
  else (d.put Obj.gradScaleCleanRun (c % 2 ^ 32)).onRun (fun r => { r with nextCg := some (ofSigned 32 cg) })

/-- A host's write of GRAD_SCALE_EXP that waits decides alone (R149). -/
def Device.cgStaged (d : Device) : Bool := (tget d.ctl.staged Obj.gradScaleExp).isSome && d.get Obj.stageHold != 1

/-- What the next take computes after a discard (R182, R331, R332): the samples are passed, or run again. -/
def Device.nextSamples (d : Device) (t : Take) : Device :=
  let c := d.get Obj.consecutiveRetakes
  if d.run.partLost then (d.pinInputs t).onRun (fun r => { r with rerun := true })
  else if d.run.rerun ∨ d.get Obj.discardPolicy = 1 then
    if d.get Obj.retakeLimit ≤ c then
      (((d.raise 0x0605 [a8 t.number, a1 c]).put Obj.consecutiveRetakes 0).onRun (fun r => { r with rerun := false })).dropRetakePins.passEntries
    else ((d.put Obj.consecutiveRetakes (c + 1)).pinInputs t).onRun (fun r => { r with rerun := true })
  else (d.put Obj.consecutiveRetakes 0).dropRetakePins.passEntries

/-- A tracker at a print (R153). -/
def Device.trackerPrint (d : Device) (i : Nat) : Device :=
  let h := d.get Obj.trackerTableObject
  let b := trackerAt i
  let len := d.readNat h (b + 5) 1 % 128
  let valid := d.readNat h (b + 9) 1 % 128
  let next := d.readNat h (b + 10) 1 % 64
  let d := d.writeBytes h (b + 64 + 4 * next) (d.readBytes h (b + 12) 4)
  (d.writeNat h (b + 9) 1 (min len (valid + 1))).writeNat h (b + 10) 1 ((next + 1) % max 1 len)

/-- The updates of a printed take begin their course on both Lapidaries (R42 step 11, R45). -/
def Device.queueUpdates (d : Device) (n : Nat) : Device :=
  let busy := d.run.updates
  let d := match busy with
    | [] => d
    | (_, _, t) :: _ => (d.raise 0x0702 [a8 n, a8 t]).bump Obj.updateBacklogWaits
  let mine := d.run.layers.map (fun e => (Le.lapidary e, Le.layer e, n))
  let d := d.onRun (fun r => { r with updates := r.updates ++ mine.filter (fun u => d.lapidaryLives u.1) })
  let d := d.each [0, 1] (fun d lap => if d.homed lap = 0 then
      d.put (if lap = 0 then Obj.lastCompleteTakeA else Obj.lastCompleteTakeB) n else d)
  d

/-- The record of a take. -/
def Device.takeRecord (d : Device) (t : Take) (verdict : Nat) (printed : Bool) : LogRecord :=
  { kind := 1, outcome := if printed then 1 else 2, cg := t.cg, take := t.number, verdict := verdict,
    samples := t.sampleEntries, trackers := d.trackerExps, retake := d.run.retake, signed := printed, dict := d.run.dictDigest }

/-- FLAGS and the dailies counts of a take's slot (R171). -/
def Device.slotCounts (d : Device) (t : Take) : Device :=
  let n := t.number
  (((d.slotPut n 32 4 (d.runFlags t)).slotPut n 40 4 t.tiles).slotPut n 44 4 t.overTol).slotPut n 48 4 t.skipped

/-- Lane occupancy of a take (R225): how long a lane was busy or waited is timing, and open. -/
def Device.occupancy (d : Device) (take : Nat) : Device :=
  d.each (List.range 64) (fun d lane =>
    let cores := ((d.stages.filter (fun p => !Desc.serving p.2.desc && Desc.lane p.2.desc == lane)).map (·.2.core)).eraseDups
    if cores = [] then d
    else
      let (a, d) := d.draw
      let (b, d) := d.draw
      d.put (Obj.laneOccupancy + lane) (fld take 0 + fld cores.length 64 + fld (Config.unstated a % 2 ^ 64) 128 +
        fld (Config.unstated b % 2 ^ 64) 192))

/-- A take that never came to R42 step 6 on this device. -/
def Take.unfinished (t : Take) : Bool := t.early || t.latched.isNone

/-- A discarded take was cut early (R183): this device cut it, or had not latched it, or passed a marked contribution on; and
with EARLY_CUT 1 every discard bit is one a device cut for (DEDUCED, log entry 93). -/
def Device.wasCut (d : Device) (t : Take) : Bool := t.unfinished || d.run.marked || d.get Obj.earlyCut == 1

/-- The slot of a take is final (R171). What a take cut early never latched at R42 step 6 is written now. -/
def Device.slotFinal (d : Device) (t : Take) (verdict state : Nat) (early : Bool) : Device :=
  let n := t.number
  let word := match t.latched with
    | some w => w
    | none => d.healthWord (t.bits ||| flagBits (d.runFlags t))
  let d := ((d.slotPut n 4 1 state).slotPut n 16 8 verdict).slotPut n 24 8 (if early then word ||| 2 ^ Hb.earlyCut else word)
  let d := d.onlyIf t.unfinished (fun d => (d.slotCounts t).occupancy n)
  d.raise 0x0604 [a8 n, a2 (n % d.get Obj.statsSlots)]

/-- The replay has handled its last take: the RECOVERY record is due (R315). -/
def Device.replayEnds (d : Device) (take : Nat) : Device :=
  match d.log.replay with
  | [] => d.record { kind := 3, outcome := 1, take := take, fromTake := d.log.replayFrom, signed := true, dict := d.run.dictDigest,
                     state := if d.run.stillDigest = [] then d.run.fromDigest else d.run.stillDigest }
  | _ => d

/-- The head of the chain advances through a recorded digest. -/
def Device.replayPast (d : Device) (r : ReplayRecord) : Device :=
  let d := { (d.put Obj.logHead (leNat r.digest)).bump Obj.logSequence with log := { d.log with replay := d.log.replay.drop 1 } }
  d.replayEnds r.take

/-- A take is over: its record is due, or, in a replay, the chain advances. -/
def Device.takeLogged (d : Device) (t : Take) (verdict : Nat) (printed : Bool) : Device :=
  match d.log.replay with
  | r :: _ => if r.take = t.number then
      let d := d.replayPast r
      if printed then d.snapStill t.number else d
    else d.record (d.takeRecord t verdict printed)
  | [] => d.record (d.takeRecord t verdict printed)

/-- No take is open any more. A VERDICT_UP of it that no MSG_ACK has answered is kept (R286). -/
def Device.closeTake (d : Device) : Device :=
  d.onRun (fun r => { r with take := none, reports := [], upSent := false, formed := none, rootCut := false })

/-- A take prints (R42 steps 9 to 11). A device whose signing engine has failed prints nothing (R455). -/
def Device.printTake (d : Device) (t : Take) (w : Nat) : Device :=
  let n := t.number
  if d.sec.signFailed then (d.takeLogged t w true).closeTake
  else
    let d := (d.slotFinal t w 1 false).bump Obj.prints
    let logged := d.takeRecord t w true
    let d := d.each ((List.range d.trackers).filter (fun i => d.run.trackersSeen.contains i)) (fun d i => d.trackerPrint i)
    let d := if d.cgStaged then d.put Obj.gradScaleCleanRun 0 else d.cgAfterPrint t.cg
    let d := (d.put Obj.consecutiveRetakes 0).dropRetakePins.passEntries
    let d := (d.formContext n t.cg).queueUpdates n
    let d := d.onRun (fun r => { r with lastPrint := n, rerun := false })
    let d := if d.run.listed = [] then d else (d.stillDue n).snapPrint n
    let d := match d.log.replay with
      | r :: _ => if r.take = n then (d.replayPast r).snapStill n else d.record logged
      | [] => d.record logged
    let d := d.closeTake
    if d.run.updates.any (fun u => u.2.2 == n) then d else d.takeUpdated n

/-- The effects of a discard that a replayed one has too (R181, R149). -/
def Device.discardRules (d : Device) (t : Take) : Device :=
  let d := (d.bump Obj.discards).nextSamples t
  if d.cgStaged then d.put Obj.gradScaleCleanRun 0 else d.cgAfterDiscard t.number t.cg

/-- A take is discarded (R42 step 13). -/
def Device.discardTake (d : Device) (t : Take) (w : Nat) : Device :=
  let early := d.wasCut t
  let d := (d.slotFinal t w 2 early).onlyIf early (·.bump Obj.earlyCuts)
  let d := d.takeLogged t w false
  ((d.dropTakeWork t.number).discardRules t).closeTake

/-- A replay diverges (R315): the take is discarded, and no further take is admitted. It is no early cut, unless this device has cut it. -/
def Device.diverge (d : Device) (t : Take) (recorded found : Nat) : Device :=
  let d := (d.put Obj.replayState 3).raise 0x0B03 [a8 t.number, a8 recorded, a8 found]
  let d := (d.slotFinal t found 2 t.early).dropTakeWork t.number
  (d.bump Obj.discards).closeTake

/-- A replayed take that carries discard bits is discarded, and runs again under its number (R315). -/
def Device.rerunTake (d : Device) (t : Take) (w : Nat) : Device :=
  let again := d.run.retake
  let early := d.wasCut t
  let d := ((d.slotFinal t w 2 early).onlyIf early (·.bump Obj.earlyCuts)).dropTakeWork t.number
  (((d.bump Obj.replayReruns).bump Obj.discards).put Obj.takeNumber (t.number - 1)).closeTake.onRun (fun r => { r with rerun := again })

/-- The verdict of the open take is latched (R180), and the take prints or is discarded, or is handled as a replay says. -/
def Device.latchVerdict (d : Device) (w : Nat) : Device :=
  match d.run.take with
  | none => d
  | some t =>
    let d := ((d.put Obj.healthWord w).put Obj.healthTake t.number).raise 0x0603 [a8 t.number, a8 w]
    let clean := bits w 0 16 = 0
    let d := match d.replayed with
      | some r => if w = r.verdict then d.printTake t w else if clean then d.diverge t r.verdict w else d.rerunTake t w
      | none => if clean then d.printTake t w else d.discardTake t w
    d.showHealth

/-- A device that formed the verdict sends it down, where it has not yet, and latches it. -/
def Device.latchFormed (d : Device) : Device :=
  match d.run.formed, d.run.take with
  | some w, some t => (if d.run.rootCut then d else d.sendDown t.number w).latchVerdict w
  | _, _ => d

/-- A part that is lost cuts every later take at its admission (R332). -/
def Device.admitTake (d : Device) : Device :=
  let d := if d.run.skipDue then d.passEntries else d
  if d.admissionBlocked then d
  else
    let n := (d.get Obj.takeNumber + 1) % 2 ^ 64
    match d.log.replay with
    | r :: _ =>
      if r.outcome = 2 then
        let d := d.applyTakeValues.put Obj.takeNumber r.take
        let cg := toSigned 32 (d.get Obj.gradScaleExp)
        let d := ((d.put Obj.healthWord r.verdict).put Obj.healthTake r.take).onRun (fun x => { x with dictDigest := d.dictDigest })
        let c := d.get Obj.consecutiveRetakes
        let d := (d.bump Obj.discards).put Obj.consecutiveRetakes
          (if d.get Obj.discardPolicy = 1 ∧ c < d.get Obj.retakeLimit then c + 1 else 0)
        let d := if d.cgStaged then d.put Obj.gradScaleCleanRun 0 else d.cgAfterDiscard r.take cg
        (d.replayPast r).showHealth
      else
        let d := d.openTake r.take
        match d.run.take with
        | none => d
        | some t =>
          let same := d.run.dictDigest == r.dict && t.cg == r.cg && d.trackerExps == r.trackers
          let d := d.onRun (fun x => { x with retake := r.retake })
          if same then d.cutAtAdmission.latchFormed
          else
            let (k, d) := d.draw
            d.diverge t r.verdict (Config.unstated k % 2 ^ 64)
    | [] =>
      (d.openTake n).cutAtAdmission.latchFormed

/-- TAKE_ADMISSION (R40, R42). -/
def execTakeAdmission (s : State) := onDev s Device.admitTake

/-! ### The local word (R42 step 6) -/

/-- Saturations and elements of a tensor in the take's slot. -/
def Device.saturationOf (d : Device) (take tensor : Nat) : Nat × Nat :=
  let h := d.get Obj.statsObject
  ((List.range d.run.stats.length).filter (fun i => (d.run.stats.getD i (0, 0)).1 == tensor)).foldl (fun acc i =>
    let b := d.slotBase take + 64 + 192 * i
    (acc.1 + d.readNat h (b + 24) 8, acc.2 + d.readNat h (b + 8) 8)) (0, 0)

/-- SATURATION_ALARM of every tensor that exceeds SAT_ALARM_PPM (R132). -/
def Device.saturationAlarms (d : Device) (take : Nat) : Device :=
  d.each ((d.run.stats.map (·.1)).eraseDups) (fun d tensor =>
    let (s, e) := d.saturationOf take tensor
    if d.get Obj.satAlarmPpm * e < s * 1000000 then
      ((d.bump Obj.satAlarmTensors).raise 0x0404 [a4 tensor, a8 take, a8 s, a8 e]).onTake (fun t => { t with
        bits := t.bits ||| 2 ^ Hb.saturationAlarm })
    else d)

/-- The dailies alarm of a take (R177), and the risk source that counts it (R329). -/
def Device.dailiesAlarm (d : Device) (t : Take) : Device :=
  let alarm := d.get Obj.dailiesMinTiles ≤ t.tiles && d.get Obj.dailiesAlarmPpm * t.tiles < t.overTol * 1000000
  let d := if alarm then
      ((d.bump Obj.dailiesAlarms).raise 0x0602 [a8 t.number, a4 t.tiles, a4 t.overTol]).onTake (fun t => { t with
        bits := t.bits ||| 2 ^ Hb.dailiesAlarm })
    else d
  d.alarmWindow t.number alarm

/-- All local work of the take is done, with every dailies reference compared (R176), and every reduction complete (R42 step 6),
those aside that poison keeps from starting. -/
def Device.takeDone (d : Device) : Bool :=
  d.deferred.all (fun q => q.2.isEmpty) && d.net.colls.all (fun p => Ce.host p.2.entry || p.2.complete || d.collMarked p.2) &&
    (match d.takeCount with
     | some n => d.stages.all (fun p => Desc.serving p.2.desc || d.stageDone p.1 p.2 n)
     | none => d.anyFailed && d.stages.all (fun p => Desc.serving p.2.desc || d.stageDone p.1 p.2 0)) &&
    d.stages.all (fun p => Desc.serving p.2.desc || p.2.state == .failed || p.2.dailies.isEmpty)

/-- The local word is latched, with the engine flags, and the device's word goes up the tree. SATURATION_ALARM is looked for here alone:
the tensors of a take that is cut before it, or that another device's verdict ends, are not compared (R132 says when a take
counts, and not whether one that never comes to R42 step 6 does; DESIGN CHOICE, log entry 127). -/
def Device.latchHealth (d : Device) : Device :=
  let d := d.startReductions
  match d.run.take with
  | none => d
  | some t =>
    if t.latched.isSome then (d.tryVerdict).latchFormed
    else if !d.takeDone ∨ d.pwr.hold then d
    else
      let flags := flagBits (d.runFlags t)
      let d := ((d.dailiesAlarm t).saturationAlarms t.number).onTake (fun t => { t with bits := t.bits ||| flags })
      let w := d.healthWord ((d.run.take.map (·.bits)).getD 0)
      let d := (d.onTake (fun t => { t with latched := some w })).showHealth
      (((d.slotPut t.number 24 8 w).slotCounts t).occupancy t.number).tryVerdict.latchFormed

/-- LOCAL_HEALTH_LATCH (R42 step 6). -/
def execLocalHealthLatch (s : State) := onDev s Device.latchHealth

/-! ### The tree (R180, R183, R299) -/

/-- A verdict message for a take this device does not await is dropped (R180). -/
def Device.verdictStale (d : Device) (m : Msg) : Bool :=
  match d.run.take with
  | some t => t.number != m.take || d.run.formed.isSome
  | none => true

/-- A rank may send its word here: one below this device in the tree, which has lost the ranks between or not (R299, R301), or, where
this device stands in for a lost root, any other. A repeat of an accepted word is a duplicate (R286). -/
def Device.mayReport (d : Device) (r : Nat) : Bool :=
  let me := d.get Obj.jobRank
  r < d.get Obj.jobSize && r != me && (me == 0 || d.treeParent me == 0 || d.below me 11 r)

/-- A child's word comes: with the early mark it goes up at once, combined with what is here. -/
def Device.wordUp (d : Device) (m : Msg) (early : Bool) : Device :=
  let d := d.hear m.src
  if d.staleMessage m then d.dropMessage
  else if d.net.accepted.contains (m.src, m.msgId) then d.accept m (fun d => d)
  else if d.verdictStale m ∨ !d.mayReport m.src then d.bump Obj.verdictStaleDrops
  else d.accept m (fun d =>
    let d := d.onRun (fun r => { r with reports := tset r.reports m.src (leAt m.payload 0 8), marked := r.marked || early })
    (if early then d.sendUp true else d.tryVerdict).latchFormed)

/-- VERDICT_UP (R299). -/
def execVerdictUp (m : Msg) (early : Bool) (s : State) := onDev s (fun d => d.wordUp m early)

/-- The verdict comes down: it goes on to every child, and is latched. -/
def Device.wordDown (d : Device) (m : Msg) : Device :=
  let d := d.hear m.src
  if d.staleMessage m then d.dropMessage
  else if d.net.accepted.contains (m.src, m.msgId) then d.accept m (fun d => d)
  else if d.verdictStale m then d.bump Obj.verdictStaleDrops
  else d.accept m (fun d => (d.onRun (fun r => { r with formed := some (leAt m.payload 0 8) })).latchFormed)

/-- VERDICT_DOWN (R180). -/
def execVerdictDown (m : Msg) (s : State) := onDev s (fun d => d.wordDown m)

end Sys2Proof.Machine
end

