-- ==== Sys2Proof/Machine/Tables.lean ====
section
/-!
DEFINITION. The checks of arming's tables (R478 step 2): ports and routes (R288, R291), collectives (R295), layers, groups,
curves, programs and scratch (R163, R192, R197, R198), trackers (R154), the log object (R307); and the checks after the
binding (R158, R164, R211), with the statistics records (R168).
-/
namespace Sys2Proof.Machine

/-- The first failing one of a list of checks. -/
def firstFail (cs : List (Bool × Nat)) : Nat :=
  match cs.find? (fun c => c.1) with
  | some c => c.2
  | none => St.ok

/-- The first status that is not OK. -/
def firstBad (cs : List Nat) : Nat := (cs.find? (· != St.ok)).getD St.ok

/-! ### Ports and routes -/

/-- The enabled ports. -/
def Device.enabledPorts (d : Device) : List Nat := (List.range 96).filter (fun p => portEnabled (d.portConfig p))

/-- A reserved bit of PORT_CONFIG is set (R287). -/
def portReserved (c : Nat) : Bool := bits c 49 15 != 0 || bits c 74 6 != 0 || bits c 87 41 != 0

/-- An enabled port breaks R288. -/
def Device.portWrong (d : Device) (p : Nat) : Bool :=
  let c := d.portConfig p
  let m := portMembers c
  let s := portSpares c
  let n := popCount m 24
  portReserved c || m &&& s != 0 || n == 0 || 16 < n || 16 < n + popCount s 24 ||
    d.enabledPorts.any (fun q => q != p && q / 24 == p / 24 &&
      (m ||| s) &&& (portMembers (d.portConfig q) ||| portSpares (d.portConfig q)) != 0) ||
    d.get Obj.jobSize ≤ portPeer c || portPeer c == d.get Obj.jobRank

/-- The route table's entries. -/
def Device.routeTable (d : Device) : List Nat :=
  (List.range (d.get Obj.jobSize)).map (fun r => d.readNat (d.get Obj.routeTableObject) (8 * r) 8)

/-- An entry of the route table breaks R291. -/
def Device.routeWrong (d : Device) (e : Nat) : Bool :=
  let port : Nat → Bool := fun p => p != 127 && !d.enabledPorts.contains p
  bit e 7 || bits e 15 49 != 0 || port (bits e 0 7) || port (bits e 8 7)

/-- Ports, then routes. A job of one device needs no route. -/
def Device.checkRoutes (d : Device) : Nat :=
  let n := d.get Obj.jobSize
  let me := d.get Obj.jobRank
  if d.enabledPorts.any d.portWrong then St.range
  else if n ≤ 1 then St.ok
  else if d.objectBytes (d.get Obj.routeTableObject) < 8 * n then St.noSpace
  else if (List.range n).any (fun r => r != me && d.routeWrong (d.routeTable.getD r 0)) then St.range else St.ok

/-! ### The collective table (R295) -/

/-- Entries of a table of `n` bytes each. -/
def Device.tableEntries (d : Device) (h count n : Nat) : List Nat := (List.range count).map (fun i => d.readNat h (n * i) n)

/-- The collective entries. -/
def Device.collEntries (d : Device) : List Nat :=
  d.tableEntries (d.get Obj.collectiveTableObject) (d.get Obj.collectiveCount) 64

/-- The ranks of an entry. -/
def Device.collRanks (d : Device) (e : Nat) : List Nat := (List.range (Ce.members e)).map (fun i => d.readNat (Ce.rankList e) (2 * i) 2)

/-- The formats of an entry. -/
def collFormats (e : Nat) : Bool :=
  let sum : Nat → Bool := fun f => f == Fmt.e5m2 || f == Fmt.e2m1 || f == Fmt.bf16 || f == Fmt.fp32
  if Ce.reduces e then sum (Ce.payload e) && sum (Ce.partialF e) && sum (Ce.resultF e)
  else Ce.payload e == Fmt.bf16 || Ce.payload e == Fmt.fp32

/-- Bytes an entry needs in SOURCE and DEST. -/
def collBytes (e : Nat) : Nat := Ce.elements e * (if Ce.reduces e then 4 else fmtBits (Ce.payload e) / 8)

/-- An entry against the descriptors of the run. -/
def Device.collStatus (d : Device) (xs es : List Nat) (e : Nat) : Nat :=
  let wgrad := !Ce.host e
  let ranks := d.collRanks e
  let stage := xs.find? (fun x => Desc.wgrad x && Desc.layer x == Ce.layer e)
  let small : Nat → Nat → Bool := fun h n => d.objectBytes h < n
  firstFail [
    (Ce.reserved e || Ce.fanin e < 2 || 16 < Ce.fanin e || Ce.members e ≤ Ce.root e || Ce.members e == 0 || 1024 < Ce.members e, St.range),
    (small (Ce.rankList e) (2 * Ce.members e), St.noSpace),
    (!ascending ranks || ranks.any (fun r => d.get Obj.jobSize ≤ r) || !ranks.contains (d.get Obj.jobRank), St.range),
    (!collFormats e || (wgrad && Ce.op e != 0), St.range),
    (wgrad && (stage.map (fun x => accumulatorBytes x / 4 != Ce.elements e)).getD false, St.range),
    (wgrad && (es.filter (fun o => !Ce.host o && Ce.layer o == Ce.layer e)).length != 1, St.range),
    (wgrad && ((d.entry (Ce.dest e)).map (fun o => o.kind != 7)).getD false, St.range),
    (small (Ce.dest e) (collBytes e) || (!wgrad && small (Ce.source e) (collBytes e)), St.noSpace)]

/-- The collective table. -/
def Device.checkColls (d : Device) (xs : List Nat) : Nat :=
  let es := d.collEntries
  let missing := xs.any (fun x => Desc.wgrad x && !es.any (fun e => !Ce.host e && Ce.layer e == Desc.layer x))
  if d.objectBytes (d.get Obj.collectiveTableObject) < 64 * d.get Obj.collectiveCount then St.noSpace
  else match firstBad (es.map (d.collStatus xs es)) with
    | st => if st ≠ St.ok then st else if missing then St.range else St.ok

/-! ### Layers and groups (R163, R192) -/

def Device.layerEntries (d : Device) : List Nat := d.tableEntries (d.get Obj.layerTableObject) (d.get Obj.layerCount) 64
def Device.groupEntries (d : Device) : List Nat := d.tableEntries (d.get Obj.groupTableObject) (d.get Obj.groupCount) 256

/-- A finite value that is at least +0; −0 counts as +0 (R505). -/
def atLeastZero (x : Nat) : Bool := fIsFinite x && (!fNeg x || fAbs x == 0)

/-- The bytes of a curve or program object that can matter. -/
def Device.curveBytes (d : Device) (h : Nat) : Bytes := d.readBytes h 0 (16 + 8 * min 4096 (d.readNat h 4 2))
def Device.programBytes (d : Device) (h : Nat) : Bytes := d.readBytes h 0 (16 + 8 * d.readNat h 4 1)

/-- A group entry against R190, R191 and R199, with no SR into FP32 (R69). A program is checked here as far as no layer's shape
comes in, on one element; R197's check against the layers is the layers' own. -/
def Device.groupStatus (d : Device) (g : Nat) : Nat :=
  let recs := (List.range (Ge.states g)).map (Ge.record g)
  let recWrong : Nat → Bool := fun r =>
    !fIsFinite (Ge.a r) || !fIsFinite (Ge.b r) || !fIsFinite (Ge.c r) || !fIsFinite (Ge.n r) ||
      (Ge.biasCorrect r && (!atLeastZero (Ge.a r) || fOne ≤ fAbs (Ge.a r))) ||
      (!Ge.bf16 r && Ge.rounding r == 1)
  firstFail [
    (Ge.reserved g || (Ge.denState g != 4 && Ge.states g ≤ Ge.denState g) || recs.any recWrong ||
      !atLeastZero (Ge.lrBase g) || !atLeastZero (Ge.decay g) || !atLeastZero (Ge.epsilon g) || !fIsFinite (Ge.nG g), St.range),
    (!Ge.frozen g && (!d.names (Ge.curve g) || curveWrong (d.curveBytes (Ge.curve g))), St.range),
    (Ge.mode g == 1 && (!d.names (Ge.program g) || programWrong (d.programBytes (Ge.program g)) 1 1 (Ge.states g)), St.range),
    (!Ge.frozen g && d.objectBytes (Ge.curve g) < 16 + 8 * curvePoints (d.curveBytes (Ge.curve g)), St.noSpace)]

/-- A layer entry needs a narrow copy, a fallback copy. -/
def leFalls (e : Nat) : Bool := 128 < Le.veins e && fmtBits (Le.wFormat e) < 8
def leVeined (e : Nat) : Bool := 1 ≤ Le.veins e && Le.veins e ≤ 128

/-- The objects a layer needs, each with the bytes of its layout. -/
def layerNeeds (gs : List Nat) (e : Nat) : List (Nat × Nat) :=
  let g := gs.getD (Le.group e) 0
  let sg := gs.getD (Le.scaleGroup e) 0
  let n := Le.inCh e * Le.outCh e
  let copy : Nat → Nat := fun f => leOut e * leIn e * tileBytes f + 8 * Le.outCh e + (if Le.actLearned e then 8 else 0)
  let p := veinPasses (Le.veins e)
  [(Le.master e, 4 * n)] ++
    (if !Ge.frozen g && Ge.states g != 0 then [(Le.state e, stateAt g n (Ge.states g))] else []) ++
    (if leFalls e then [(Le.fallback e, copy (Le.fallbackFormat e))] else [(Le.wc e, copy (Le.wFormat e))]) ++
    (if leVeined e then [(Le.veinList e, 2 * Le.veins e), (Le.veinWeight e, leOut e * (p * 8192 + 32))] else []) ++
    (if Le.learned e then [(Le.scale e, 4 * (Le.outCh e + 1) + stateAt sg (Le.outCh e + 1) (Ge.states sg))] else []) ++
    (if Le.residual e = noObject then [] else
      [(Le.residual e, (32768 * leOut e * leIn e + (if leVeined e then leOut e * (p * 32 * 128) else 0)) * (if Ge.residualBf16 g then 2 else 4))]) ++
    (if Le.wFormat e = Fmt.cb16 then [(Le.codebook e, 32)] else [])

/-- The formats a weight takes (R51, R87): those of PLANE and TABLE, and BF16. -/
def weightFormat (f : Nat) : Bool := comboOk 0 f Fmt.int8 || comboOk 1 f Fmt.int8 || f == Fmt.bf16

/-- A layer entry against R188 and R192; a lost Lapidary refuses it with NOT_READY (R332). -/
def Device.layerStatus (d : Device) (gs : List Nat) (e : Nat) : Nat :=
  let g := gs.getD (Le.group e) 0
  firstFail [
    (Le.reserved e || gs.length ≤ Le.group e || gs.length ≤ Le.scaleGroup e || Le.inCh e == 0 || 16384 < Le.inCh e ||
      Le.outCh e == 0 || 4096 < Le.outCh e || !weightFormat (Le.wFormat e) ||
      !([Fmt.int8, Fmt.int12, Fmt.int16, Fmt.uint8, Fmt.uint12, Fmt.uint16, Fmt.none].contains (Le.fallbackFormat e)) ||
      (leFalls e && Le.fallbackFormat e == Fmt.none), St.range),
    (Le.learned e && Ge.mode (gs.getD (Le.scaleGroup e) 0) == 1, St.range),
    (Ge.wcRounding g == 1 && (Le.wFormat e == Fmt.binary || Le.wFormat e == Fmt.cb16), St.range),
    ((layerNeeds gs e).any (fun o => !d.names o.1), St.range),
    (Ge.mode g == 1 && programWrong (d.programBytes (Ge.program g)) (Le.inCh e) (Le.outCh e) (Ge.states g), St.range),
    (d.lostUnit (Le.lapidary e), St.notReady),
    ((layerNeeds gs e).any (fun o => d.objectBytes o.1 < o.2), St.noSpace)]

/-- Two layers that share a master, state, scale or residual: both numbers and the handle (R163). The rule goes field by field; a handle
that stands in one field of one layer and in another field of the other is refused too (DESIGN CHOICE, log entry 130). -/
def tiedLayers : List Nat → Option (Nat × Nat × Nat)
  | [] => none
  | e :: rest =>
    let mine := [Le.master e, Le.state e, Le.scale e, Le.residual e].filter (· != noObject)
    match rest.findSome? (fun o =>
      (mine.find? (fun h => [Le.master o, Le.state o, Le.scale o, Le.residual o].contains h)).map (fun h => (Le.layer e, Le.layer o, h))) with
    | some t => some t
    | none => tiedLayers rest

/-- The scratch objects hold the largest register of any program (R198). -/
def Device.scratchStatus (d : Device) (gs es : List Nat) : Nat :=
  let need := (es.filter (fun e => Ge.mode (gs.getD (Le.group e) 0) == 1)).foldl (fun m e =>
    max m (programElems (d.programBytes (Ge.program (gs.getD (Le.group e) 0))) (Le.inCh e) (Le.outCh e) (Ge.states (gs.getD (Le.group e) 0)))) 0
  if d.objectBytes (d.get Obj.scratchA) < 64 * need ∨ d.objectBytes (d.get Obj.scratchB) < 64 * need then St.noSpace else St.ok

/-- The layer, group, curve and program tables and the scratch objects; every layer with weight gradients has an entry
(R187). -/
def Device.checkLayers (d : Device) (xs : List Nat) : Nat :=
  let gs := d.groupEntries
  let es := d.layerEntries
  if 256 < d.get Obj.groupCount then St.range
  else if d.objectBytes (d.get Obj.layerTableObject) < 64 * es.length ∨ d.objectBytes (d.get Obj.groupTableObject) < 256 * gs.length then St.noSpace
  else if !ascending (es.map Le.layer) ∨ xs.any (fun x => Desc.wgrad x && !es.any (fun e => Le.layer e == Desc.layer x)) then St.range
  else match firstBad (es.map (d.layerStatus gs) ++ gs.map d.groupStatus) with
    | st => if st ≠ St.ok then st else if (tiedLayers es).isSome then St.range else d.scratchStatus gs es

/-! ### Trackers and the log -/

/-- A tracker entry breaks R154. -/
def trackerWrong (t : Nat) : Bool :=
  let len := bits t 40 7
  let init := toSigned 8 (bits t 56 8)
  bits t 32 8 != 3 || len == 0 || 64 < len || len < bits t 72 7 || len ≤ bits t 80 6 || init < -64 || 63 < init ||
    bit t 47 || bits t 52 4 != 0 || bit t 79 || bits t 86 10 != 0 || bits t 224 288 != 0

def Device.checkTrackers (d : Device) : Nat :=
  let h := d.get Obj.trackerTableObject
  if d.objectBytes h < 320 * d.trackers then St.noSpace
  else if (List.range d.trackers).any (fun i => trackerWrong (d.readNat h (trackerAt i) 64)) then St.range else St.ok

/-- The log object: GENERIC, homed in the fast tier, at least 16 MiB (R307). -/
def Device.checkLog (d : Device) : Nat :=
  match d.entry (d.get Obj.logObject) with
  | some e => if e.kind = 0 ∧ e.tier = 2 ∧ 256 ≤ e.size then St.ok else St.noSpace
  | none => St.noSpace

/-- The handles of the stage list; a list whose object is too small names nothing past its end. -/
def Device.stageList (d : Device) : List Nat :=
  (List.range (d.get Obj.stageCount)).map (fun i => d.readNat (d.get Obj.stageListObject) (4 * i) 4)

/-- Step 2 of R478, in its order. -/
def Device.checkTables (d : Device) : Nat :=
  let xs := d.stageList.map d.descriptor
  firstBad [if d.get Obj.jobSize ≤ d.get Obj.jobRank then St.range else St.ok, d.checkRoutes, d.checkColls xs, d.checkLayers xs,
    d.checkTrackers, d.checkLog]

/-! ### After the binding (step 3) -/

/-- The bound training stages. -/
def Device.trainStages (d : Device) : List (Nat × Stage) := d.stages.filter (fun p => !Desc.serving p.2.desc)

/-- Two stages with weight gradients share a working copy under different layers (R164). -/
def tiedStages : List (Nat × Stage) → Option (Nat × Nat × Nat)
  | [] => none
  | p :: rest =>
    let x := p.2.desc
    match rest.find? (fun q => Desc.wgrad x && Desc.wgrad q.2.desc && Desc.layer q.2.desc != Desc.layer x &&
        Desc.wcObject q.2.desc == Desc.wcObject x) with
    | some q => some (Desc.layer x, Desc.layer q.2.desc, Desc.wcObject x)
    | none => tiedStages rest

/-- Replicas and accumulators (R158). -/
def Device.replicasWrong (d : Device) : Bool :=
  let ss := d.trainStages
  ss.any (fun p =>
    let l := d.layerStages 0 (Desc.layer p.2.desc)
    !(List.range l.length).all (fun r => l.any (fun q => Desc.replica q.2.desc == r)) ||
      (Desc.wgrad p.2.desc && ss.any (fun q => q.1 != p.1 && Desc.wgrad q.2.desc && Desc.wgradAcc q.2.desc == Desc.wgradAcc p.2.desc)))

/-- The rings of a training stage: its input ring and its output ring. -/
def stageRings (x : Nat) : List (Nat × Nat) :=
  (if Desc.laneFirst x then [(Desc.inputObject x, 0)] else []) ++ (if Desc.laneLast x || Desc.lossStage x then [(Desc.outputObject x, 2)] else [])

/-- The statistics records the run can produce (R168), by tensor × 256 + format, ascending. -/
def Device.statRecords (d : Device) : List (Nat × Nat) :=
  let stage : Stage → List (Nat × Nat) := fun s =>
    let x := s.desc
    let bf := Desc.bwdMode x == 1
    let back := Desc.bwdMode x != 2
    (if quantised x then [(Desc.inTensor x, Desc.aFormat x)] else []) ++
      (if s.veinsUsed = [] then [] else [(Desc.inTensor x, Fmt.bf16)]) ++ [(Desc.outTensor x, Desc.outFormat x)] ++
      (if back && sendsBack s && Desc.linear x && !Desc.side x then [(Desc.wcObject x, if bf then Fmt.bf16 else Fmt.e4m3)] else []) ++
      (if back && Desc.wgrad x && quantised x then [(Desc.inTensor x, if bf then Fmt.bf16 else Fmt.e4m3)] else []) ++
      (if sendsBack s then [(Desc.gradTensor x, if bf then Fmt.bf16 else Fmt.e5m2)] else [])
  let coll : Nat → List (Nat × Nat) := fun e =>
    if !Ce.reduces e || Ce.members e ≤ 1 then [] else [Ce.payload e, Ce.partialF e, Ce.resultF e].map (fun f => (Ce.dest e, f))
  let layer : Nat → List (Nat × Nat) := fun e =>
    (d.copyObject e, d.copyFormat e) :: (if d.layerFalls e && fmtBits (Le.wFormat e) < 8 then [(Le.wc e, Le.wFormat e)] else [])
  let all := d.trainStages.flatMap (fun p => stage p.2) ++ d.collEntries.flatMap coll ++ d.layerEntries.flatMap layer
  (all.foldl (fun l r => insertNat (256 * r.1 + r.2) l) []).map (fun k => (k / 256, k % 256))

/-- The slots of the statistics ring find room (R168, R171). -/
def Device.checkStats (d : Device) : Nat :=
  let n := d.statRecords.length
  if d.get Obj.statsRecordsMax < n ∨ d.objectBytes (d.get Obj.statsObject) < d.get Obj.statsSlots * (64 + 192 * n) then St.noSpace else St.ok

/-- The generators a layer's update draws from, and the one of its dailies, which every layer of the run has once (R68, R191, R201,
R233): layer, tensor, purpose. -/
def Device.runGenerators (d : Device) (es gs : List Nat) : List (Nat × Nat × Nat) :=
  let states : Nat → Nat → Nat → List (Nat × Nat × Nat) := fun layer tensor g =>
    ((List.range (Ge.states g)).filter (fun k => Ge.rounding (Ge.record g k) == 1)).map (fun k => (layer, tensor, Pur.state0 + k))
  es.flatMap (fun e =>
    let g := gs.getD (Le.group e) 0
    let sg := gs.getD (Le.scaleGroup e) 0
    (if Ge.frozen g then [] else states (Le.layer e) (Le.state e) g) ++
      (if Le.learned e && !Ge.frozen sg then states (Le.layer e) (Le.scale e) sg else []) ++
      (if Ge.wcRounding g = 1 then [(Le.layer e, Le.wc e, Pur.wc)] else [])) ++
  ((d.trainStages.map (fun p => Desc.layer p.2.desc)).eraseDups).map (fun l => (l, l, Pur.dailies))

/-- The stages are bound in list order (R220). A handle listed twice is RANGE: the text names no status for it (DESIGN CHOICE, log entry
135). -/
def Device.bindAll (d : Device) : List Nat → Nat × Device
  | [] => (St.ok, d)
  | h :: rest =>
    if !d.names h ∨ (tget d.stages h).isSome ∨ Desc.serving (d.descriptor h) then (St.range, d)
    else if ((d.entry h).map (·.lost)).getD false then (St.objectLost, d)
    else match d.bindStage h (d.descriptor h) with
      | (st, d) => if st = St.ok then d.bindAll rest else (st, d)

/-- The generators of the layers and dailies are registered. -/
def Device.registerRun (d : Device) : List (Nat × Nat × Nat) → Nat × Device
  | [] => (St.ok, d)
  | (l, t, p) :: rest =>
    match d.register 0 l (t, p) with
    | (st, d) => if st = St.ok then d.registerRun rest else (st, d)

/-- Step 3 of R478. -/
def Device.bindRun (d : Device) : Nat × Device :=
  if d.objectBytes (d.get Obj.stageListObject) < 4 * d.get Obj.stageCount then (St.noSpace, d)
  else match d.bindAll d.stageList with
    | (st, d) =>
      if st ≠ St.ok then (st, d)
      else match d.registerRun (d.runGenerators d.layerEntries d.groupEntries) with
        | (st, d) =>
          let rings := d.trainStages.flatMap (fun p => stageRings p.2.desc)
          (firstBad [st, if (tiedStages d.trainStages).isSome then St.range else St.ok,
            if d.replicasWrong then St.range else St.ok,
            if d.trainStages.any (fun p => d.rowsRefused p.2.desc) then St.range else St.ok,
            firstBad (rings.map (fun r => d.ringCheck r.1 r.2)), d.checkStats], d)

end Sys2Proof.Machine
end

