-- ==== Sys2Proof/Machine/Residency.lean ====
section
/-!
DEFINITION. Accesses of engines to objects (R263 to R268): a translation and the faults it can raise, the granules of a
core DMA transfer, a missed weight deadline, and the hold limit of a DMA descriptor (R270, R383).
-/
namespace Sys2Proof.Machine

/-! ### Translation (R263, R264) -/

/-- The cluster of a core, as the tables keyed by 17 × die + cluster number it. -/
def clusterKey (core : Nat) : Nat := 17 * (core / 256) + core / 8 % 32

/-- A cluster's translation cache takes a handle; it holds 1,024 (R28), and the hub stamps the entry with the epoch. -/
def Device.cacheFill (d : Device) (cluster h : Nat) : Device :=
  let c := tgetD d.ms.tcache cluster []
  let d := d.onMs (fun m => { m with tcache := tset m.tcache cluster ((h :: c.filter (· != h)).take 1024) })
  d.modEntry h (fun e => { e with epoch := d.ms.epoch })

/-- The length of the transfer an access belongs to: one tile of a working copy, else the rest of the object. The text does
not say how a stage cuts its accesses into transfers. -/
def Device.transferLength (d : Device) (s : Stage) (h off : Nat) : Nat :=
  let tile := tileBytes s.wFmt
  let all := d.objectBytes h - off
  if h = Desc.wcObject s.desc ∨ h = Desc.fallbackObject s.desc then min (tile - off % tile) all else all

/-- The lowest free number of a stage's eight transfer records (R266). -/
def Stage.freeTransfer (s : Stage) : Option Nat := (List.range 8).find? (fun n => (tget s.transfers n).isNone)

/-- A served access of a stage: the cluster's cache holds the object, and the core DMA carries the transfer in granules. Where a
transfer goes in the core-store partition is not stated, a free value (DESIGN CHOICE, log entry 115).
A transfer the stage was parked on goes on at its granule. -/
def Device.servedAccess (d : Device) (stage : Nat) (s : Stage) (h off : Nat) : Device :=
  let d := d.cacheFill (clusterKey s.core) h
  if s.transfers.any (fun t => t.2.handle == h && t.2.offset ≤ off && off < t.2.offset + t.2.length) then d.wakeStage stage
  else match s.freeTransfer with
    | none => d
    | some n =>
      let (k, d) := d.draw
      let t : Transfer4 := { handle := h, offset := off, dest := Config.unstated k, length := d.transferLength s h off }
      d.onStage stage (fun x => { x with transfers := tset x.transfers n t })

/-- An access of a bound stage. While an object is LOST every access fails at once (R270). -/
def Device.stageAccess (d : Device) (stage : Nat) (s : Stage) (h off : Nat) (write : Bool) : Device :=
  match d.entry h with
  | none => d.protectionFault stage h off write
  | some e =>
    if e.forbids off write true then d.protectionFault stage h off write
    else if e.lost then d.meets stage h
    else if e.ready then d.servedAccess stage s h off
    else if e.poisoned ∧ h = Desc.stash s.desc ∧ s.anchor ∧ (s.bwd.bind (fun w => d.lowerAnchor s w.seq)).isSome then
      (d.bump Obj.faultsPoisoned).releaseStash h
    else d.meets stage h

/-- An access on behalf of no stage: its fault counts, and what resolves it is asked for. Objects that only the Lapidaries may touch are
served where they stand (R245); an access that fails at once is charged to the open take (R269, R270). -/
def Device.otherAccess (d : Device) (h off : Nat) (write : Bool) : Device :=
  match d.entry h with
  | none => d.protectionFault noStage h off write
  | some e =>
    if e.forbids off write false then d.protectionFault noStage h off write
    else if d.failsAtOnce h e then (d.lostFault e).chargeBit Hb.objectLost
    else if e.ready ∨ (!tierAllowed e.kind 2 ∧ e.move = .settled ∧ !e.poisoned) then d.modEntry h (fun e => { e with epoch := d.ms.epoch })
    else d.faultAt h none noStage (d.get Obj.takeNumber)

/-- TRANSLATION_MISS (R263): the directory serves an access or raises a fault. -/
def Device.translate (d : Device) (stage h off : Nat) (write : Bool) : Device :=
  match tget d.stages stage with
  | some s => d.stageAccess stage s h off write
  | none => if stage = noStage then d.otherAccess h off write else d

def execTranslationMiss (stage handle offset : Nat) (isWrite : Bool) (s : State) :=
  onDev s (fun d => d.translate stage handle offset isWrite)

/-! ### Granules (R266) -/

/-- A granule of 4 KiB has arrived; the transfer is over with its last one, and its stage is ready once all its operands are
resident. A granule that meets an object engines cannot read leaves the count as it is and parks the stage. -/
def Device.granule (d : Device) (stage n : Nat) : Device :=
  match tget d.stages stage with
  | none => d
  | some s => match tget s.transfers n with
    | none => d
    | some t =>
      if s.stalled then d
      else if !d.ready t.handle then d.stageAccess stage s t.handle (t.offset + 4096 * t.done) false
      else if ceilDiv t.length 4096 ≤ t.done + 1 then
        d.onStage stage (fun x => { x with transfers := tdel x.transfers n })
      else d.onStage stage (fun x => { x with transfers := tset x.transfers n { t with done := t.done + 1 } })

/-- CORE_DMA_GRANULE (R266). -/
def execCoreDmaGranule (stage transfer : Nat) (s : State) := onDev s (fun d => d.granule stage transfer)

/-! ### The weight deadline (R267, R268) -/

/-- The serving samples whose fetch of a stage's weights counts its deadline: the one the stage waits with, then those in flight whose
lanes include the stage, in the order of their streams and numbers, that no later stage of the lane has taken up. The command
names no sample (DESIGN CHOICE, log entry 123). -/
def Device.fetchersOf (d : Device) (s : Stage) : List (Nat × Nat) :=
  let past := d.samplesAt (fun y => Desc.lane y.desc == Desc.lane s.desc && Desc.serving y.desc &&
    decide (Desc.lanePosition s.desc < Desc.lanePosition y.desc))
  let flying := d.streams.flatMap (fun p => if bit p.2.laneMask (Desc.lane s.desc) then
    ((p.2.samples.filter (fun y => y.open && y.parts.isEmpty)).map (fun y => (p.1, y.seq))).filter (fun x => !past.contains x) else [])
  (s.awaited.toList ++ flying).eraseDups

/-- The samples a layer's missed deadline has counted for: once a sample and layer, whichever replica's (R268). -/
def Device.lateOf (d : Device) (layer : Nat) : List (Nat × Nat) := (d.servingOf layer).flatMap (fun p => p.2.late)

/-- A missed weight deadline: it counts and is raised once for each sample whose weights cannot be read as it runs out (R267); the
microseconds to the settling are gathered. -/
def Device.weightMiss (d : Device) (stage stallUs : Nat) : Device :=
  match tget d.stages stage with
  | none => d
  | some s =>
    if !Desc.serving s.desc ∨ Desc.weightDeadline s.desc = 0 then d
    else
      let h := s.weights
      let waiting := d.fetchersOf s
      let told := d.lateOf (Desc.layer s.desc)
      match (if d.canRead h then none else waiting.find? (fun x => !told.contains x)) with
      | none => d.onlyIf (waiting.any told.contains) (·.addTo Obj.weightStallUs stallUs)
      | some x =>
        (((d.addTo Obj.weightStallUs stallUs).bump Obj.weightLate).raise 0x0904 [a4 (Desc.layer s.desc), a4 h, a8 x.2]).onStage stage
          (fun y => { y with late := x :: y.late.take 255 })

/-- WEIGHT_DEADLINE_MISS (R268). -/
def execWeightDeadlineMiss (stage stallUs : Nat) (s : State) := onDev s (fun d => d.weightMiss stage stallUs)

/-! ### The hold limit of a descriptor (R270, R271, R383) -/

/-- The hold limit bears on an object that is poisoned or ABSENT alone (R263). -/
def Device.holdBears (d : Device) (h : Nat) : Bool := ((d.entry h).map (fun e => e.poisoned || e.tier == 1)).getD false

/-- An object that the hold limit of a waiter finds poisoned or ABSENT is LOST. -/
def Device.objectLost (d : Device) (h turn : Nat) : Device :=
  match d.entry h with
  | none => d
  | some e =>
    ((d.modEntry h (fun e => { e with lost := true })).onlyIf (!e.lost) (·.bump Obj.objectsLost)).raise 0x0903 [a4 h, a4 1, a8 turn]

/-- The hold limit of a descriptor of queue `n` of port `p` passes: a supply that found no room ends with NO_SPACE and
leaves its object as it was; a read ends with OBJECT_LOST. -/
def Device.dmaHoldExpires (d : Device) (h p n : Nat) : Device :=
  if !d.ms.waiters.contains (h, .dma p n) then d
  else
    let d := d.onMs (fun m => { m with waiters := m.waiters.filter (· != (h, .dma p n)) })
    match (d.dmaq p n).taken.findIdx? (fun t => t.status == none && descHandle t.desc == h) with
    | none => d
    | some i =>
      match (d.dmaq p n).taken[i]? with
      | none => d
      | some t =>
        if descOp t.desc = 2 then (d.onTaken p n i (fun t => { t with status := some St.objectLost })).objectLost h (d.get Obj.takeNumber)
        else d.onTaken p n i (fun t => { t with status := some St.noSpace })

end Sys2Proof.Machine
end

