-- ==== Sys2Proof/Machine/Arm.lean ====
section
/-!
DEFINITION. RUN_CONTROL (R360, R361, R478): arming step by step with its fallback placement (R126) and the checks of a replay
(R314), its undoing, the start, and the stop.
-/
namespace Sys2Proof.Machine

/-! ### What the run names (R250, R384) -/

/-- The objects the tables of the run name, beyond those its descriptors name. -/
def Device.tableObjects (d : Device) : List Nat :=
  let program := d.run.groups.any (fun g => Ge.mode g == 1)
  ([d.get Obj.stageListObject, d.get Obj.layerTableObject, d.get Obj.groupTableObject, d.get Obj.trackerTableObject,
    d.get Obj.statsObject, d.get Obj.logObject, d.get Obj.routeTableObject, d.get Obj.collectiveTableObject] ++
    (if program then [d.get Obj.scratchA, d.get Obj.scratchB] else []) ++
    d.run.layers.flatMap (fun e => (layerNeeds d.run.groups e).map (·.1)) ++
    d.run.groups.flatMap (fun g => (if Ge.frozen g then [] else [Ge.curve g]) ++ (if Ge.mode g = 1 then [Ge.program g] else [])) ++
    d.net.colls.flatMap (fun p => [Ce.rankList p.2.entry, Ce.dest p.2.entry] ++ (if Ce.host p.2.entry then [Ce.source p.2.entry] else []))).eraseDups.filter
    d.names

/-- The objects the descriptors of the run's stages name. -/
def Device.stageObjects (d : Device) : List Nat := (d.run.listed.flatMap (fun h => match tget d.stages h with
  | some s => d.namedBy h s.desc
  | none => [])).eraseDups

/-- Everything the run pins. -/
def Device.runObjects (d : Device) : List Nat := (d.stageObjects ++ d.run.pinned).eraseDups

/-- KIND of an object; 0 where it is none. -/
def Device.kindOf (d : Device) (h : Nat) : Nat := ((d.entry h).map (·.kind)).getD 0

/-- An object that engines of the run read: every kind but MASTER to RESIDUAL. -/
def Device.engineReads (d : Device) (h : Nat) : Bool := d.kindOf h == 0 || 5 ≤ d.kindOf h

/-- A layer that needs fallback: its number, its fallback and narrow copies, and whether its Lapidary writes them; a layer
without an entry (R187) has copies a host supplied. -/
structure Faller where
  layer    : Nat
  fallback : Nat
  narrow   : Nat
  written  : Bool

/-- A faller put in its place by layer number. -/
def insertFaller (x : Faller) : List Faller → List Faller
  | [] => [x]
  | y :: l => if x.layer < y.layer then x :: y :: l else if x.layer = y.layer then y :: l else y :: insertFaller x l

/-- The layers of the run that need a fallback copy in place of a narrow one (R124, R126), in ascending order of layer number. -/
def Device.fallers (d : Device) : List Faller :=
  let own := (d.run.layers.filter (fun e => leFalls e && (d.layerStages 0 (Le.layer e)) != [])).map (fun e =>
    (⟨Le.layer e, Le.fallback e, Le.wc e, true⟩ : Faller))
  let others := ((d.stages.filter (fun p => !Desc.serving p.2.desc && fallsBack p.2.desc && decide (fmtBits (Desc.wFormat p.2.desc) < 8) &&
    d.run.layers.all (fun e => Le.layer e != Desc.layer p.2.desc))).map (fun p =>
      (⟨Desc.layer p.2.desc, Desc.fallbackObject p.2.desc, Desc.wcObject p.2.desc, false⟩ : Faller)))
  (own ++ others).foldl (fun l x => insertFaller x l) []

/-- The objects that arming has SETTLED in the fast tier before it goes on: those engines read, but the fallback copies,
which R126 places, and the narrow copies they replace, where those are ABSENT. -/
def Device.armNeeds (d : Device) : List Nat :=
  let fallen := d.fallers.map (·.fallback)
  let narrow := d.fallers.map (·.narrow)
  d.runObjects.filter (fun h => d.engineReads h && !fallen.contains h &&
    !(narrow.contains h && ((d.entry h).map (·.tier)).getD 0 == 1))

/-! ### The end of an arming or of a run -/

/-- The objects an arming is about to change are kept as they stand. -/
def Device.saveObjects (d : Device) (hs : List Nat) : Device :=
  d.each hs.eraseDups (fun d h => match d.entry h, d.run.arm with
    | some e, some a =>
      if a.saved.any (fun o => o.handle == h) then d
      else
        let o : SavedObject := ⟨h, e, d.ms.mem.filter (fun c => c.1 / 2 ^ 32 == h)⟩
        d.onRun (fun r => { r with arm := some { a with saved := a.saved ++ [o] } })
    | _, _ => d)

/-- An object is as it was before the arming: its bytes and its home, with the pins it has now. One of the slow tier finds its place
anew, and poison found meanwhile stays. -/
def Device.undoObject (d : Device) (o : SavedObject) : Device :=
  match d.entry o.handle with
  | none => d
  | some e =>
    let d := (d.invalidate o.handle).clearObject o.handle
    let d := d.onMs (fun m => { m with mem := o.cells.foldl (fun l c => memSet l c.1 c.2) m.mem })
    let back : Nat → DirEntry := fun at_ => { o.entry with
      pins := e.pins, epoch := e.epoch, poisoned := o.entry.poisoned || e.poisoned, lost := o.entry.lost || e.lost, location := at_ }
    if 3 ≤ o.entry.tier then
      if e.tier = o.entry.tier then (d.modEntry o.handle (fun _ => back e.location)).restored o.handle
      else
        let (at_, d) := d.sectorPlace (o.entry.tier - 3) (mapSectors e.size)
        (d.modEntry o.handle (fun _ => back at_)).restored o.handle
    else (d.modEntry o.handle (fun _ => back o.entry.location)).dropMap o.handle

/-- The pins of the holds of some versions, added or dropped. -/
def Device.holdPins (d : Device) (vs : List Version) (f : Nat → Nat) : Device :=
  d.each (vs.filter (·.pinned)) (fun d v => d.each (d.versionHandles v) (fun d h => d.modEntry h (fun e => { e with pins := f e.pins })))

/-- A version an arming made that samples read by now stays, and its layer's copies with it. -/
def Device.armRead (d : Device) (layer : Nat) : Bool := d.versionUsed layer d.run.fromTake

/-- The versions of the layers are those from before the arming. -/
def Device.undoVersions (d : Device) (a : Arm) : Device :=
  d.each (a.priorVersions.filter (fun p => !d.armRead p.1)) (fun d p =>
    let now := tgetD d.versions p.1 []
    let d := d.holdPins now (· - 1)
    let d := d.each ((now.flatMap (·.objs)).filter (fun h => ownCopy h && !(p.2.flatMap (·.objs)).contains h)) Device.clearObject
    ({ d with versions := if p.2 = [] then tdel d.versions p.1 else tset d.versions p.1 p.2 }).holdPins p.2 (· + 1))

/-- What an arming wrote before it was refused is undone (R314, R318, R319, R328): restored blocks, fallback placement and the
copies it wrote. -/
def Device.undoArming (d : Device) (a : Arm) : Device :=
  let read := ((tkeys a.priorVersions).filter d.armRead).flatMap (fun l =>
    (d.run.layers.filter (fun e => Le.layer e == l)).flatMap versionObjects)
  let d := d.undoVersions a
  let d := d.onRun (fun r => { r with arm := r.arm.map (fun a => { a with saved := [] }) })
  d.each (a.saved.filter (fun o => !read.contains o.handle)) Device.undoObject

/-- What the run held is given back: its stages, registrations and pins (R360, R361 step 5). -/
def Device.disarm (d : Device) : Device :=
  let d := d.each ((d.run.arm.map (·.late)).getD []) (fun d p => d.modEntry p.1 (fun e => { e with pins := e.pins + p.2 }))
  let gens := d.runGenerators d.run.layers d.run.groups
  let d := d.each gens (fun d g => d.unregister 0 (g.2.1, g.2.2))
  let d := d.each d.run.listed Device.unbindStage
  let d := (d.each d.run.pinned Device.dropPin).dropRetakePins
  let d := d.onMs (fun m => { m with waiters := m.waiters.filter (fun w => w.2 != .arm) })
  let kept : Run := { lastPrint := d.run.lastPrint, outputs := d.run.outputs }
  let d : Device := { d with run := kept, deferred := [], log := { d.log with replay := [], replayFrom := 0 } }
  let d := d.onNet (fun n => { n with colls := [], routes := [], sent := [], accepted := [] })
  (d.put Obj.fallbackLayers d.servingFallbacks).onStill (fun s => { s with job := none, due := none, snap := [], printed := [], traces := [], restore := none, methods := [], sent := [] })

/-- The final response of an arm request, or of a stop. -/
def Device.runFinal (d : Device) (cmd status : Nat) : Device := d.finishArg Obj.runControl cmd status

/-- The arm request ends with a refusal; staged values take effect, since no run is armed (R346). -/
def Device.armRefused (d : Device) (st : Nat) : Device :=
  (((d.put Obj.armStatus st).applyStaged).setRunState 0).runFinal 1 st

/-- An arming that has bound its stages is undone (R360), and what it had written with it. -/
def Device.armUndo (d : Device) (st : Nat) : Device :=
  match d.run.arm with
  | none => d
  | some a =>
    let t := d.get Obj.trackerTableObject
    let d := d.undoArming a
    let d := d.each a.prior (fun d p => d.put p.1 p.2)
    let d := if a.restored then d.writeBytes t 0 a.priorTrackers else d
    (d.disarm.put Obj.stillState 0).armRefused st

/-! ### Steps 1 to 4 of R478 -/

/-- Step 1. -/
def Device.armReady (d : Device) : Nat :=
  if d.get Obj.deviceState ≠ 3 ∨ d.pwr.hold ∨ d.get Obj.debugState = 1 ∨ d.sec.signFailed then St.notReady
  else if d.get Obj.powerTransition ≠ 0 then St.busy else St.ok

/-- TIED_WEIGHTS names both layers and the object they share (R163, R164). -/
def Device.tiedEvent (d : Device) (t : Option (Nat × Nat × Nat)) : Device :=
  match t with
  | some (a, b, h) => d.raise 0x0502 [a4 a, a4 b, a4 h]
  | none => d

/-- A group entry as a run starts with it: a fresh one at START_POSITION (R193). -/
def freshGroup (fresh : Bool) (g : Nat) : Nat := if fresh then Ge.setPosition g (Ge.start g) else g

/-- A resumed group whose position had reached its curve's last point at a print before: its CURVE_END has been raised (R199). -/
def curvePassed (g : Nat) (c : Bytes) : Bool :=
  !Ge.frozen g && Ge.start g < Ge.position g && curveLast c < Ge.position g

/-- The tables are copied (R187, R294): a fresh run is one before whose arming TAKE_NUMBER reads 0. -/
def Device.copyTables (d : Device) : Device :=
  let gs := d.groupEntries.map (freshGroup (d.get Obj.takeNumber == 0))
  let ix := List.range gs.length
  let curves := ix.filterMap (fun i => let g := gs.getD i 0; if Ge.frozen g then none else some (i, d.curveBytes (Ge.curve g)))
  let programs := ix.filterMap (fun i => let g := gs.getD i 0; if Ge.mode g = 1 then some (i, d.programBytes (Ge.program g)) else none)
  let es := d.layerEntries
  let stats := d.statRecords
  let rings := (d.trainStages.flatMap (fun p => stageRings p.2.desc)).map (·.1)
  let listed := d.stageList
  let ended := ix.filter (fun i => curvePassed (gs.getD i 0) (tgetD curves i []))
  let d := d.onRun (fun r => { r with
    arm := some {}, curveEnded := if d.get Obj.takeNumber = 0 then [] else ended, listed := listed, groups := gs, layers := es, curves := curves, programs := programs, stats := stats,
    rings := rings.eraseDups })
  let ces := d.collEntries
  let colls := (List.range ces.length).map (fun i => let e := ces.getD i 0; (i, ({ entry := e, ranks := d.collRanks e } : Coll)))
  let routes := d.routeTable
  (d.onNet (fun n => { n with colls := colls, routes := routes })).put Obj.statsRecordCount stats.length

/-- Units of the fast tier that are not lost. -/
def Device.fastUnits (d : Device) : Nat := 4 * dieUnits - (d.lostExtents.map (·.2)).sum

/-- The fast-tier objects the run pins, with its largest stash, fit the fast tier (R261). -/
def Device.armFits (d : Device) : Bool :=
  let largest := (d.trainStages.map (fun p => if Desc.anchor p.2.desc then d.sizeOf (Desc.stash p.2.desc) else 0)).foldl max 0
  (d.armNeeds.map d.sizeOf).sum + largest ≤ d.fastUnits

/-- An object of a layer entry that lives in the slow tier is homed on the Lapidary that LAPIDARY names (R189): one on the other
Lapidary crosses. One that cannot is no reason to arm without it: the arm request is refused as OBJECT_MOVE would be (R277), which
the text does not state (DESIGN CHOICE, log entry 113). -/
def Device.homeObject (d : Device) (lap h : Nat) : Nat × Device :=
  match d.entry h with
  | none => (St.ok, d)
  | some o =>
    if o.tier ≠ 4 - lap ∨ (o.move = .crossing ∧ o.moveTier = 3 + lap) then (St.ok, d)
    else if o.lost then (St.objectLost, d)
    else if o.move ≠ .settled ∨ o.poisoned ∨ 0 < o.pins then (St.busy, d)
    else if !d.slowTakes lap (d.storedSectors h o) then (St.noSpace, d)
    else
      let (at_, d) := d.sectorPlace lap (mapSectors o.size)
      (St.ok, (d.startMove h .crossing (3 + lap) at_).checkLowWater lap 0)

/-- The slow objects of every layer are homed; the first that cannot be decides the refusal. -/
def Device.homeLayers (d : Device) : Nat × Device :=
  (d.run.layers.flatMap (fun e => (slowObjects e).map (fun h => (Le.lapidary e, h)))).foldl (fun acc x =>
    if acc.1 = St.ok then acc.2.homeObject x.1 x.2 else acc) (St.ok, d)

/-- The pins the run itself holds on an object. -/
def Device.runPins (d : Device) (h : Nat) : Nat :=
  (d.run.listed.filter (fun x => match tget d.stages x with
    | some s => s.pinned.contains h
    | none => false)).length + (if d.run.pinned.contains h then 1 else 0)

/-- The objects engines read that are not SETTLED in FAST yet carry no pin of the run until they are (R250). -/
def Device.unpinLate (d : Device) : Device :=
  let late := (d.armNeeds.filter (fun h => !d.ready h)).map (fun h => (h, d.runPins h))
  let d := d.each late (fun d p => d.modEntry p.1 (fun e => { e with pins := e.pins - p.2 }))
  d.onRun (fun r => { r with arm := r.arm.map (fun a => { a with late := late }) })

/-- Step 4: pins, and the promotion of what engines read before it is pinned. -/
def Device.pinAll (d : Device) : Nat × Device :=
  let mine := d.tableObjects
  if mine.any (fun h => ((d.entry h).map (fun e => decide (255 ≤ e.pins))).getD false) then (St.noSpace, d)
  else
    let d := d.onRun (fun r => { r with pinned := mine })
    if d.runObjects.any (fun h => ((d.entry h).map (·.lost)).getD false) then (St.objectLost, d)
    else if !d.armFits then (St.noSpace, d)
    else match d.homeLayers with
    | (st, d) =>
      if st ≠ St.ok then (st, d) else
      let d := (d.each mine Device.addPin).unpinLate
      let guard := d.runObjects.filter (fun h => 1 ≤ d.kindOf h) ++
        (d.trainStages.filter (fun p => Desc.anchor p.2.desc)).map (fun p => Desc.stash p.2.desc)
      let d := d.onRun (fun r => { r with guarded := guard.eraseDups })
      (St.ok, d.each d.armNeeds (fun d h => d.awaitObject h none .arm noStage (d.get Obj.takeNumber)))

/-- The objects arming changes before it is complete. -/
def armChanges : List Nat :=
  [Obj.takeNumber, Obj.gradScaleExp, Obj.gradScaleCleanRun, Obj.consecutiveRetakes, Obj.logHead, Obj.logSequence,
   Obj.recipeDigest, Obj.peersLost, Obj.deferredHighWater, Obj.statsRecordCount, Obj.fallbackDenied, Obj.fallbackFirstDenied,
   Obj.stashesReleased, Obj.codebookRoundings]

/-- Steps 1 to 4 of an ARM that RUN_CONTROL has accepted. A refusal leaves the device as it was before them. -/
def Device.armBegin (d : Device) : Device :=
  let st := d.armReady
  if st ≠ St.ok then d.armRefused st
  else
    let st := d.checkTables
    if st ≠ St.ok then (d.onlyIf (st == St.range) (fun d => d.tiedEvent (tiedLayers d.layerEntries))).armRefused st
    else match d.bindRun with
      | (st, b) =>
        if st ≠ St.ok then (d.tiedEvent (tiedStages b.trainStages)).armRefused st
        else match b.copyTables.pinAll with
          | (st, b) =>
            if st ≠ St.ok then d.armRefused st
            else
              let prior := armChanges.map (fun k => (k, d.get k))
              ((b.onRun (fun r => { r with arm := r.arm.map (fun a => { a with prior := prior }) })).put Obj.peersLost 0).put
                Obj.deferredHighWater 0

/-- RUN_CONTROL by its command and RUN_STATE (R360). -/
def runControlEffect : Effect := fun d _ v =>
  let s := d.runState
  if v = 1 then (if s = 0 then (St.pending, d.setRunState 1) else (St.busy, d))
  else if v = 2 then
    (if s = 0 then (St.notReady, d) else if s = 2 then (St.ok, (d.setRunState 3).admitTake) else (St.busy, d))
  else if v = 3 then
    (if s = 0 then (St.ok, d)
      else if s = 2 ∨ s = 3 then (St.pending, (d.onRun (fun r => { r with stopAtOnce := s == 2 })).setRunState 4) else (St.busy, d))
  else (St.range, d)

/-- RUN_CONTROL_ARM (R360, R478 steps 1 to 4). -/
def execRunControlArm (rq : Req) (s : State) := onReq s rq (fun d =>
  let d := d.command rq Obj.runControl 1 runControlEffect
  if d.runState = 1 ∧ d.run.arm = none then d.armBegin else d)

/-- RUN_CONTROL_START (R360). -/
def execRunControlStart (rq : Req) (s : State) := onReq s rq (fun d => d.command rq Obj.runControl 2 runControlEffect)

/-- RUN_CONTROL_STOP (R360, R361 step 1). -/
def execRunControlStop (rq : Req) (s : State) := onReq s rq (fun d => d.command rq Obj.runControl 3 runControlEffect)

/-! ### Fallback placement (R126) -/

/-- A narrow copy that the fallback copy replaces is released where nothing but the run pins it. -/
def Device.narrowGoes (d : Device) (x : Faller) : Bool :=
  match d.entry x.narrow with
  | some o => o.tier == 2 && o.move == .settled && o.pins ≤ d.runPins x.narrow
  | none => false

/-- What a layer's fallback needs and what its narrow copy gives back, in units. -/
def Device.fallbackNeed (d : Device) (x : Faller) : Nat × Nat :=
  (if d.inFast x.fallback then 0 else d.sizeOf x.fallback, if d.narrowGoes x then d.sizeOf x.narrow else 0)

/-- The extra units all the layers need together. -/
def Device.extraUnits (d : Device) : Nat :=
  let ns := d.fallers.map d.fallbackNeed
  (ns.map (·.1)).sum - (ns.map (·.2)).sum

/-- The anchor layers that may be released, in descending layer: not a lane's first anchor. -/
def Device.releasableAnchors (d : Device) : List Nat :=
  let as := (d.trainStages.filter (fun p => p.2.anchor)).map (·.2)
  let first : Stage → Bool := fun s => as.all (fun o =>
    Desc.lane o.desc != Desc.lane s.desc || Desc.lanePosition s.desc ≤ Desc.lanePosition o.desc)
  (((as.filter (fun s => !first s)).map (fun s => Desc.layer s.desc)).foldl (fun l x => insertNat x l) []).reverse

/-- A released stash leaves the fast tier for a Lapidary, since R245 allows it no other home; one that no Lapidary takes (R257)
stays. The move is over at once: how long it takes is timing. -/
def Device.stashOut (d : Device) (h : Nat) : Device :=
  match d.demote h with
  | none => d
  | some d => match d.entry h with
    | some e => (d.addTo Obj.bytesMoved (e.size * blockBytes)).demoted h e
    | none => d

/-- An anchor layer becomes a recompute layer (R105): its stash space is free. -/
def Device.releaseAnchor (d : Device) (layer : Nat) : Device :=
  d.each (d.layerStages 0 layer) (fun d p =>
    if p.2.anchor then
      let h := Desc.stash p.2.desc
      let d := d.onStage p.1 (fun s => { s with anchor := false })
      d.onlyIf (((d.entry h).map (fun o => o.tier == 2 && o.move == .settled && o.pins == 0)).getD false) (·.stashOut h)
    else d)

/-- Step 2: anchors go until the space suffices or none is left. -/
def Device.releaseAnchors (d : Device) : List Nat → Device
  | [] => d
  | l :: rest =>
    if d.extraUnits ≤ d.fastFree then d
    else ((d.releaseAnchor l).addTo32 Obj.stashesReleased 1).releaseAnchors rest

/-- A copy is created in the fast tier: one the Lapidary will write is good data then. One that a host supplied keeps what it
holds, and where it holds nothing yet it waits for its supply (R271). -/
def Device.createCopy (d : Device) (h : Nat) (written : Bool) : Option Device :=
  match d.entry h with
  | none => none
  | some o =>
    if o.tier = 2 then some d
    else match d.place o.size (d.dieOrder o.hintDie none) with
      | some (loc, d') =>
        if !written ∧ o.tier = 1 then some d
        else some (((d'.invalidate h).modEntry h (fun o => { o with
          tier := 2, move := .settled, moveTier := 0, location := loc, target := 0, sectors := 0, degraded := false,
          poisoned := o.poisoned && !written, lost := o.lost && !written })).dropMap h)
      | none => none

/-- Step 3: a layer's fallback copy is created where it fits, its narrow copy released with it. -/
def Device.placeFallback (d : Device) (x : Faller) : Option Device :=
  (d.onlyIf (d.narrowGoes x) (·.makeAbsent x.narrow)).createCopy x.fallback x.written

/-- Step 4: a layer that stays narrow. -/
def Device.denyFallback (d : Device) (x : Faller) : Device :=
  let d := d.each (d.layerStages 0 x.layer) (fun d p => d.onStage p.1 (fun s => { s with fallback := false, denied := true }))
  let first := d.get Obj.fallbackFirstDenied
  let d := (d.addTo32 Obj.fallbackDenied 1).put Obj.fallbackFirstDenied (if first = noObject then x.layer else first)
  (d.createCopy x.narrow x.written).getD d

/-- Steps 3 and 4, in ascending order of layer number. -/
def Device.placeFallbacks (d : Device) (full : Bool) : List Faller → Device
  | [] => d
  | e :: rest =>
    if full then (d.denyFallback e).placeFallbacks true rest
    else match d.placeFallback e with
      | some d => d.placeFallbacks false rest
      | none => (d.denyFallback e).placeFallbacks true rest

/-- Fallback placement for all the layers of the run together. -/
def Device.fallbackPlacement (d : Device) : Device :=
  let d := ((d.put Obj.fallbackDenied 0).put Obj.fallbackFirstDenied noObject).put Obj.stashesReleased 0
  let d := if d.fallers.isEmpty then d else d.releaseAnchors d.releasableAnchors
  let kept := ((d.saveObjects (d.fallers.flatMap (fun x => [x.fallback, x.narrow]))).run.arm.map (·.saved)).getD []
  let d := d.placeFallbacks false d.fallers
  let d := d.onRun (fun r => { r with arm := r.arm.map (fun a => { a with saved := kept }) })
  let fell := (d.trainStages.filter (fun p => p.2.fallback)).map (fun p => Desc.layer p.2.desc)
  let layers := fell.foldl (fun l x => insertNat x l) []
  let d := d.each layers (fun d l => match d.layerStages 0 l with
    | p :: _ => d.fallbackEvent p.2.desc
    | [] => d)
  let d := d.put Obj.fallbackLayers (layers.length + d.servingFallbacks)
  if d.get Obj.fallbackDenied = 0 then d
  else d.raise 0x0403 [a4 (d.get Obj.fallbackFirstDenied), a4 (d.get Obj.fallbackDenied)]

/-! ### Peers (R288, R318) -/

/-- The first 8 bytes of SHA-512 over JOB_SEED. -/
def Device.seedCheck (d : Device) : Nat := leAt (sha512 (leBytes 32 (d.get Obj.jobSeed))) 0 8

/-- IDENTITY on a link: JOB_RANK, the port's number and the 8 bytes of the seed. The text gives no layout of its payload. -/
def Device.sendIdentity (d : Device) (l : Nat) : Device :=
  match d.portOfLink l with
  | none => d
  | some p =>
    let peer := portPeer (d.portConfig p)
    let body := leBytes 2 (d.get Obj.jobRank) ++ leBytes 1 p ++ leBytes 8 d.seedCheck
    let id := tgetD d.net.nextId peer 0
    let d := d.onNet (fun n => { n with nextId := tset n.nextId peer ((id + 1) % 2 ^ 32) })
    let d := d.emit (.message peer ⟨d.get Obj.jobRank, 0xFFFF, id, 0, 0, 0xFF, 0, false, body⟩)
    d.queueOn l Vc.control peer (messageBytes Kind.identity false 0xFFFF id 0 0 0xFF 0 body)

/-- Message numbers count from 0, and every link of an enabled port that is trained exchanges identity. A link of an earlier
run is identified again. -/
def Device.openPeers (d : Device) : Device :=
  let d := d.onNet (fun n => { n with
    nextId := [], sent := [], accepted := [], lost := [], heard := [], unreachable := [], portsDown := [], belowMin := false,
    links := n.links.map (fun p => (p.1, { p.2 with
      state := if p.2.state = .up ∨ p.2.state = .spare then .trained else p.2.state, service := false, matched := false, mismatch := none })) })
  d.each ((List.range 96).filter (fun l => (d.link l).state == .trained)) (fun d l => d.sendIdentity l)

/-- HELLO to the double (R318, R326). -/
def Device.sendHello (d : Device) (r : Nat) : Device :=
  let p := d.get Obj.takeNumber
  d.sendChunk r p (chunkHead Ck.hello false 0 0 noObject p ++ leBytes 2 (d.get Obj.jobRank) ++ leBytes 1 d.ctl.feedId ++ [0] ++
    leBytes 8 ((d.stilled.map d.sizeOf).sum))

/-- The double a training device must hear from; none on a device that trains nothing. -/
def Device.armDouble (d : Device) : Option Nat := if d.run.listed = [] then none else d.double

/-- DOUBLE_ASSIGN names the device's own rank, or none of the job (R318). -/
def Device.doubleWrong (d : Device) : Bool :=
  match d.armDouble with
  | some r => r == d.get Obj.jobRank || d.get Obj.jobSize ≤ r
  | none => false

/-! ### Steps 5 to 8 -/

/-- The take P of the printed state the run starts from (R201, R317). -/
def Device.startTake (d : Device) : Nat :=
  match d.run.arm with
  | some a =>
    if a.restored then d.get Obj.takeNumber
    else if d.run.listed = [] ∧ d.get Obj.replayUntil ≠ 0 then d.get Obj.stillRestoreTake
    else if d.get Obj.takeNumber = 0 then 0 else d.run.lastPrint
  | none => 0

/-- The records of a replay from take P, or the refusal (R314, R317). -/
def Device.replayCheck (d : Device) (p : Nat) : Nat × List ReplayRecord :=
  let q := d.get Obj.replayUntil
  if q = 0 then (St.ok, [])
  else
    let restored := (d.run.arm.map (·.restored)).getD false
    let h := d.get Obj.replayLogObject
    if (d.run.listed ≠ [] ∧ !restored) ∨ q ≤ p ∨ !d.names h then (St.range, [])
    else match d.replayRecords h (leBytes 64 (d.get Obj.recipeDigest)) (q - p) 0 (p + 1)
        (if d.run.listed = [] then none else some (leBytes 64 (d.get Obj.logHead))) with
      | some rs => (St.ok, rs)
      | none => (St.range, [])

/-- A device that trains nothing follows the takes from P, and the head of its chain is the one its first record names
(R317). -/
def Device.adoptHead (d : Device) (p : Nat) : Device :=
  if d.run.listed = [] then
    (d.put Obj.logHead (leNat (d.readBytes (d.get Obj.replayLogObject) 64 64))).put Obj.takeNumber p
  else d

/-- The still of the double is due once the run is armed (R324); without traces (R322). -/
def Device.firstStill (d : Device) (p : Nat) : Device :=
  if d.run.listed = [] then d
  else
    let d := d.onStill (fun s => { s with methods := [], due := some (p, true), snap := [], printed := [], traces := [] })
    if d.log.replay = [] then d else d.snapStill p

/-- The tables of the run are written back (R208). -/
def Device.writeBack (d : Device) : Device :=
  let gt := d.get Obj.groupTableObject
  let lt := d.get Obj.layerTableObject
  let gs := d.run.groups
  let es := d.run.layers
  let d := d.each (List.range gs.length) (fun d i =>
    let g := gs.getD i 0
    let d := d.writeNat gt (256 * i + 32) 4 (Ge.position g)
    d.each (List.range 4) (fun d k => d.writeNat gt (256 * i + 64 + 24 * k + 20) 4 (Ge.power (Ge.record g k))))
  d.each (List.range es.length) (fun d i => d.writeNat lt (64 * i + 56) 4 (Le.versionCount (es.getD i 0)))

/-- Step 8: the run is ARMED. -/
def Device.armCompletes (d : Device) : Device :=
  match d.run.arm with
  | none => d
  | some a =>
    let p := d.run.fromTake
    let d := d.onlyIf a.restored (·.writeBack)
    let co := a.answered && (a.feed == d.ctl.feedId || a.feed == 0 || d.ctl.feedId == 0)
    let d := ((d.put Obj.doubleFeedId (if a.answered then a.feed else 0xFF)).put Obj.doubleState
      (if !a.answered then 0 else if co then 2 else 1)).riskSource Src.coFed (if co then 2 else 0)
    let d := d.onlyIf co (·.raise 0x0B07 [a2 (d.double.getD 0), a1 a.feed])
    let record : LogRecord := { kind := 0, take := p, signed := true, dict := d.run.dictDigest, state := d.run.fromDigest }
    let d := if d.log.replay = [] then (d.record record).put Obj.replayState 0 else (d.adoptHead p).put Obj.replayState 1
    let d := d.onRun (fun r => { r with arm := none, lastPrint := p, stream0 := true, pinWait := [] })
    (((d.firstStill p).put Obj.armStatus St.ok).setRunState 2).runFinal 1 St.ok

/-- Every enabled port has an UP link, no trained link of one is without an identity, and the double has answered. -/
def Device.peersReady (d : Device) : Bool :=
  d.enabledPorts.all (fun p =>
    let c := d.portConfig p
    d.upLinks p != [] && (maskLinks p (portMembers c ||| portSpares c)).all (fun l => (d.link l).state != .trained)) &&
  (d.armDouble.isNone || (d.run.arm.map (·.answered)).getD false)

/-- The arming goes on to step 8 once its peers are here. -/
def Device.armTry (d : Device) : Device :=
  match d.run.arm with
  | some a => if a.phase = .peers ∧ d.peersReady then d.armCompletes else d
  | none => d

/-- The arming changed. -/
def Device.onArm (d : Device) (f : Arm → Arm) : Device := d.onRun (fun r => { r with arm := r.arm.map f })

/-- Steps 5, past a restore, to 7. Step 6 waits where an older version is held in its way (R231). -/
def Device.armFrom (d : Device) : Device :=
  let p := d.startTake
  match d.replayCheck p with
  | (st, rs) =>
    if st ≠ St.ok then d.armUndo st
    else if d.doubleWrong then d.armUndo St.range
    else
      let stageless := d.run.listed = []
      let d : Device := { d with log := { d.log with replay := rs, replayFrom := p } }
      let d := d.onStill (fun s => { s with methods := [] })
      let digest := if stageless then List.replicate 64 0 else d.stateDigest (d.manifestOf (d.manifestHead p) d.manifestTrackers)
      let dict := d.dictDigest
      let d := d.onRun (fun r => { r with fromTake := p, fromDigest := digest, dictDigest := dict })
      match d.armingHeld p with
      | some layer => (d.onArm (fun a => { a with phase := .versions })).pinnedWait layer p
      | none =>
        let d := d.saveObjects (d.run.layers.flatMap versionObjects)
        let d := d.onArm (fun a => { a with priorVersions := d.run.layers.map (fun e => (Le.layer e, tgetD d.versions (Le.layer e) [])) })
        let d := (d.armingVersions p).onArm (fun a => { a with phase := .peers })
        let d := match d.armDouble with
          | some r => d.sendHello r
          | none => d
        d.armTry

/-- The object a manifest names is there as it names it (R328 step 3). -/
def Device.stillObjectFits (d : Device) (o : Nat × Nat × Nat × Nat) : Bool :=
  match d.entry o.1 with
  | some e => e.size == o.2.1 && e.kind == o.2.2.1 && d.run.layers.all (fun l =>
      !(slowObjects l).contains o.1 || e.tier == 3 + Le.lapidary l || (e.move == .crossing && e.moveTier == 3 + Le.lapidary l))
  | none => false

/-- Everything the run pins stands as step 4 asks: engines' objects in the fast tier, the others not moving. -/
def Device.pinsSettled (d : Device) : Bool :=
  d.armNeeds.all d.ready && d.runObjects.all (fun h => d.engineReads h || ((d.entry h).map (·.move)).getD .settled == .settled)

/-- RESTORE_REQUEST to the double (R326, R328). -/
def Device.askStill (d : Device) (r : Nat) : Device :=
  let t := d.get Obj.stillRestoreTake
  (d.sendChunk r t (chunkHead Ck.restore false 0 0 noObject t ++ leBytes 1 (d.get Obj.stillRestore) ++ List.replicate 7 0 ++
    leBytes 8 t)).put Obj.stillState 2

/-- The promotions have settled: a pin above 255 fails the request (R250); else fallback placement, the recipe digest, the peers, and the restore where one is asked. -/
def Device.armSettled (d : Device) : Device :=
  match d.run.arm with
  | none => d
  | some a =>
    if a.phase = .versions then d.armFrom
    else if a.phase ≠ .promoting ∨ !d.pinsSettled then d
    else if a.late ≠ [] then d.armUndo St.noSpace
    else
      let d := d.fallbackPlacement
      let d := (d.put Obj.recipeDigest (leNat d.recipeDigest)).openPeers
      if d.get Obj.stillRestore = 0 then d.armFrom
      else match d.double with
        | none => d.armUndo St.notReady
        | some r =>
          if r = d.get Obj.jobRank ∨ d.get Obj.jobSize ≤ r then d.armUndo St.range
          else (d.onArm (fun a => { a with phase := .restoring })).askStill r

/-- ARM_PROMOTIONS_SETTLED (R478 steps 4 to 7). -/
def execArmPromotionsSettled (s : State) := onDev s Device.armSettled

/-- ARM_PEER_WAIT_MS has passed (R288, R318): a link that received another identity is MISWIRED; the arming fails where a
port has no UP link or the double has not answered. -/
def Device.peerWaitEnds (d : Device) : Device :=
  match d.run.arm with
  | none => d
  | some a =>
    if a.phase = .promoting ∨ a.phase = .versions then d
    else
      let bad := (List.range 96).filterMap (fun l => ((d.link l).mismatch).map (fun m => (l, m)))
      let d := d.each (bad.filter (fun x => (d.link x.1).state == .trained)) (fun d x =>
        (d.onLink x.1 (fun y => { y with state := .miswired })).raise 0x0A02 [a2 x.1, a2 x.2.1, a2 x.2.2])
      let ok := d.enabledPorts.all (fun p => d.upLinks p != []) && a.phase == .peers && (d.armDouble.isNone || a.answered)
      if ok then d.armCompletes else d.armUndo St.notReady

/-- ARM_PEER_WAIT_EXPIRY (R288). -/
def execArmPeerWaitExpiry (s : State) := onDev s Device.peerWaitEnds

/-- The hold limit of an object the arming waits for passes (R270): the arming ends with OBJECT_LOST. -/
def Device.armHoldExpires (d : Device) (h : Nat) : Device :=
  if d.ms.waiters.contains (h, .arm) ∧ d.holdBears h then
    ((d.onMs (fun m => { m with waiters := m.waiters.filter (· != (h, .arm)) })).objectLost h (d.get Obj.takeNumber)).armUndo
      St.objectLost
  else d

/-! ### The stop (R361) -/

/-- Updates that are still due on a Lapidary that is not lost. -/
def Device.updatesDue (d : Device) : Bool := d.run.updates.any (fun u => d.lapidaryLives u.1)

/-- Records of the run still to be written; a failed signing engine writes none (R455). -/
def Device.logDue (d : Device) : Bool := !d.log.waiting.isEmpty && !d.sec.signFailed

/-- The work of the run is done: the verdict is in, the updates are complete, and no still is in progress or due. -/
def Device.runDone (d : Device) : Bool :=
  d.run.take.isNone && !d.updatesDue && d.still.job.isNone && (d.still.due.isNone || d.sec.signFailed)

/-- Step 4: what the run computed goes back into the tables, and the STOP record is due. -/
def Device.stopTables (d : Device) : Device :=
  let d := match d.run.nextCg with
    | some v => d.put Obj.gradScaleExp v
    | none => d
  (d.writeBack.record { kind := 2, take := d.get Obj.takeNumber, signed := true, dict := d.run.dictDigest }).onRun (fun r => { r with
    stopLogged := true, nextCg := none })

/-- Steps 5 and 6. -/
def Device.stopEnds (d : Device) : Device :=
  let d : Device := { d with log := { d.log with waiting := [] } }
  ((d.disarm.applyStaged).setRunState 0).runFinal 3 St.ok

/-- STOP_COMPLETE (R361 steps 2 to 6): the STOP record is due once the work is done, at once where the run was ARMED, and the stop ends once it is written. -/
def Device.stop (d : Device) : Device :=
  if d.runState ≠ 4 then d
  else
  let d := d.settleUpdates
  if !d.run.stopLogged then (if d.runDone ∨ d.run.stopAtOnce then d.stopTables else d)
  else if d.logDue then d
  else d.stopEnds

def execStopComplete (s : State) := onDev s Device.stop

end Sys2Proof.Machine
end

