-- ==== Sys2Proof/Machine/Governor.lean ====
section
/-!
DEFINITION. The governor (chapter 15): the sensors (R427 to R430), the plate model (R431), the valve (R432 to R434), the
thermal limits (R435, R437) and the draw (R436, R438 to R441). Its arithmetic is FP32, one rounding an operation, in the
order written (DEDUCED, log entry 13: the text states no format).
-/
namespace Sys2Proof.Machine

/-- Milliunits as FP32. -/
def fMilli (z : Int) : Nat := (toFloat Fmt.fp32 .rne (.fin (z < 0) z.natAbs 1000)).code

def fexp (a : Nat) : Nat := (f32un Val.exp a).1

def flog (a : Nat) : Nat := (f32un Val.log a).1

/-- x^y of two FP32 numbers, rounded once from the exact power (R66). -/
def fpow (x y : Nat) : Nat := (f32bin Val.pow x y).1

/-- The FP32 constants the rules name. -/
def f298_15 : Nat := 0x43951333
def f273_15 : Nat := 0x43889333
def f0_001 : Nat := 0x3A83126F
def f2 : Nat := 0x40000000
def f0_1 : Nat := 0x3DCCCCCD

/-- A field notice of this chapter. -/
def Device.sensorFault (d : Device) (sensor die index : Nat) : Device := d.raiseNotice 0x0F02 [a1 sensor, a1 die, a1 index]

/-- A bit of SENSOR_STATUS set to a value. -/
def Device.sensorBit (d : Device) (b : Nat) (v : Bool) : Device := d.put Obj.sensorStatus (putBit (d.get Obj.sensorStatus) b v)

/-- A board sensor's fault bit; SENSOR_FAULT at its setting. What such a fault carries as die and index is not stated. -/
def Device.boardFault (d : Device) (b : Nat) (v : Bool) : Device :=
  let was := bit (d.get Obj.sensorStatus) b
  let d := d.sensorBit b v
  if v && !was then
    let (n, d) := d.draw
    d.sensorFault b (Config.unstated n % 256) (Config.unstated n / 256 % 256)
  else d

/-! ### Die sensors -/

def insertInt (x : Int) : List Int → List Int
  | [] => [x]
  | y :: ys => if x ≤ y then x :: y :: ys else y :: insertInt x ys

def sortInts (xs : List Int) : List Int := xs.foldl (fun l x => insertInt x l) []

/-- Twice the median. -/
def median2 (xs : List Int) : Int :=
  let s := sortInts xs
  let n := s.length
  s.getD ((n - 1) / 2) 0 + s.getD (n / 2) 0

/-- The highest of some temperatures. -/
def maxInts : List Int → Option Int
  | [] => none
  | x :: xs => some (xs.foldl max x)

/-- The sensors of a part, by index, that lie within 15 °C of the median of their die (R427). -/
def validSensors (xs : List Int) : List (Nat × Int) :=
  let m := median2 xs
  ((List.range xs.length).map (fun i => (i, xs.getD i 0))).filter (fun p => (2 * p.2 - m).natAbs ≤ 30000)

/-- The key of a sensor of a part. -/
def sensorKey (part i : Nat) : Nat := 32 * part + i

/-- The sensors of one part are sampled: the ones out of line are excluded, and the part's junction follows. -/
def Device.samplePart (d : Device) (part : Nat) (xs : List Int) : Device :=
  let good := validSensors xs
  let bad := (List.range xs.length).filter (fun i => !good.any (fun p => p.1 == i))
  let d := d.each (bad.filter (fun i => !d.gov.faultSensors.contains (sensorKey part i))) (fun d i => d.sensorFault 3 part i)
  let keep := d.gov.faultSensors.filter (fun k => k / 32 != part)
  let d := d.onGov (fun g => { g with faultSensors := keep ++ bad.map (sensorKey part) })
  match maxInts (good.map (·.2)) with
  | none => d
  | some t =>
    let f := fMilli t
    let d := d.onGov (fun g => { g with junction := tset g.junction part f })
    if part < 4 then d.put (Obj.dieTempCd + part) f else d

/-- Thermal trip (R437): THERMAL_TRIP and clock hold. -/
def Device.thermalTrip (d : Device) (part sensor : Nat) (t : Int) : Device :=
  if d.gov.trip then d
  else
    let d := (d.onGov (fun g => { g with trip := true })).raiseNotice 0x0F05 [a1 part, a1 sensor, a4 (fMilli t)]
    if d.pwr.hold then d else d.clockHold

/-- The thermal source of the risk level (R329). -/
def Device.thermalRisk (d : Device) : Device :=
  let p := if d.gov.throttle.any (fun t => t.2.active) then 2
    else if fle 0x42BE_0000 d.gov.hottest && d.gov.junction != [] then 1 else 0
  if tgetD d.risk.now Src.thermal 0 = p then d else d.riskSource Src.thermal p

/-- DIE_SENSOR_SAMPLE (R427, R428, R435): the sensors of CD0 to CD3, Lapidaries A and B and the hub, and the stacks'
own temperatures. -/
def Device.sampleDies (d : Device) (parts : List (List Int)) (hbm : List Int) : Device :=
  let d := d.each (List.range 7) (fun d p => if parts.getD p [] = [] then d else d.samplePart p (parts.getD p []))
  let d := d.onGov (fun g => { g with hbmTemp := (List.range (min 8 hbm.length)).map (fun i => (i, fMilli (hbm.getD i 0))) })
  let js := d.gov.junction.map (·.2)
  match js with
  | [] => d
  | j :: rest =>
    let top := rest.foldl fmax j
    let d := (d.put Obj.junctionMaxC top).onGov (fun g => { g with hottest := top })
    let beyond := (List.range 7).findSome? (fun p =>
      ((validSensors (parts.getD p [])).find? (fun x => 110000 ≤ x.2)).map (fun x => (p, x.1, x.2)))
    let d := match beyond with
      | some (p, i, t) => d.thermalTrip p i t
      | none => d
    d.thermalRisk

def execDieSensorSample (milliC : List (List Int)) (hbmMilliC : List Int) (s : State) :=
  onDev s (fun d => d.sampleDies milliC hbmMilliC)

/-! ### Coolant -/

/-- The temperature of a thermistor of resistance r (R428). -/
def Device.thermistorC (d : Device) (r : Nat) : Nat :=
  let l := fdiv (flog (fdiv r (d.get Obj.thR25Ohm))) (d.get Obj.thBetaK)
  fsub (fdiv fOne (fadd (fdiv fOne f298_15) l)) f273_15

/-- One thermistor: the mean of its last 16 samples, its fault, its temperature. -/
def Device.thermistor (d : Device) (key b : Nat) (samples : List Nat) : Device :=
  let n := samples.length
  let sum := samples.sum
  let bad := 400_000_000 * n < sum || sum < 200_000 * n
  let d := d.boardFault b bad
  if bad then d else d.put key (d.thermistorC (fOfFrac sum (1000 * n)))

/-- THERMISTOR_SAMPLE (R427, R428). -/
def Device.thermistors (d : Device) (i o : Nat) : Device :=
  let d := d.onGov (fun g => { g with thInOhm := (i :: g.thInOhm).take 16, thOutOhm := (o :: g.thOutOhm).take 16 })
  (d.thermistor Obj.thInC 0 d.gov.thInOhm).thermistor Obj.thOutC 1 d.gov.thOutOhm

def execThermistorSample (inMilliOhm outMilliOhm : Nat) (s : State) := onDev s (fun d => d.thermistors inMilliOhm outMilliOhm)

/-- FLOW_PULSE (R428): F = 960 / (TH_PERIOD × FLOW_K_PER_L), with the span of the last 16 pulse periods in microseconds. -/
def Device.flow (d : Device) (spanUs : Nat) : Device :=
  if spanUs = 0 then d
  else
    let f := fdiv (fOfInt 960) (fmul (fOfFrac spanUs 1000000) (d.get Obj.flowKPerL))
    (d.put Obj.flowLpm f).sensorBit 2 false

def execFlowPulse (spanUs : Nat) (s : State) := onDev s (fun d => d.flow spanUs)

/-- FLOW_TIMEOUT (R427): the flow is lost. -/
def execFlowTimeout (s : State) := onDev s (fun d => (d.put Obj.flowLpm 0).boardFault 2 true)

/-- The envelope of R429: 15 to 45 °C, 1.5 to 4.0 L/min. -/
def Device.inletOutside (d : Device) : Bool := flt (d.get Obj.thInC) 0x41700000 || flt 0x42340000 (d.get Obj.thInC)
def Device.flowOutside (d : Device) : Bool := flt (d.get Obj.flowLpm) 0x3FC00000 || flt 0x40800000 (d.get Obj.flowLpm)

/-- One bit of the envelope: COOLANT_ENVELOPE at each change. -/
def Device.envelopeBit (d : Device) (b : Nat) (v : Bool) : Device :=
  if bit (d.get Obj.sensorStatus) b = v then d
  else
    let d := d.sensorBit b v
    d.raiseNotice 0x0F01 [a4 (d.get Obj.sensorStatus), a4 (d.get Obj.thInC), a4 (d.get Obj.flowLpm)]

/-- COOLANT_ENVELOPE (R429): the readings have stood on their side of the envelope for 1 s. -/
def execCoolantEnvelope (s : State) :=
  onDev s (fun d => (d.envelopeBit 3 d.inletOutside).envelopeBit 4 d.flowOutside)

/-- The mean of draws in microwatts, as FP32 watts. -/
def meanW (xs : List Nat) : Nat := if xs = [] then 0 else fOfFrac xs.sum (1000000 * xs.length)

/-- COOLANT_HEAT_CHECK (R430). -/
def Device.heatCheck (d : Device) : Device :=
  let heat := fmul (fmul (d.get Obj.coolantHeatCap) (fdiv (d.get Obj.flowLpm) (fOfInt 60)))
    (fsub (d.get Obj.thOutC) (d.get Obj.thInC))
  let draw := meanW (d.gov.draws.take 1000)
  let apart := flt (fmul draw 0x3E800000) (fAbs (fsub heat draw))
  let n := if apart then d.gov.mismatchS + 1 else 0
  let d := d.onGov (fun g => { g with mismatchS := n })
  if n = 10 then (d.sensorBit 5 true).raise 0x0F03 [a4 heat, a4 draw] else d

def execCoolantHeatCheck (s : State) := onDev s Device.heatCheck

/-! ### Draw -/

/-- PMBUS_POLL (R436): the sum of READ_VOUT × READ_IOUT over every regulator, in millionths of a watt. -/
def Device.poll (d : Device) (uw : Nat) : Device :=
  let window := d.get Obj.floorWindowMs
  let d := d.onGov (fun g => { g with draws := (uw :: g.draws).take 60000 })
  (d.put Obj.drawW (fOfFrac uw 1000000)).put Obj.trailingMeanW (meanW (d.gov.draws.take window))

def execPmbusPoll (microvoltAmps : Nat) (s : State) := onDev s (fun d => d.poll microvoltAmps)

/-- The bounds of R438 for the millisecond after one that drew P. -/
def Device.upperBound (d : Device) (p : Nat) : Nat :=
  fmin (fOfInt (d.get Obj.drawLimitW)) (fadd p (fOfInt (d.get Obj.rampUpWPerMs)))
def Device.lowerBound (d : Device) (p : Nat) : Nat :=
  fmin (d.upperBound p) (fmax (fsub p (fOfInt (d.get Obj.rampDownWPerMs)))
    (fmul (fdiv (fOfInt (d.get Obj.floorPct)) (fOfInt 100)) (d.get Obj.trailingMeanW)))

/-- A millisecond that drew less than its lower bound (R440). RAMP_SHORTFALL is raised at most once in 100 ms. -/
def Device.shortfall (d : Device) : Device :=
  match d.gov.lower with
  | some l =>
    let p := d.get Obj.drawW
    if flt p l then
      let d := d.bump Obj.rampShortfalls
      if d.gov.shortfallMs = 0 then
        (d.onGov (fun g => { g with shortfallMs := 100 })).raiseNotice 0x0F06 [a4 (fsub l p), a4 l]
      else d
    else d
  | none => d

/-- The shares of the issue slots of one die for the next millisecond: at most 1,000 per mille, at most 250 at the
junction limit. How the governor finds the share that holds the upper bound is not stated: a free value. -/
def Device.pace (d : Device) : Device :=
  d.each [0, 1, 2, 3] (fun d die =>
    let (n, d) := d.draw
    let top := if (tgetD d.gov.throttle die {}).limited then 250 else 1000
    d.put Obj.pacePmlCd (putBits (d.get Obj.pacePmlCd) (16 * die) 16 (Config.unstated n % (top + 1))))

/-- The filler load of the millisecond (R440), whose watts depend on the draw of the work, which no rule gives: a free
value, 0 outside P0. -/
def Device.filler (d : Device) : Device :=
  if d.powerState = 0 then
    let (n, d) := d.draw
    let w := Config.unstated n % 65536
    let mj := d.gov.fillerMilliJ + w
    let d := d.put Obj.fillerW (fOfInt w)
    (d.addTo Obj.fillerEnergyJ (mj / 1000)).onGov (fun g => { g with fillerMilliJ := mj % 1000 })
  else d.put Obj.fillerW 0

/-- The draw of P0 is bounded (R438 to R441). -/
def Device.boundDraw (d : Device) : Device :=
  let d := d.onGov (fun g => { g with shortfallMs := g.shortfallMs - 1 })
  let d := if d.powerState = 0 then d.shortfall else d
  let d := d.filler
  let d := if d.powerState = 0 then
      (d.onGov (fun g => { g with lower := some (d.lowerBound (d.get Obj.drawW)) })).pace
    else d.onGov (fun g => { g with lower := none })
  let d := d.powerAuto
  if d.fillerHolds then d
  else match d.pwr.step with
    | .p2WaitFiller => d.entry1 2
    | .p3WaitFiller => d.entry1 3
    | _ => d

/-! ### The model, the valve and the thermal limits -/

/-- R(F) of R431. -/
def Device.plateR (d : Device) (f : Nat) : Nat :=
  fadd (d.get Obj.modelRBase) (fmul (d.get Obj.modelRFlow) (fpow (fdiv f2 f) (d.get Obj.modelExponent)))

/-- One update of the plate model (R431). -/
def Device.plate (d : Device) : Device :=
  let f := if bit (d.get Obj.sensorStatus) 2 then f0_1 else d.get Obj.flowLpm
  let r := d.plateR f
  let p := d.get Obj.drawW
  let tIn := d.get Obj.thInC
  let c := d.get Obj.modelCJPerK
  let tm := d.gov.tModel.getD (d.get Obj.junctionMaxC)
  let tss := fadd tIn (fmul p r)
  let tm := fadd tm (fdiv (fmul (fsub p (fdiv (fsub tm tIn) r)) f0_001) c)
  let look := fdiv (fOfInt (d.get Obj.lookaheadMs)) (fOfInt 1000)
  let tp := fadd tss (fmul (fsub tm tss) (fexp (fNegate (fdiv look (fmul r c)))))
  ((d.onGov (fun g => { g with tModel := some tm })).put Obj.modelTempC tm).put Obj.predictedTempC tp

/-- The row of R433 that applies, from 0. -/
def Device.valveRowNow (d : Device) : Nat :=
  if d.pwr.hold ∨ d.gov.trip ∨ bits (d.get Obj.sensorStatus) 0 3 ≠ 0 then 0
  else if d.get Obj.valveOverride ≠ 0xFFFF then 1
  else if d.powerState = 2 ∨ d.powerState = 3 then 2
  else 3

/-- A finite FP32 value in thousandths, as a whole number. -/
def fThousandths (a : Nat) : Int :=
  match floatVal Fmt.fp32 a with
  | .fin neg n den => (roundInt .rne neg (1000 * n) den).1
  | _ => 0

/-- One run of the valve controller (R434). -/
def Device.controlValve (d : Device) (entered : Bool) : Device :=
  let e := fsub (d.get Obj.junctionMaxC) (d.get Obj.valveTargetC)
  let lo : Int := 1000 * (d.get Obj.valveMinPml : Nat)
  let hi : Int := 1000000
  let now : Int := d.gov.dutyMilli
  let i0 := if entered then 0 else d.gov.integral
  let i := if now = lo ∨ now = hi then i0 else fadd i0 (fmul e f0_001)
  let want := fThousandths (fadd (fmul (d.get Obj.valveKp) e) (fmul (d.get Obj.valveKi) i))
  let want := max lo (min hi want)
  let slew : Int := d.get Obj.valveSlewPmlS
  let duty := max (now - slew) (min (now + slew) want)
  (d.onGov (fun g => { g with integral := i, dutyMilli := duty.toNat })).put Obj.valveDuty (duty.toNat / 1000)

/-- The valve of one millisecond (R433). -/
def Device.valve (d : Device) : Device :=
  let row := d.valveRowNow
  let entered := row != d.gov.valveRow
  let d := d.onGov (fun g => { g with valveRow := row })
  let fixed : Nat → Device := fun v => (d.onGov (fun g => { g with dutyMilli := 1000 * v })).put Obj.valveDuty v
  match row with
  | 0 => fixed 1000
  | 1 => fixed (d.get Obj.valveOverride)
  | 2 => fixed (d.get Obj.valveIdlePml)
  | _ => d.controlValve entered

/-- The measured temperature that counts for a die: its junction, and its stacks plus 10 °C. -/
def Device.dieMeasured (d : Device) (die : Nat) : Nat :=
  let j := tgetD d.gov.junction die 0
  [2 * die, 2 * die + 1].foldl (fun m h => match tget d.gov.hbmTemp h with
    | some t => fmax m (fadd t (fOfInt 10))
    | none => m) j

/-- The limit of a die changes; THERMAL_THROTTLE at the first lowering of an episode (R435). -/
def Device.limitTo (d : Device) (die new : Nat) : Device :=
  let old := d.get (Obj.govDvfsLimitCd + die)
  let t := tgetD d.gov.throttle die {}
  let d := d.put (Obj.govDvfsLimitCd + die) new
  if new < old then
    let d := d.onGov (fun g => { g with throttle := tset g.throttle die { t with active := true, coolMs := 0 } })
    if t.active then d
    else (d.bump Obj.throttleEvents).raise 0x0F04 [a1 die, a4 (d.dieMeasured die), a4 (d.get Obj.predictedTempC), a1 new]
  else d

/-- The thermal limits of a die for one millisecond (R435). -/
def Device.throttleDie (d : Device) (die : Nat) : Device :=
  let m := d.dieMeasured die
  let x := fmax m (d.get Obj.predictedTempC)
  let thr := d.get Obj.throttleC
  let lim := d.get (Obj.govDvfsLimitCd + die)
  let t := tgetD d.gov.throttle die {}
  let set : Throttle → Device → Device := fun t d => d.onGov (fun g => { g with throttle := tset g.throttle die t })
  if fle 0x42D20000 m then
    let d := (d.limitTo die 0).onlyIf (!t.limited) (fun d => d.put Obj.pacePmlCd (putBits (d.get Obj.pacePmlCd) (16 * die) 16 250))
    set { tgetD d.gov.throttle die {} with limited := true } d
  else if fle thr x then
    if 0 < lim then d.limitTo die (lim - 1) else set { t with coolMs := 0 } d
  else
    let t := { t with limited := false }
    if lim < 7 then
      let cool := if flt x (fsub thr (fOfInt 3)) then t.coolMs + 1 else 0
      if 10 ≤ cool then
        let d := d.put (Obj.govDvfsLimitCd + die) (lim + 1)
        set { t with coolMs := 0, active := lim + 1 < 7 } d
      else set { t with coolMs := cool } d
    else set { t with active := false, coolMs := 0 } d

/-- The thermal limits of the millisecond. -/
def Device.throttle (d : Device) : Device :=
  let d := d.each [0, 1, 2, 3] Device.throttleDie
  let below := [0, 1, 2, 3].any (fun die => d.get (Obj.govDvfsLimitCd + die) < d.get (Obj.dvfsRequestCd + die))
  (d.onlyIf below (·.bump Obj.throttleMs)).thermalRisk

/-- GOVERNOR_TICK (R431): the model, the valve, the limits and the draw of one millisecond. While the governor's
component is being loaded its controls hold and the valve is open (R485). -/
def Device.govern (d : Device) : Device :=
  match d.sec.liveUpdate with
  | some (2, _) => d.put Obj.valveDuty 1000
  | _ =>
    if d.gov.junction = [] then d.valve.boundDraw
    else d.plate.valve.throttle.boundDraw

def execGovernorTick (s : State) := onDev s Device.govern

end Sys2Proof.Machine
end

