-- ==== Sys2Proof/Machine/StillCmd.lean ====
section
/-!
DEFINITION. The still messages (R318, R319, R322, R324, R326 to R328): what the double stores and answers, what the sender
makes of its answers, and the restore of a still at arming. The scrub pass ends here, since it may find the still store
poisoned.
-/
namespace Sys2Proof.Machine

/-! ### The double's answers -/

/-- The chunk header of an answer: an ACK names no object (R326). Its INDEX and PART are those of the chunk it answers, of which the
text says nothing (DESIGN CHOICE, log entry 49). -/
def answerHead (c : Chunk) : Bytes := chunkHead Ck.ack c.base c.part c.index noObject c.take

/-- An ACK of a chunk (R302: the double answers each). -/
def Device.ackChunk (d : Device) (rank : Nat) (c : Chunk) (status : Nat) (digest : Bytes) : Device :=
  d.sendStillAck rank c.take (answerHead c ++ ackData status (slotNumber c.base) digest)

/-- An ACK that names a slot whose still is lost (R327). -/
def Device.ackLost (d : Device) (rank : Nat) (s : Option StillSlot) : Device :=
  match s with
  | some x =>
    if x.valid then
      d.sendStillAck rank x.take (chunkHead Ck.ack x.base 0 0 noObject x.take ++ ackData St.objectLost (slotNumber x.base) [])
    else d
  | none => d

/-- The slots of the store that hold a valid still, by rank and whether slot B. -/
def Device.validSlots (d : Device) : List (Nat × Bool) :=
  d.still.served.flatMap (fun x =>
    (if (x.slotA.map (·.valid)).getD false then [(x.rank, false)] else []) ++
      (if (x.slotB.map (·.valid)).getD false then [(x.rank, true)] else []))

/-- A stored slot is lost: its device hears of it, and it holds no valid still (R327). Without its base a device has no traces
either. -/
def Device.loseSlot (d : Device) (slot : Nat × Bool) : Device :=
  match d.servedOf slot.1 with
  | none => d
  | some x =>
    let s := if slot.2 then x.slotB else x.slotA
    let base := (s.map (·.base)).getD false
    (d.ackLost x.rank s).onServed slot.1 (fun x => { x with
      slotA := if slot.2 then x.slotA else none, slotB := if slot.2 then none else x.slotB
      traces := if base then [] else x.traces, before := if base then 0 else x.before })

/-- The double finds its store bad (R327): where a block of it is poisoned, the slot that holds the block is lost. The text gives the
store no layout, so that which slot it is is a free value (DESIGN CHOICE, log entry 126). A store that is gone or LOST loses every
slot. -/
def Device.storeCheck (d : Device) : Device :=
  let slots := d.validSlots
  if !d.storeBad then d.onStill (fun s => { s with storeSeen := false })
  else if ((d.entry (d.get Obj.stillStoreObject)).map (fun e => !e.lost)).getD false then
    if d.still.storeSeen then d
    else
      let d := d.onStill (fun s => { s with storeSeen := true })
      if slots = [] then d
      else
        let (n, d) := d.draw
        match slots[Config.unstated n % slots.length]? with
        | some s => d.loseSlot s
        | none => d
  else d.each slots Device.loseSlot

/-- SCRUB_PASS (R273). -/
def execScrubPass (seconds : Nat) (found : List ScrubFinding) (s : State) :=
  onDev s (fun d => (d.scrubbed seconds found).storeCheck)

/-- Blocks the store holds of the devices other than one. -/
def Device.storeUsedBut (d : Device) (rank : Nat) : Nat :=
  ((d.still.served.filter (fun x => x.rank != rank)).map (fun x => 2 * x.blocks + ceilDiv x.traces.length 8)).sum

/-- The status of a HELLO (R318). -/
def Device.helloStatus (d : Device) (rank blocks : Nat) : Nat :=
  if d.get Obj.stageCount ≠ 0 ∨ 8 ≤ (d.still.served.filter (fun x => x.rank != rank)).length then St.range
  else if d.storeBad ∨ d.storeSize < d.storeUsedBut rank + 2 * blocks then St.noSpace
  else St.ok

/-- HELLO (R318, R319): the double takes the device up and answers with a HELLO of its own, or refuses it. -/
def Device.hello (d : Device) (m : Msg) (c : Chunk) : Device :=
  let blocks := leAt c.data 4 8
  let st := d.helloStatus m.src blocks
  if st ≠ St.ok then d.ackChunk m.src c st []
  else
    let d := match d.servedOf m.src with
      | some _ => d.onServed m.src (fun x => { x with blocks := blocks, before := x.traces.length })
      | none => d.onStill (fun s => { s with served := s.served ++ [({ rank := m.src, blocks := blocks } : Served)] })
    d.sendStillAck m.src c.take (chunkHead Ck.hello false 0 0 noObject c.take ++ leBytes 2 (d.get Obj.jobRank) ++
      leBytes 1 d.ctl.feedId ++ [0] ++ leBytes 8 0)

/-! ### Slots -/

/-- The manifest chunks are all here. -/
def StillSlot.whole (s : StillSlot) : Bool :=
  match tget s.manifest 0 with
  | none => false
  | some b => leAt b 0 4 == 0x4E414D51 && (List.range (ceilDiv (leAt b 4 4) 8192)).all (fun i => (tget s.manifest i).isSome)

/-- The digest of a slot once everything its manifest names is here. -/
def Served.wholeDigest (x : Served) (s : StillSlot) : Option Bytes := if s.whole then x.digest s else none

/-- A slot of a served device completes (R324): a new base frees the other slot and drops the traces since the base before it, those
of an earlier run with them. -/
def Served.complete (x : Served) (s : StillSlot) : Served :=
  let s : StillSlot := { s with valid := true }
  if s.base then
    let kept := (x.traces.drop x.before).filter (fun t => s.take < t.1)
    if x.baseInB then { x with slotA := some s, slotB := none, traces := kept, before := 0 }
    else { x with slotA := none, slotB := some s, traces := kept, before := 0 }
  else x.setWriting (some s)

/-- The slot a still failed in: it holds no valid still. -/
def StillSlot.spoiled (s : StillSlot) : StillSlot := { take := s.take, base := s.base }

/-- END is here and everything before it: the double compares the digests (R327). -/
def Device.tryEnd (d : Device) (rank : Nat) (c : Chunk) : Device :=
  match d.servedOf rank with
  | none => d
  | some x =>
    match x.writing with
    | none => d
    | some s =>
      match s.ended, x.wholeDigest s with
      | some e, some found =>
        if s.valid then d
        else
          let head : Chunk := { kind := Ck.end_, base := s.base, part := 0, index := 0, handle := noObject, take := s.take,
                                data := c.data, bad := false }
          if e = found then (d.onServed rank (fun x => x.complete s)).ackChunk rank head St.ok found
          else (d.onServed rank (fun x => x.setWriting (some s.spoiled))).ackChunk rank head St.objectLost found
      | _, _ => d

/-- A chunk of a still goes into the slot it is written into. -/
def Device.intoSlot (d : Device) (rank : Nat) (c : Chunk) (f : StillSlot → StillSlot) : Device :=
  (d.onServed rank (fun x => x.setWriting (some (f (x.slotFor c.take c.base))))).tryEnd rank c

/-- A part of a block. -/
def StillSlot.addPart (s : StillSlot) (c : Chunk) : StillSlot :=
  { s with parts := tset s.parts (partKey c.handle c.index c.part) c.data }

/-- A manifest chunk. -/
def StillSlot.addManifest (s : StillSlot) (c : Chunk) : StillSlot := { s with manifest := tset s.manifest c.index c.data }

/-- END. -/
def StillSlot.addEnd (s : StillSlot) (c : Chunk) : StillSlot := { s with ended := some (slice c.data 0 64) }

/-- A trace: it is kept in take order, or refused where the store has no room for it (R322). -/
def Device.takeTrace (d : Device) (rank : Nat) (c : Chunk) : Device :=
  match d.servedOf rank with
  | none => d
  | some x =>
    if d.storeSize < d.storeUsedBut rank + 2 * x.blocks + ceilDiv (x.traces.length + 1) 8 then d.ackChunk rank c St.noSpace []
    else
      let d := d.onServed rank (fun x => { x with traces := x.traces ++ [(c.take, partKey c.handle c.index c.part, c.data)] })
      (d.ackChunk rank c St.ok []).tryEnd rank c

/-- ABORT: the slot holds no valid still. -/
def Device.abortSlot (d : Device) (rank take : Nat) : Device :=
  d.onServed rank (fun x => match x.writing with
    | some s => if s.take = take ∧ !s.valid then x.setWriting (some s.spoiled) else x
    | none => x)

/-! ### The restore (R328) -/

/-- The still of a slot number: the base, or the latest where it is valid. A still under way that is no base leaves no
valid latest one (R324). -/
def Served.slotOf (x : Served) (n : Nat) : Option StillSlot :=
  if n = 1 then x.base
  else if n = 2 then match x.writing with
    | some s => if s.valid then some s else if s.base then x.base else none
    | none => x.base
  else none

/-- The double sends a still back: manifest, every block, END. -/
def Device.sendBack (d : Device) (rank : Nat) (x : Served) (s : StillSlot) : Device :=
  let m := s.manifestBytes
  let d := d.each (List.range (ceilDiv m.length 8192)) (fun d i =>
    d.sendChunk rank s.take (chunkHead Ck.manifest s.base 0 i noObject s.take ++ slice m (8192 * i) 8192))
  let d := d.each (manifestObjects m) (fun d o => d.each (List.range o.2.1) (fun d b => d.each (List.range 8) (fun d p =>
    d.sendChunk rank s.take (chunkHead Ck.block s.base p b o.1 s.take ++ (x.part s (o.2.2.2 == 1) o.1 b p).getD []))))
  d.sendChunk rank s.take (chunkHead Ck.end_ s.base 0 0 noObject s.take ++ (x.digest s).getD [])

/-- RESTORE_REQUEST at the double. -/
def Device.giveBack (d : Device) (rank : Nat) (c : Chunk) : Device :=
  let lost := fun (d : Device) => d.sendStillAck rank c.take (answerHead c ++ ackData St.objectLost (leAt c.data 0 1) [])
  match d.servedOf rank with
  | none => lost d
  | some x => match x.slotOf (leAt c.data 0 1) with
    | some s => d.sendBack rank x s
    | none => lost d

/-- What a restore has received, as a slot. -/
def Device.restoreSlot (d : Device) : StillSlot :=
  d.still.restore.getD { take := d.get Obj.stillRestoreTake, base := d.get Obj.stillRestore == 1 }

/-- A manifest fits the run that arms: its take, its counts, its objects, which are those the layer table has stilled (R328). -/
def Device.manifestFits (d : Device) (m : Bytes) : Bool :=
  let n := manifestCounts m
  leAt m 8 8 == d.get Obj.stillRestoreTake && n.1 == d.run.groups.length && n.2.1 == d.run.layers.length &&
    n.2.2.1 == d.trackers && (manifestObjects m).map (·.1) == d.stilled && (manifestObjects m).all d.stillObjectFits

/-- Step 3: every block goes to its object's home. -/
def Device.restoreBlocks (d : Device) (s : StillSlot) (m : Bytes) : Device :=
  d.each (manifestObjects m) (fun d o =>
    let d := d.each (List.range o.2.1) (fun d b => d.each (List.range 8) (fun d p =>
      d.writeBytes o.1 (b * blockBytes + p * 8192) ((tget s.parts (partKey o.1 b p)).getD [])))
    d.restored o.1)

/-- A group entry with POSITION and POWER of a manifest. -/
def groupFrom (m : Bytes) (i g : Nat) : Nat :=
  let o := 0xC0 + 20 * i
  (List.range 4).foldl (fun g k => Ge.setPower g k (leAt m (o + 4 + 4 * k) 4)) (Ge.setPosition g (leAt m o 4))

/-- A layer entry with VERSION_COUNT of a manifest. -/
def layerFrom (m : Bytes) (i e : Nat) : Nat := putBits e 448 32 (leAt m (layersAt m + 4 * i) 4)

/-- Step 5: what the manifest sets. -/
def Device.restoreManifest (d : Device) (m : Bytes) : Device :=
  let t := d.get Obj.trackerTableObject
  let before := d.manifestTrackers
  let d := ((((d.put Obj.takeNumber (leAt m 8 8)).put Obj.logSequence (leAt m 0x10 8)).put Obj.logHead (leAt m 0x18 64)).put
    Obj.gradScaleExp (leAt m 0x98 4)).put Obj.gradScaleCleanRun (leAt m 0x9C 4)
  let d := d.put Obj.consecutiveRetakes (leAt m 0xA0 1)
  let d := d.onRun (fun r => { r with
    groups := (List.range r.groups.length).map (fun i => groupFrom m i (r.groups.getD i 0)),
    layers := (List.range r.layers.length).map (fun i => layerFrom m i (r.layers.getD i 0)) })
  let d := d.writeBytes t 0 (slice m (trackersAt m) (320 * d.trackers))
  let d := d.onRun (fun r => { r with curveEnded := (List.range r.groups.length).filter (fun i =>
    curvePassed (r.groups.getD i 0) (tgetD r.curves i [])) })
  d.onArm (fun a => { a with restored := true, priorTrackers := before })

/-- END of a restore, once everything is here: steps 3 to 5, then the arming goes on. -/
def Device.tryRestore (d : Device) : Device :=
  let s := d.restoreSlot
  let x : Served := { rank := 0, blocks := 0 }
  match s.ended, x.wholeDigest s with
  | some e, some found =>
    let m := s.manifestBytes
    if e ≠ found ∨ !d.manifestFits m then d.armUndo St.range
    else
      let d := (((d.saveObjects ((manifestObjects m).map (·.1))).restoreBlocks s m).restoreManifest m).onRun (fun r => { r with
        stillDigest := found })
      ((d.onStill (fun z => { z with restore := none })).put Obj.stillState 0).armFrom
  | _, _ => d

/-- A chunk of a restore. -/
def Device.intoRestore (d : Device) (f : StillSlot → StillSlot) : Device :=
  (d.onStill (fun z => { z with restore := some (f d.restoreSlot) })).tryRestore

/-- The arming waits for a restore from this rank. -/
def Device.restoringFrom (d : Device) (rank : Nat) : Bool :=
  match d.run.arm with
  | some a => a.phase == .restoring && d.double == some rank
  | none => false

/-! ### Receiving a chunk -/

/-- A STILL message whose chunk is of a kind (R285, R286, R326). A chunk of another kind is no command of this row. -/
def Device.stillIn (d : Device) (m : Msg) (kind : Nat) (f : Device → Chunk → Device) : Device :=
  let c := chunkOf m.payload
  let d := d.hear m.src
  if d.staleMessage m ∨ c.bad then d.dropMessage
  else if c.kind ≠ kind then d
  else d.accept m (fun d => f d.storeCheck c)

/-- STILL_HELLO (R318, R319). -/
def execStillHello (m : Msg) (s : State) := onDev s (fun d => d.stillIn m Ck.hello (fun d c => d.hello m c))

/-- A chunk that a double keeps and answers, or that a restore takes in. -/
def Device.stillChunk (d : Device) (m : Msg) (c : Chunk) (f : StillSlot → Chunk → StillSlot) (answered : Bool) : Device :=
  if d.restoringFrom m.src then d.intoRestore (fun s => f s c)
  else if (d.servedOf m.src).isSome then (d.onlyIf answered (fun d => d.ackChunk m.src c St.ok [])).intoSlot m.src c (fun s => f s c)
  else d

/-- STILL_BLOCK (R324, R326). -/
def execStillBlock (m : Msg) (s : State) :=
  onDev s (fun d => d.stillIn m Ck.block (fun d c => d.stillChunk m c StillSlot.addPart true))

/-- STILL_TRACE_BLOCK (R322, R324). -/
def execStillTraceBlock (m : Msg) (s : State) := onDev s (fun d => d.stillIn m Ck.trace (fun d c => d.takeTrace m.src c))

/-- STILL_MANIFEST (R321, R324). -/
def execStillManifest (m : Msg) (s : State) :=
  onDev s (fun d => d.stillIn m Ck.manifest (fun d c => d.stillChunk m c StillSlot.addManifest true))

/-- STILL_END (R327): its own answer is the one that carries the digest. -/
def execStillEnd (m : Msg) (s : State) :=
  onDev s (fun d => d.stillIn m Ck.end_ (fun d c => d.stillChunk m c StillSlot.addEnd false))

/-- ABORT at the double. -/
def Device.stillAborted (d : Device) (m : Msg) (c : Chunk) : Device :=
  if (d.servedOf m.src).isSome then (d.abortSlot m.src c.take).ackChunk m.src c St.ok [] else d

/-- STILL_ABORT (R327). -/
def execStillAbort (m : Msg) (s : State) := onDev s (fun d => d.stillIn m Ck.abort (fun d c => d.stillAborted m c))

/-- RESTORE_REQUEST (R328 step 2). -/
def execRestoreRequest (m : Msg) (s : State) := onDev s (fun d => d.stillIn m Ck.restore (fun d c => d.giveBack m.src c))

/-! ### The double's answers at the sender -/

/-- The double answers the HELLO of an arming (R319). -/
def Device.helloAnswered (d : Device) (c : Chunk) : Device :=
  match d.run.arm with
  | none => d
  | some a =>
    if a.phase ≠ .peers ∨ a.answered then d
    else
      let feed := leAt c.data 2 1
      let co := feed == d.ctl.feedId || feed == 0 || d.ctl.feedId == 0
      if co && !bit (d.get Obj.doubleAssign) 16 then d.armUndo St.coFedPartner
      else (d.onArm (fun a => { a with answered := true, feed := feed })).armTry

/-- The still completes (R327). -/
def Device.stillComplete (d : Device) (j : StillJob) (rank : Nat) : Device :=
  let d := (d.bump Obj.stillsCompleted).raise 0x0B04 [a8 j.take, a1 j.base.toNat, a2 rank]
  let d := d.onlyIf j.base (fun d => d.put Obj.stillBaseTake j.take)
  (d.put Obj.stillLatestTake j.take).stillOver

/-- The chunk an ACK answers: the oldest one not answered of its take, INDEX and PART. -/
def Device.answeredChunk (d : Device) (c : Chunk) : Option (Nat × Nat × Nat × Nat) :=
  d.still.sent.find? (fun x => x.1 == c.take && x.2.1 == c.index && x.2.2.1 == c.part)

/-- A chunk has been answered. -/
def Device.chunkAnswered (d : Device) (c : Chunk) : Device :=
  match d.answeredChunk c with
  | some x => d.onStill (fun s => { s with sent := s.sent.erase x })
  | none => d

/-- A trace of an object was refused (R322): its object is FULL from the next still on, and its still fails. -/
def Device.traceRefused (d : Device) (h take : Nat) : Device :=
  if !(d.methodOf h).trace then d else (d.traceEnds h take).stillFails take 3

/-- A take reported as held is held no more. -/
def Device.forgetTake (d : Device) (key take : Nat) : Device := d.onlyIf (d.get key == take) (fun d => d.put key noTake)

/-- An ACK of status OBJECT_LOST: the still under way fails on its digests, or a stored slot is lost (R327). -/
def Device.stillLost (d : Device) (c : Chunk) : Device :=
  let stored := fun (d : Device) => (d.forgetTake Obj.stillBaseTake c.take).forgetTake Obj.stillLatestTake c.take
  match d.still.job with
  | some j => if j.take = c.take ∧ j.ended then d.stillOver.stillFails j.take 1 else stored d
  | none => stored d

/-- An ACK by its status. -/
def Device.acked (d : Device) (rank : Nat) (c : Chunk) : Device :=
  let st := leAt c.data 0 2
  if d.restoringFrom rank then (if st = St.objectLost then d.armUndo St.notReady else d)
  else match d.run.arm with
    | some a => if a.phase = .peers ∧ !a.answered ∧ (st = St.range ∨ st = St.noSpace) then d.armUndo st else d
    | none =>
      if st = St.objectLost then d.stillLost c
      else if st = St.noSpace then
        match d.answeredChunk c with
        | some x => (d.chunkAnswered c).traceRefused x.2.2.2 c.take
        | none => d
      else if st = St.ok then
        let d := d.chunkAnswered c
        match d.still.job with
        | some j => if j.take = c.take ∧ j.ended ∧ slice c.data 8 64 = j.digest then d.stillComplete j rank else d
        | none => d
      else d

/-- STILL_ACK (R319, R322, R327). -/
def Device.stillAckIn (d : Device) (m : Msg) : Device :=
  let c := chunkOf m.payload
  let d := d.hear m.src
  if d.staleMessage m ∨ c.bad then d.dropMessage
  else if d.double ≠ some m.src then d
  else if c.kind = Ck.hello then d.helloAnswered c
  else if c.kind = Ck.ack then d.acked m.src c
  else d

def execStillAck (m : Msg) (s : State) := onDev s (fun d => d.stillAckIn m)

end Sys2Proof.Machine
end

