-- ==== Sys2Proof/Machine/Links.lean ====
section
/-!
DEFINITION. The links at the flit and the message (R279 to R293) and lost peers (R300, R301): training and identity, what a
transmitter sends in a slot, what a receiver makes of a flit, the delivery of a message to its engine.
-/
namespace Sys2Proof.Machine

/-! ### Training, identity and retirement (R279, R280, R288, R290) -/

/-- A link becomes UP or SPARE and advertises its credits (R279 step 6). -/
def Device.linkServes (d : Device) (l : Nat) (st : LinkState) : Device :=
  (d.onLink l (fun x => { x with
    returned := if x.returned = [] then (List.range 12).map (fun c => (c, classBuffers c)) else x.returned })).linkTo l st

/-- A link is retired (R290): the lowest-numbered SPARE link of its port takes its place. -/
def Device.retireLink (d : Device) (l cause : Nat) : Device :=
  let spare := (d.portOfLink l).bind (fun p =>
    let c := d.portConfig p
    (maskLinks p (portMembers c ||| portSpares c)).find? (fun k => k != l && (d.link k).state == .spare))
  let d := d.linkTo l .retired
  let d := match spare with
    | some k => d.linkServes k .up
    | none => d
  d.raise 0x0A01 [a2 l, a1 cause, a2 (spare.getD 0xFFFF)]

/-- Causes of LINK_RETIRED, in the order of R290: a retrain that failed, uncorrectable codewords. -/
def retireRetrain : Nat := 0
def retireCodewords : Nat := 1

/-- The identity exchange is under way or done: the arming has passed its promotions, or the device is armed. -/
def Device.exchanging (d : Device) : Bool :=
  match d.run.arm with
  | some a => a.phase != .promoting
  | none => 2 ≤ d.runState

/-- LINK_TRAINED (R279 steps 4 and 5). -/
def Device.linkTrained (d : Device) (l : Nat) : Device :=
  let st := (d.link l).state
  if st = .training ∨ st = .retraining then
    let d := d.onLink l (fun x => { x with state := .trained })
    if d.exchanging then d.sendIdentity l else d
  else d

def execLinkTrained (link : Nat) (s : State) := onDev s (fun d => d.linkTrained link)

/-- LINK_TRAIN_TIMEOUT (R280, R290). -/
def Device.trainTimeout (d : Device) (l : Nat) : Device :=
  match (d.link l).state with
  | .training => d.linkTo l .down
  | .retraining => d.retireLink l retireRetrain
  | _ => d

def execLinkTrainTimeout (link : Nat) (s : State) := onDev s (fun d => d.trainTimeout link)

/-- A 32-bit count that stays at its greatest value (R303). -/
def satCount (v n : Nat) : Nat := min (v + n) 0xFFFF_FFFF

/-- RETRY_LIMIT_REACHED (R282, R290). -/
def Device.retryLimit (d : Device) (l : Nat) : Device :=
  let x := d.link l
  if x.state = .up ∧ d.get Obj.retryLimit ≤ x.replays then
    (d.onLink l (fun x => { x with retrains := satCount x.retrains 1 })).linkTrain l .retraining
  else d

def execRetryLimitReached (link : Nat) (s : State) := onDev s (fun d => d.retryLimit link)

/-- LINK_UCW_LIMIT (R290): more codewords than the limit could not be corrected; how many more is open. -/
def Device.ucwLimit (d : Device) (l : Nat) : Device :=
  if (d.link l).state = .up then
    let (n, d) := d.draw
    let more := d.get Obj.linkUcwLimit + 1 + Config.unstated n
    (d.onLink l (fun x => { x with fecUncorrectable := (x.fecUncorrectable + more) % 2 ^ 64 })).retireLink l retireCodewords
  else d

def execLinkUcwLimit (link : Nat) (s : State) := onDev s (fun d => d.ucwLimit link)

/-- LINK_RETRAIN (R280). -/
def linkRetrainEffect : Effect := fun d _ l =>
  if 95 < l then (St.range, d)
  else match (d.link l).state with
    | .up | .spare | .training | .retraining => (St.busy, d)
    | _ => (St.ok, d.linkStarts l)

def execLinkRetrain (rq : Req) (link : Nat) (s : State) := onReq s rq (fun d => d.command rq Obj.linkRetrain link linkRetrainEffect)

/-- The state a link whose identity matches takes: a link that was in service, and a member, become UP. -/
def Device.servingState (d : Device) (p l : Nat) : LinkState :=
  if !(d.link l).service && bit (portSpares (d.portConfig p)) (l % 24) then .spare else .up

/-- IDENTITY on a link that is trained and held by an enabled port (R288, R290): it is answered, and where it matches the link
serves. One from a peer declared lost is dropped (R285). Like every message it is a sign of life (R300). -/
def Device.identityIn (d : Device) (l rank port seed : Nat) : Device :=
  let d := d.hear rank
  let x := d.link l
  if d.isLost rank then d.dropMessage
  else match d.portOfLink l with
  | none => d
  | some p =>
    if !d.exchanging ∨ x.state ≠ .trained then d
    else
      let c := d.portConfig p
      let d := d.sendIdentity l
      if rank = portPeer c ∧ port = portPeerPort c ∧ seed = d.seedCheck then
        ((d.onLink l (fun x => { x with matched := true, mismatch := none, peerRank := rank })).linkServes l
          (d.servingState p l)).armTry
      else if d.run.arm.isSome then d.onLink l (fun x => { x with mismatch := some (rank, port) })
      else if x.service then d.retireLink l retireRetrain
      else (d.linkTo l .miswired).raise 0x0A02 [a2 l, a2 rank, a2 port]

/-- IDENTITY (R288). -/
def execIdentity (link rank port seed : Nat) (s : State) := onDev s (fun d => d.identityIn link rank port seed)

/-! ### Acknowledgements and signs of life (R286, R300) -/

/-- MSG_ACK: the message's source bytes are let go. -/
def Device.msgAcked (d : Device) (src id : Nat) : Device :=
  let d := d.hear src
  if d.isLost src then d.dropMessage
  else d.onNet (fun n => { n with sent := n.sent.filter (fun m => !(m.dest == src && m.id == id && kindAcked (leAt m.msg 0 1))) })

def execMsgAck (src msgId : Nat) (s : State) := onDev s (fun d => d.msgAcked src msgId)

/-- MSG_RESEND_TIMEOUT: a message that is on a link and not acknowledged goes again. -/
def Device.resendTimeout (d : Device) (dest id : Nat) : Device :=
  match d.net.sent.find? (fun m => m.dest == dest && m.id == id && kindAcked (leAt m.msg 0 1) && m.link.isSome) with
  | some m => d.resend m
  | none => d

def execMsgResendTimeout (dest msgId : Nat) (s : State) := onDev s (fun d => d.resendTimeout dest msgId)

/-- LIVE: its sender is alive. -/
def Device.liveIn (d : Device) (src : Nat) : Device :=
  let d := d.hear src
  if d.isLost src then d.dropMessage else d

def execLive (src : Nat) (s : State) := onDev s (fun d => d.liveIn src)

/-- The peers that LIVE goes to: the parent and children in the verdict tree, and the ranks at the ends of the ports. -/
def Device.peers (d : Device) : List Nat :=
  let me := d.get Obj.jobRank
  (((if me = 0 then [] else [d.treeParent me]) ++ d.treeChildren me ++
    d.enabledPorts.map (fun p => portPeer (d.portConfig p))).eraseDups).filter (fun r => r != me && !d.isLost r)

/-- LIVE_SEND: while armed. -/
def Device.sendLive (d : Device) : Device :=
  if d.runState < 2 then d
  else d.each d.peers (fun d r => d.send r Kind.live false 0xFFFF (d.get Obj.takeNumber) 0 0xFF 0 [])

def execLiveSend (s : State) := onDev s Device.sendLive

/-! ### Lost peers (R301, R327) -/

/-- The collectives of the open take with a lost member are abandoned; traffic of the take is lost with them. -/
def Device.abandonColls (d : Device) (rank : Nat) : Device :=
  if d.run.take.isNone then d
  else d.each (d.net.colls.filter (fun p => !Ce.host p.2.entry && !p.2.complete && p.2.ranks.contains rank)) (fun d p =>
    let d := (d.onColl p.1 (fun c => { c with complete := true, running := false })).bump Obj.collectivesAbandoned
    (d.raise 0x0A09 [a2 p.1, a8 (d.get Obj.takeNumber), a2 rank]).chargeBit Hb.linkLoss)

/-- The double is lost. -/
def Device.doubleLost (d : Device) (rank : Nat) : Device :=
  if d.double = some rank ∧ d.protected then
    let d := (d.put Obj.doubleState 3).raise 0x0B08 [a2 rank, a8 (d.get Obj.takeNumber)]
    let d := d.onStill (fun s => { s with traces := [] })
    match d.still.job with
    | some j => d.stillOver.stillFails j.take 2
    | none => d
  else d

/-- A device whose word has gone to a peer that is lost sends it to the next one up. -/
def Device.redirectWord (d : Device) (rank : Nat) (target : Option Nat) : Device :=
  if target = some rank ∧ d.run.upSent then d.onRun (fun r => { r with upSent := false }) else d

/-- A peer is declared lost (R300, R301): what waits to go to it, of this device or of another, is dropped (R292). -/
def Device.losePeer (d : Device) (rank : Nat) : Device :=
  let target := d.verdictTarget
  let d := d.onNet (fun n => { n with
    lost := rank :: n.lost, sent := n.sent.filter (fun m => m.dest != rank), unreachable := n.unreachable.filter (· != rank)
    parked := n.parked.filter (fun f => f.dest != rank) }) |>.each (d.net.parked.filter (fun f => f.dest == rank)) Device.freeBuffer
  let d := (d.put Obj.peersLost ((d.get Obj.peersLost + 1) % 2 ^ 16)).raise 0x0A06 [a2 rank, a8 (d.get Obj.takeNumber)]
  (((d.abandonColls rank).doubleLost rank).redirectWord rank target).tryVerdict.latchFormed

/-- Nothing has come from a rank for PEER_TIMEOUT_US, or it has been unreachable. -/
def Device.silent (d : Device) (rank : Nat) : Bool :=
  d.net.unreachable.contains rank ||
    match tget d.net.heard rank with
    | some t => t + d.get Obj.peerTimeoutUs ≤ d.micros
    | none => true

/-- PEER_TIMEOUT (R300): of a peer, or of any rank that is unreachable. -/
def Device.peerTimeout (d : Device) (rank : Nat) : Device :=
  if 2 ≤ d.runState ∧ (d.peers.contains rank ∨ (d.net.unreachable.contains rank ∧ !d.isLost rank)) ∧ d.silent rank then
    d.losePeer rank
  else d

def execPeerTimeout (rank : Nat) (s : State) := onDev s (fun d => d.peerTimeout rank)

/-! ### The transmitter (R281 to R284) -/

/-- A flit's 256 bytes: header, payload, CRC-32C. -/
def flitBytes (header : Nat) (data : Bytes) : Bytes :=
  let b := leBytes 8 header ++ slice data 0 244
  b ++ leBytes 4 (crc32c b)

/-- What every flit carries of the other direction: NAK, ACK_SEQ and the credits of the class whose turn it is. -/
def Link.back (x : Link) : Nat :=
  let c := x.creditTurn
  fld x.nakDue.toNat 6 + fld ((x.expected + 4095) % 4096) 20 + fld (c / 4) 32 + fld (c % 4) 34 + fld (tgetD x.returned c 0 % 256) 36

/-- A DATA flit's own fields. -/
def Flit.head (f : Flit) (seq : Nat) : Nat := fld 1 0 + fld f.vc 2 + fld f.hop 4 + fld seq 8 + fld f.dest 44 + fld f.src 54

/-- A flit goes out; the NAK it carries is sent once (R282), and the next one reports the next class. -/
def Device.sendFlit (d : Device) (l header : Nat) (data : Bytes) : Device :=
  let x := d.link l
  (d.emit (.flit l (flitBytes (header + x.back) data))).onLink l (fun x => { x with
    nakSent := x.nakSent || x.nakDue, nakDue := false, creditTurn := (x.creditTurn + 1) % 12 })

/-- A flit that has a credit, and room in the retry buffer. Identity flits, which come before credits are advertised, need
none. -/
def Link.maySend (x : Link) (f : Flit) : Bool :=
  x.buffer.length < 256 && (f.identity ||
    (x.state == .up && 0 < x.free (creditClass f.vc f.hop)))

/-- The first flit of a channel that may be sent. -/
def Link.firstOf (x : Link) (vc : Nat) : Option Flit := x.queue.find? (fun f => f.vc == vc && x.maySend f)

/-- STILL's turn among the slots that STILL and COLLECTIVE contend for: it takes STILL_SHARE_PCT of every 100 (R284). -/
def Link.stillTurn (x : Link) (share : Nat) : Bool := x.stillSlots * 100 < share * (x.slots + 1)

/-- The flit a slot takes of those that are not replays: CONTROL first, then COLLECTIVE and STILL by their share. -/
def Link.choose (x : Link) (share : Nat) : Option Flit :=
  match x.firstOf Vc.control with
  | some f => some f
  | none =>
    match x.firstOf Vc.collective, x.firstOf Vc.still with
    | some c, some s => some (if x.stillTurn share then s else c)
    | some c, none => some c
    | none, s => s

/-- The window of 100 slots moves on. -/
def Link.slotPasses (x : Link) (still : Bool) : Link :=
  if x.slots + 1 = 100 then { x with slots := 0, stillSlots := 0 }
  else { x with slots := x.slots + 1, stillSlots := x.stillSlots + still.toNat }

/-- A new DATA flit goes out: it takes a credit, the next sequence number and a place in the retry buffer. -/
def Device.sendData (d : Device) (l : Nat) (f : Flit) : Device :=
  let x := d.link l
  let cls := creditClass f.vc f.hop
  let d := (d.sendFlit l (f.head x.nextSeq) f.data).onLink l (fun y => { y with
    queue := y.queue.erase f, buffer := y.buffer ++ [(x.nextSeq, f)], nextSeq := (x.nextSeq + 1) % 4096,
    used := if f.identity then y.used else tset y.used cls (tgetD y.used cls 0 + 1) })
  d.freeBuffer f

/-- Still traffic enters a link of the port that leads to the double when none waits there. -/
def Device.pullStill (d : Device) (l : Nat) : Device :=
  if (d.link l).queue.any (fun f => f.vc == Vc.still) then d
  else match (d.double.bind d.routePort) with
    | some (p, _) => if (d.upLinks p).contains l then d.nextChunk else d
    | none => d

/-- A link whose peer has not identified itself keeps asking while the exchange lasts (R288): another IDENTITY goes out once the last
one has been acknowledged. -/
def Device.askAgain (d : Device) (l : Nat) : Device :=
  let x := d.link l
  if x.state = .trained ∧ x.queue = [] ∧ x.buffer = [] ∧ d.exchanging ∧ (d.run.arm.isSome ∨ x.service) then d.sendIdentity l else d

/-- FLIT_SLOT (R284). -/
def Device.flitSlot (d : Device) (l : Nat) : Device :=
  let st := (d.link l).state
  if st ≠ .up ∧ st ≠ .spare ∧ st ≠ .trained then d
  else
    let d := (d.askAgain l).pullStill l
    let x := d.link l
    match x.replaying with
    | seq :: rest =>
      let d := d.onLink l (fun y => (({ y with replaying := rest } : Link)).slotPasses false)
      (match x.buffer.find? (fun e => e.1 == seq) with
       | some e => d.sendFlit l (e.2.head seq) e.2.data
       | none => d.sendFlit l 0 [])
    | [] =>
      match x.choose (d.get Obj.stillSharePct) with
      | some f => (d.onLink l (fun y => y.slotPasses (f.vc == Vc.still))).sendData l f
      | none => (d.onLink l (fun y => y.slotPasses false)).sendFlit l 0 []

def execFlitSlot (link : Nat) (s : State) := onDev s (fun d => d.flitSlot link)

/-! ### Delivery (R285) -/

/-- The fields of a message. -/
def msgOf (src : Nat) (b : Bytes) : Msg :=
  let h := leAt b 0 32
  { src := src, entry := bits h 16 16, msgId := bits h 32 32, take := bits h 64 64, offset := bits h 128 32,
    format := bits h 176 8, descCheck := bits h 192 32,
    reserved := bits h 9 7 != 0 || bits h 184 8 != 0 || bits h 224 32 != 0, payload := slice b 32 (bits h 160 16) }

/-- A still chunk by its kind. -/
def Device.stillMessage (d : Device) (m : Msg) : Device :=
  match (chunkOf m.payload).kind with
  | 0 => d.stillIn m Ck.hello (fun d c => d.hello m c)
  | 1 => d.stillIn m Ck.block (fun d c => d.stillChunk m c StillSlot.addPart true)
  | 2 => d.stillIn m Ck.trace (fun d c => d.takeTrace m.src c)
  | 3 => d.stillIn m Ck.manifest (fun d c => d.stillChunk m c StillSlot.addManifest true)
  | 4 => d.stillIn m Ck.end_ (fun d c => d.stillChunk m c StillSlot.addEnd false)
  | 5 => d.stillIn m Ck.abort (fun d c => d.stillAborted m c)
  | 6 => d.stillIn m Ck.restore (fun d c => d.giveBack m.src c)
  | k => d.stillIn m k (fun d _ => d)

/-- A message goes to its engine, as the command of its kind. -/
def Device.deliver (d : Device) (l src : Nat) (b : Bytes) : Device :=
  let m := msgOf src b
  match leAt b 0 1 with
  | 1 => d.contributed m
  | 2 => d.resulted m
  | 3 => d.wordUp m (bit (leAt b 0 32) 8)
  | 4 => d.wordDown m
  | 5 => if m.reserved then d.dropMessage else d.msgAcked src m.msgId
  | 6 => if m.reserved then d.dropMessage else d.liveIn src
  | 7 => if m.reserved then d.dropMessage else d.identityIn l (leAt m.payload 0 2) (leAt m.payload 2 1) (leAt m.payload 3 8)
  | 8 => d.stillMessage m
  | 9 => d.stillAckIn m
  | _ => d.dropMessage

/-! ### The receiver (R281 to R283, R292) -/

/-- ACK_SEQ covers the buffered flits up to it; the limit of replays counts anew. -/
def Link.ackedTo (x : Link) (seq : Nat) : Link :=
  match x.buffer.findIdx? (fun e => e.1 == seq) with
  | none => x
  | some i =>
    let left := x.buffer.drop (i + 1)
    { x with buffer := left, replays := 0, replaying := x.replaying.filter (fun q => left.any (fun e => e.1 == q)) }

/-- The credits a flit reports: the low 8 bits of a cumulative count. -/
def Link.credited (x : Link) (cls count : Nat) : Link :=
  if 11 < cls then x
  else
    let g := tgetD x.granted cls 0
    { x with granted := tset x.granted cls (g + (count + 256 - g % 256) % 256) }

/-- A NAK: every flit still buffered is replayed (R282). -/
def Device.naked (d : Device) (l : Nat) : Device :=
  if (d.link l).buffer = [] then d
  else (d.onLink l (fun x => { x with
    replaying := x.buffer.map (·.1), replays := x.replays + 1, retries := satCount x.retries 1 })).countReplay

/-- A DATA flit is discarded: a NAK is due, once until a flit is accepted. -/
def Link.discard (x : Link) (crc : Bool) : Link :=
  { x with nakDue := x.nakDue || !x.nakSent, crcErrors := if crc then satCount x.crcErrors 1 else x.crcErrors }

/-- The message part a flit continues. -/
def Link.part (x : Link) (f : Flit) : Option Partial :=
  x.partialIn.find? (fun p => p.vc == f.vc && p.src == f.src && p.dest == f.dest)

/-- A message part set, or removed where nothing is still to come. -/
def Link.setPart (x : Link) (p : Partial) : Link :=
  let others := x.partialIn.filter (fun q => !(q.vc == p.vc && q.src == p.src && q.dest == p.dest))
  { x with partialIn := if p.left = 0 then others else p :: others }

/-- The part a flit belongs to, with the flit counted: the first flit of a message gives its length. -/
def Link.partWith (x : Link) (f : Flit) : Partial :=
  match x.part f with
  | some p => { p with left := p.left - 244, bytes := p.bytes ++ f.data }
  | none => { vc := f.vc, src := f.src, dest := f.dest, left := 32 + leAt f.data 20 2 - 244, bytes := f.data }

/-- A flit for this device: the message is delivered once its last flit is here. -/
def Device.flitHere (d : Device) (l : Nat) (f : Flit) : Device :=
  let p := (d.link l).partWith f
  let d := d.onLink l (fun x => x.setPart p)
  let d := if f.identity then d else d.giveCredit l (creditClass f.vc f.hop)
  if p.left = 0 then d.deliver l f.src p.bytes else d

/-- A flit that waits for a way to its rank (R292). -/
def Device.parkFlit (d : Device) (f : Flit) : Device :=
  let d := d.onNet (fun n => { n with parked := n.parked ++ [f] })
  if d.net.unreachable.contains f.dest then d
  else (d.onNet (fun n => { n with unreachable := f.dest :: n.unreachable })).raise 0x0A04 [a2 f.dest]

/-- A flit for another rank goes on by this device's route table with HOP one higher (R292). The flits of one message keep
to one link; those of a message whose link has left UP are dropped. -/
def Device.forward (d : Device) (l : Nat) (f : Flit) : Device :=
  if f.hop = 3 then
    ((d.bump Obj.hopDrops).raise 0x0A05 [a2 f.src, a2 f.dest]).giveCredit l (creditClass f.vc f.hop)
  else
    let first := ((d.link l).part f).isNone
    let on : Flit := { f with hop := f.hop + 1, origin := some l }
    let p := { (d.link l).partWith f with bytes := [] }
    let way := (d.routePort f.dest).bind (fun q => d.pickLink q.1 (creditClass f.vc on.hop))
    let p := if first then { p with link := way } else p
    let d := d.onlyIf (first && way.isSome && (d.routePort f.dest).any (·.2)) (·.bump Obj.reroutes)
    let d := d.onLink l (fun x => x.setPart p)
    match p.link with
    | none => d.parkFlit on
    | some k =>
      if (d.link k).state = .up then d.onLink k (fun x => { x with queue := x.queue ++ [on] })
      else d.giveCredit l (creditClass f.vc f.hop)

/-- A flit accepted. -/
def Device.flitAccepted (d : Device) (l : Nat) (f : Flit) : Device :=
  let d := d.onLink l (fun x => { x with expected := (x.expected + 1) % 4096, nakSent := false, nakDue := false })
  if f.dest = d.get Obj.jobRank ∨ f.identity then d.flitHere l f else d.forward l f

/-- Codewords the receiver has corrected, or could not correct, since the flit before (R303): no command reports them, so that how many
is open (DESIGN CHOICE, log entry 45). -/
def Device.fecCounts (d : Device) (l : Nat) : Device :=
  let (a, d) := d.draw
  let (b, d) := d.draw
  d.onLink l (fun x => { x with
    fecCorrected := (x.fecCorrected + Config.unstated a) % 2 ^ 64, fecUncorrectable := (x.fecUncorrectable + Config.unstated b) % 2 ^ 64 })

/-- FLIT_RECEIVE (R281 to R283, R292): on a link that is trained. -/
def Device.flitIn (d : Device) (l : Nat) (b : Bytes) : Device :=
  let x := d.link l
  if x.state ≠ .up ∧ x.state ≠ .spare ∧ x.state ≠ .trained then d
  else
    let d := d.fecCounts l
    let h := leAt b 0 8
    let bad := b.length ≠ 256 || crc32c (b.take 252) != leAt b 252 4 || bits h 0 2 == 3 || bits h 2 2 == 3 || bit h 7
    if bad then (if bits h 0 2 = 1 then d.onLink l (fun x => x.discard true) else d)
    else
      let d := d.onLink l (fun x => (x.ackedTo (bits h 20 12)).credited (4 * bits h 32 2 + bits h 34 2) (bits h 36 8))
      let d := if bit h 6 then d.naked l else d
      if bits h 0 2 ≠ 1 then d
      else if bits h 8 12 ≠ (d.link l).expected then d.onLink l (fun x => x.discard false)
      else d.flitAccepted l { vc := bits h 2 2, hop := bits h 4 2, dest := bits h 44 10, src := bits h 54 10, data := slice b 8 244 }

def execFlitReceive (link : Nat) (flit : Bytes) (s : State) := onDev s (fun d => d.flitIn link flit)

end Sys2Proof.Machine
end

