-- ==== Sys2Proof/Machine/Startup.lean ====
section
/-!
DEFINITION. Resets and start-up (chapter 17, R471 to R477; R496): POR_N, the detector on VDD_AON, the warm reset, the
training of the parts, the self-test and readiness.
-/
namespace Sys2Proof.Machine

/-- The counters that run "since power-on": a warm reset keeps them. -/
def sincePowerOn : List Nat :=
  [Obj.d2dRetirements, Obj.scaleSkewCount, Obj.invalidScaleCount, Obj.nonfiniteBlockCount, Obj.fwdOperations,
   Obj.fwdPlanesSkipped, Obj.fwdGroupWaits, Obj.codebookRoundings, Obj.veinPasses, Obj.veinExtraPasses,
   Obj.outlierRows, Obj.clipRescaleK1, Obj.clipRescaleK2, Obj.clipRescaleK3, Obj.clipRescaleK4,
   Obj.clipSaturated, Obj.satAlarmTensors, Obj.learnedScaleClamps, Obj.bwdOperations, Obj.deferredItems,
   Obj.deferredForced, Obj.gradScaleFloorHits, Obj.recomputePasses, Obj.stashLate, Obj.firstAnchorStalls] ++
  [Obj.statsOverwrites, Obj.dailiesTilesTotal, Obj.dailiesOverTotal, Obj.dailiesAlarms, Obj.trapsTotal,
   Obj.discards, Obj.prints, Obj.earlyCuts, Obj.servingNonfinite, Obj.verdictStaleDrops,
   Obj.layerUpdatesA, Obj.layerUpdatesB, Obj.paramsUpdated, Obj.updateBacklogWaits, Obj.matrixOpsLapidary,
   Obj.matrixOpsSide, Obj.pinnedVersionWaits, Obj.scrubPasses, Obj.faultsNotResident, Obj.faultsMoving,
   Obj.faultsPoisoned, Obj.faultsProtection, Obj.promotions, Obj.demotions, Obj.bytesMoved] ++
  [Obj.evictionsRedirected, Obj.weightLate, Obj.weightStallUs, Obj.correctedFast, Obj.correctedSlow,
   Obj.seamRebuilds, Obj.linesLost, Obj.objectsPoisoned, Obj.objectsLost, Obj.unitsRetired,
   Obj.spaceWaits, Obj.msgResent, Obj.msgDuplicates, Obj.hopDrops, Obj.reroutes,
   Obj.msgStaleDrops, Obj.collectivesDone, Obj.collectivesAbandoned, Obj.stillBytesSent, Obj.logFullWaits,
   Obj.replayReruns, Obj.stillsCompleted, Obj.stillsSkipped, Obj.stillsFailed, Obj.stillsUnprotected] ++
  [Obj.forcedSends, Obj.substitutions, Obj.fieldFramesRx, Obj.fieldFramesBad, Obj.fieldDuplicates,
   Obj.mailboxRequests0, Obj.mailboxRequests1, Obj.doorbellsIgnored, Obj.frozenWrites, Obj.authFailures,
   Obj.eventsRaised, Obj.eventsUndelivered, Obj.clockFaults, Obj.dvfsSteps, Obj.supplyWarnings,
   Obj.regulatorFaults, Obj.throttleEvents, Obj.throttleMs, Obj.fillerEnergyJ, Obj.rampShortfalls,
   Obj.signatures, Obj.receiptsIssued, Obj.batchesSigned, Obj.batchRingWaits, Obj.mgmtRestarts]

/-- What no reset touches: the fuses and the SPI NOR device, the level of each PERST_N, what the device has sent and how
many free values it has drawn. -/
def Device.lasting (d : Device) : Device :=
  let fresh : Device := {}
  { fresh with
    sec := { fuseA := d.sec.fuseA, fuseB := d.sec.fuseB, spiSlotA := d.sec.spiSlotA, spiSlotB := d.sec.spiSlotB,
             spiBcr0 := d.sec.spiBcr0, spiBcr1 := d.sec.spiBcr1, spiCert := d.sec.spiCert, hubRom := d.sec.hubRom },
    ports := [(0, { perstHigh := (d.port 0).perstHigh }), (1, { perstHigh := (d.port 1).perstHigh })],
    out := d.out, free := d.free }

/-- POR_N falls, or VDD_AON falls below 0.65 V (R496): every PWR_EN goes low at once, and everything returns to its
power-on value. -/
def Device.powerOnReset (d : Device) : Device := d.lasting.onPwr (fun w => { w with pwrGood := d.pwr.pwrGood })

/-- POR_N_ASSERT (R471, R496). -/
def execPorNAssert (s : State) := onDev s Device.powerOnReset

/-- VDD_AON_DETECT (R496). -/
def execVddAonDetect (millivolts : Nat) (s : State) := onDev s (fun d => if millivolts < 650 then d.powerOnReset else d)

/-- Step 1 of R473: AON runs, NODE_ID and FEED_ID are latched. -/
def Device.start (d : Device) (nodeId feedId : Nat) : Device :=
  let n := nodeId % 64
  let f := feedId % 16
  let d := (d.onCtl (fun c => { c with nodeId := n, feedId := f })).onBoot (fun b => { b with porHigh := true })
  let d := ((d.put Obj.nodeId n).put Obj.feedId f).put Obj.fieldMac (stationOf n)
  d.onDomain 12 (fun x => { x with running := true })

/-- POR_N_RELEASE (R473 steps 1 and 2). -/
def execPorNRelease (nodeId feedId : Nat) (s : State) := onDev s (fun d => if d.boot.porHigh then d else d.start nodeId feedId)

/-- DEVICE_RESET (R472). -/
def deviceResetEffect : Effect := fun d rq v =>
  if v ≠ 1 then (St.range, d)
  else
    let t := d.get Obj.conductorToken
    if d.isOperator rq ∧ t ≠ 0xFF ∧ portOf rq ≠ some t then (St.role, d)
    else if d.runState ≠ 0 ∨ d.anyStream ∨ d.sec.fwUpdate.isSome ∨ d.sec.liveUpdate.isSome ∨ d.svc.tv.isSome ∨
        d.svc.job.isSome ∨ d.get Obj.powerTransition ≠ 0 then (St.busy, d)
    else (St.ok, d.onSvc (fun x => { x with resetDue := true }))

def execDeviceReset (rq : Req) (value : Nat) (s : State) :=
  onReq s rq (fun d => d.command rq Obj.deviceReset value deviceResetEffect)

/-- A link at reset with the counts that run since power-on (R303). -/
def Link.counts (x : Link) : Link :=
  { retrains := x.retrains, retries := x.retries, crcErrors := x.crcErrors, fecCorrected := x.fecCorrected,
    fecUncorrectable := x.fecUncorrectable }

/-- The warm reset (R471): the counters since power-on, the open debug port and the retention store stay; the held BOOT
values take effect, and stay held for the resets after it (R344, R419); the ports go down; start-up runs again from step 2. -/
def Device.warm (d : Device) (nodeId feedId : Nat) : Device :=
  let d0 := (d.linkDown 0).linkDown 1
  let e := d0.lasting
  let e := e.each sincePowerOn (fun e k => if d.get k = dfltOf k then e else e.put k (d.get k))
  let e := (e.each d.ctl.held (fun e h => e.put h.1 h.2)).onCtl (fun c => { c with held := d.ctl.held })
  let e := e.onSec (fun x => { x with debugOpen := d.sec.debugOpen })
  let e := if d.sec.debugOpen then e.put Obj.debugState 1 else e
  let e := e.onNet (fun n => { n with links := d.net.links.map (fun p => (p.1, p.2.counts)) })
  (e.onPwr (fun w => { w with pwrGood := d.pwr.pwrGood })).start nodeId feedId

/-- WARM_RESET (R471, R472). -/
def execWarmReset (nodeId feedId : Nat) (s : State) :=
  onDev s (fun d => if d.svc.resetDue then d.warm nodeId feedId else d)

/-! ### Training (R473 steps 7 to 10, R475, R476) -/

/-- D2D_TRAINING_DONE (R20, R421 step 9, R473 step 7): the modules that did not train are retired. -/
def Device.d2dTrained (d : Device) (trained : Nat) : Device :=
  let fails : Device → Device := fun d =>
    d.each ((List.range 46).filter (fun m => !bit trained m)) Device.retireModule
  match d.pwr.step with
  | .training _ _ _ => (fails d).wakeTrained true false
  | _ =>
    if d.ctl.serving && d.boot.partsStarted && !d.boot.trained then
      (fails d).onBoot (fun b => { b with trained := true })
    else d

def execD2dTrainingDone (trained : Nat) (s : State) := onDev s (fun d => d.d2dTrained trained)

/-- HBM_TRAINING_DONE (R473 step 8): a stack that did not train is lost; the fast tier is zeroed, and the self-test of the
compute dies begins. -/
def Device.hbmTrained (d : Device) (trained : Nat) : Device :=
  if d.boot.trained && !d.boot.hbmTrained then
    let d := d.each ((List.range 8).filter (fun h => !bit trained h)) Device.loseStack
    (d.onBoot (fun b => { b with hbmTrained := true })).put Obj.deviceState 2
  else d

def execHbmTrainingDone (trained : Nat) (s : State) := onDev s (fun d => d.hbmTrained trained)

/-- Why a module is refused (R475, R488): its kind, its capacity, its speed, its SPD, its training. -/
def moduleRefusal (m : Module) : Option Nat :=
  if !m.spdRead then some 3
  else if !m.mrdimm then some 0
  else if m.gib ≠ 32 ∧ m.gib ≠ 64 then some 1
  else if m.speed < 6400 then some 2
  else if !m.trained then some 4
  else none

/-- A module is accepted. -/
def moduleAccepted (m : Module) : Bool := m.present && (moduleRefusal m).isNone

/-- The one speed of all channels (R475). -/
def channelSpeed (limit : Nat) (ms : List Module) : Nat :=
  let ok := (ms.filter moduleAccepted).map (·.speed)
  (([6400, 7200, 8000, 8800].filter (fun v => v ≤ limit && ok.all (v ≤ ·))).getLast?).getD 6400

/-- The sectors of a Lapidary at the capacity of its smallest accepted module (R252, R475): 11 × 2^30 units of 64 bytes at
64 GiB. -/
def lapidarySectors (ms : List Module) : Nat :=
  if (ms.filter moduleAccepted).any (fun m => m.gib == 32) then 738197504 else 1476395008

/-- A channel that is empty or refused is lost from the start (R476). -/
def Device.channelAtStart (d : Device) (ch : Nat) (m : Module) : Device :=
  if moduleAccepted m then d
  else
    let d := match m.present, moduleRefusal m with
      | true, some c => d.raise 0x1102 [a2 ch, a1 c]
      | _, _ => d
    d.loseChannel ch 2

/-- DDR_TRAINING_DONE (R475, R476; R421 step 9 at a wake from P3, where a channel that does not retrain is lost). -/
def Device.ddrTrained (d : Device) (ms : List Module) : Device :=
  let nothing : Module := ⟨false, false, 0, 0, false, false⟩
  let at_ : Nat → Module := fun ch => ms.getD ch nothing
  match d.pwr.step with
  | .training _ _ _ =>
    (d.each ((List.range 24).filter (fun ch => !(at_ ch).trained)) (fun d ch => d.loseChannel ch 0)).wakeTrained false true
  | _ =>
    if d.boot.trained && !d.boot.ddrTrained then
      let ms := (List.range 24).map at_
      let d := d.put Obj.ddrSpeedMts (channelSpeed (d.get Obj.ddrSpeedLimitMts) ms)
      let gib := (List.range 24).foldl (fun w ch =>
        let m := at_ ch
        if moduleAccepted m then w + fld m.gib (8 * ch) else w) 0
      let d := d.put Obj.ddrModuleGib gib
      let d := d.onMs (fun m => { m with sectorsA := lapidarySectors (ms.take 12), sectorsB := lapidarySectors (ms.drop 12) })
      let d := d.each (List.range 24) (fun d ch => d.channelAtStart ch (at_ ch))
      d.onBoot (fun b => { b with ddrTrained := true })
    else d

def execDdrTrainingDone (modules : List Module) (s : State) := onDev s (fun d => d.ddrTrained modules)

/-- SLOW_TIER_ZEROED (R473 step 9). -/
def execSlowTierZeroed (lapidary : Nat) (s : State) :=
  onDev s (fun d => if d.boot.ddrTrained && lapidary ≤ 1 then d.onBoot (fun b => { b with zeroed := setBit b.zeroed lapidary }) else d)

/-- Both Lapidaries have been zeroed, or are lost. -/
def Device.slowReady (d : Device) : Bool := [0, 1].all (fun l => bit d.boot.zeroed l || d.lostUnit l)

/-! ### Self-test and readiness (R474, R477) -/

/-- A cluster that fails its self-test is retired and not placed; the cause CLUSTER_RETIRED carries is not numbered. -/
def Device.retireAtTest (d : Device) (die c : Nat) : Device :=
  let (n, d) := d.draw
  let rc := Obj.retiredClusters + die
  (d.put rc (setBit (d.get rc) c)).raise 0x0B0A [a1 die, a1 c, a1 (Config.unstated n % 256)]

/-- The logical clusters whose physical cluster is retired take the lowest-numbered free one of their die. -/
def Device.placeAtStart (d : Device) : Device :=
  d.each ((List.range 64).filter d.unplaced) (fun d l => match d.freeCluster (l / 16) with
    | some c => d.setPlacement l c
    | none => d.replaceBit 0)

/-- SELF_TEST_DONE (R477): the failed clusters by 17 × die + cluster, the dies whose collective engine failed, the failed
Lapidaries. -/
def Device.selfTest (d : Device) (clusters dies laps : Nat) : Device :=
  if d.boot.hbmTrained && d.boot.ddrTrained && d.slowReady && !d.boot.selfTested && d.get Obj.selftestAtBoot == 1 then
    let d := d.each (bitsSet clusters 68) (fun d k => d.retireAtTest (k / 17) (k % 17))
    let d := d.placeAtStart
    let d := (d.each (List.range 4) Device.checkSpares).standInRisk
    let d := d.each (bitsSet dies 4) Device.loseDie
    let d := d.each (bitsSet laps 2) Device.loseLapidary
    let failed := bits clusters 0 68 != 0 || bits dies 0 4 != 0 || bits laps 0 2 != 0
    (d.put Obj.selftestStatus (1 + 2 * failed.toNat)).onBoot (fun b => { b with selfTested := true })
  else d

def execSelfTestDone (failedClusters failedDies failedLapidaries : Nat) (s : State) :=
  onDev s (fun d => d.selfTest failedClusters failedDies failedLapidaries)

/-- READINESS (R474). -/
def Device.readiness (d : Device) : Device :=
  let tested := d.boot.selfTested || d.get Obj.selftestAtBoot == 0
  if d.boot.hbmTrained && d.boot.ddrTrained && d.slowReady && tested && !d.boot.ready then
    let d := (d.onBoot (fun b => { b with ready := true })).put Obj.deviceState 3
    let d := d.put Obj.readyCounter d.mono
    let d := if d.sec.trial then (d.onSec (fun x => { x with trial := false })).writeBcr else d
    d.raise 0x1101 [a8 (d.get Obj.readyCounter), a4 (d.get Obj.selftestStatus), a4 (d.get Obj.replaceRequest)]
  else d

def execReadiness (s : State) := onDev s Device.readiness

end Sys2Proof.Machine
end

