-- ==== Sys2Proof/Machine/Service.lean ====
section
/-!
DEFINITION. Service while running (R479 to R482, R485 to R487): the cluster commands, the firmware of one part, and the
restart of the management pair.
-/
namespace Sys2Proof.Machine

/-! ### Cluster commands -/

/-- The cluster of CLUSTER_SELECT, by 17 × die + cluster. -/
def selectedCluster (v : Nat) : Nat := 17 * bits v 5 2 + bits v 0 5

/-- The code of a cluster's service state (R479). -/
def Device.clusterState (d : Device) (key : Nat) : Nat :=
  let die := key / 17
  let c := key % 17
  let job := match d.svc.job with
    | some j => if j.cluster = key then j.command else 0
    | none => 0
  if job = 2 then 4
  else if d.retired die c then 6
  else if job = 1 then 2
  else if d.named die c then 0
  else match tget d.svc.clusters key with
    | some .drained => 3
    | some .testing => 4
    | some .tested => 5
    | some .spare => 1
    | none => 1

/-- The conditions that make a cluster command or a TV_RUN wait its turn (R479). -/
def Device.serviceBusy (d : Device) : Bool :=
  d.svc.job.isSome || d.svc.tv.isSome || d.pwr.hold || d.get Obj.powerTransition != 0 || d.runState == 1 || d.runState == 4

/-- The cluster of R331 step 2 for a drain: a cluster that is placed is none of the free ones. -/
def drainEffect : Effect := fun d _ _ =>
  let key := selectedCluster (d.get Obj.clusterSelect)
  if d.clusterState key ≠ 0 then (St.range, d)
  else if d.serviceBusy then (St.busy, d)
  else match d.freeCluster (key / 17) with
    | none => (St.noSpace, d)
    | some c => (St.pending, d.onSvc (fun v => { v with job := some ⟨key, 1, c⟩ }))

/-- TEST: its self-test runs in isolation. -/
def testEffect : Effect := fun d _ _ =>
  let key := selectedCluster (d.get Obj.clusterSelect)
  let st := d.clusterState key
  if st ≠ 1 ∧ st ≠ 3 ∧ st ≠ 5 ∧ st ≠ 6 then (St.range, d)
  else if d.serviceBusy then (St.busy, d)
  else (St.pending, d.onSvc (fun v => { v with job := some ⟨key, 2, 17⟩ }))

/-- RETURN (R482). -/
def returnEffect : Effect := fun d _ _ =>
  let key := selectedCluster (d.get Obj.clusterSelect)
  if d.clusterState key ≠ 5 then (St.range, d)
  else if d.serviceBusy then (St.busy, d)
  else (St.ok, (d.onSvc (fun v => { v with clusters := tdel v.clusters key })).raise 0x1103 [a1 (key / 17), a1 (key % 17), a1 1, a2 St.ok])

/-- CLUSTER_COMMAND by its value. -/
def clusterEffect : Effect := fun d rq v =>
  if v = 1 then drainEffect d rq v else if v = 2 then testEffect d rq v else if v = 3 then returnEffect d rq v else (St.range, d)

/-- CLUSTER_DRAIN (R480). -/
def execClusterDrain (rq : Req) (s : State) := onReq s rq (fun d => d.command rq Obj.clusterCommand 1 clusterEffect)

/-- CLUSTER_TEST (R481). -/
def execClusterTest (rq : Req) (s : State) := onReq s rq (fun d => d.command rq Obj.clusterCommand 2 clusterEffect)

/-- CLUSTER_RETURN (R482). -/
def execClusterReturn (rq : Req) (s : State) := onReq s rq (fun d => d.command rq Obj.clusterCommand 3 clusterEffect)

/-- The logical cluster that a cluster holds. -/
def Device.logicalOf (d : Device) (key : Nat) : Nat :=
  ((rangeFrom (16 * (key / 17)) 16).find? (fun l => d.placement l == key % 17)).getD 0

/-- No work of any sample or take is left on a cluster. -/
def Device.clusterQuiet (d : Device) (key : Nat) : Bool :=
  d.stages.all (fun p => p.2.core / 8 != 32 * (key / 17) + key % 17 || (p.2.fwd.isNone && p.2.bwd.isNone))

/-- Steps 3 and 4 of a drain (R480): the target, where the drain's logical cluster is bound. A target on a HELD path
refuses the binding (R412), and the cluster stays PLACED. -/
def Device.drained (d : Device) : Device :=
  match d.svc.job with
  | none => d
  | some j =>
    if j.command ≠ 1 ∨ d.run.take.isSome ∨ !d.clusterQuiet j.cluster then d
    else match d.rebindCluster (d.logicalOf j.cluster) j.target with
      | none => d.endJob j.cluster 0 St.notReady
      | some d =>
        let d := d.onSvc (fun v => { v with clusters := tset v.clusters j.cluster .drained })
        (d.standInRisk.endJob j.cluster 3 St.ok).settle

/-- DRAIN_COMPLETE (R480). -/
def execDrainComplete (s : State) := onDev s Device.drained

/-- A test ends (R481). A retired cluster stays so whatever its outcome; one that fails is retired, the cause that
CLUSTER_RETIRED carries being open. -/
def Device.tested (d : Device) (pass : Bool) : Device :=
  match d.svc.job with
  | none => d
  | some j =>
    if j.command ≠ 2 then d
    else
      let die := j.cluster / 17
      let c := j.cluster % 17
      if d.retired die c then d.endJob j.cluster 6 St.ok
      else if pass then
        (d.onSvc (fun v => { v with clusters := tset v.clusters j.cluster .tested })).endJob j.cluster 5 St.ok
      else
        let (n, d) := d.draw
        let rc := Obj.retiredClusters + die
        let d := (d.put rc (setBit (d.get rc) c)).raise 0x0B0A [a1 die, a1 c, a1 (Config.unstated n % 256)]
        let d := d.onSvc (fun v => { v with clusters := tdel v.clusters j.cluster })
        (d.endJob j.cluster 6 St.ok).checkSpares die

/-- CLUSTER_TEST_DONE (R481). -/
def execClusterTestDone (pass : Bool) (s : State) := onDev s (fun d => d.tested pass)

/-! ### The restart of the management pair (R41, R487) -/

/-- Step 1: the pair stops. Requests of the mailbox that wait have their final response at step 3; those of the field network have it
once their work has ended and the pair is back (R41, R353). -/
def Device.mgmtStops (d : Device) (cause : Nat) : Device :=
  let d := d.onlyIf (cause != 0) (·.detectedFault)
  let d := d.onCtl (fun c => { c with serving := false, restart := some cause, restartsBegun := c.restartsBegun + 1 })
  let d := (d.endSessions).onCtl (fun c => { c with
    transfers := [], waiting := c.waiting.filter (fun w => (portOf w.rq).isNone) })
  d.armUndo St.notReady

/-- The pair runs, or is restarting. -/
def Device.pairUp (d : Device) : Bool := d.ctl.serving || d.ctl.restart.isSome

/-- LOCKSTEP_MISMATCH (R335, R487). -/
def execLockstepMismatch (s : State) := onDev s (fun d => if d.pairUp then d.mgmtStops 1 else d)

/-- MGMT_WATCHDOG_EXPIRY (R487). -/
def execMgmtWatchdogExpiry (s : State) := onDev s (fun d => if d.pairUp then d.mgmtStops 2 else d)

/-- A slot that waited receives NOT_READY (R355): the header of its first response with that status. -/
def Device.slotNotReady (d : Device) (key : Nat) : Device :=
  let m := d.slot (key / 8) (key % 8)
  if m.state = .pending ∨ m.state = .inService then
    d.answerSlot (key / 8) (key % 8) St.notReady (leBytes 16 (putBits (leAt m.response 0 16) 64 16 St.notReady))
  else d

/-- The final responses that waited for the pair. -/
def Device.sendDeferred (d : Device) : Device :=
  let ws := d.ctl.waiting
  (d.onCtl (fun c => { c with waiting := c.waiting.filter (fun w => w.final.isNone) })).each ws (fun d w => match w.final with
    | some st => d.respondFinal w { status := st }
    | none => d)

/-- Step 3: the pair is back. A LIVE_UPDATE of MGMT has NOT_READY as its final response. -/
def Device.mgmtBack (d : Device) : Device :=
  match d.ctl.restart with
  | none => d
  | some cause =>
    let n := d.ctl.restartsBegun
    let d := match d.sec.liveUpdate with
      | some (0, slot) => d.onSec (fun x => { x with slotMap := putBits x.slotMap 0 1 slot })
      | _ => d
    let d := d.onCtl (fun c => { c with serving := true, restart := none, restartsBegun := 0, hbCount := 0 })
    let d := ((d.each (tkeys d.ctl.slots) Device.slotNotReady).sendDeferred).finish
      (fun w => w.key == Obj.liveUpdate && w.arg % 256 == 0) { status := St.notReady }
    (d.addTo Obj.mgmtRestarts n).raise 0x1106 [a1 cause]

/-- MGMT_RESTART_COMPLETE (R487). -/
def execMgmtRestartComplete (s : State) := onDev s Device.mgmtBack

/-! ### The firmware of one part (R485, R486) -/

/-- The condition of a component's row. -/
def Device.updatable (d : Device) (component : Nat) : Bool :=
  if component = 3 then d.runState == 0 && d.net.colls.all (fun p => !(Ce.host p.2.entry && p.2.busy))
  else if component = 4 then d.stages.isEmpty else true

/-- LIVE_UPDATE's checks, and the start of the load. -/
def liveUpdateEffect : Effect := fun d _ v =>
  let c := bits v 0 8
  let slot := bits v 8 1
  if bits v 9 7 ≠ 0 ∨ 4 < c ∨ d.slotCheck slot ≠ 0 then (St.range, d)
  else if !d.updatable c ∨ d.sec.liveUpdate.isSome ∨ d.sec.fwUpdate.isSome ∨ d.svc.resetDue ∨ d.pwr.hold ∨
      d.get Obj.powerTransition ≠ 0 then (St.busy, d)
  else if d.slotOf c = slot then (St.ok, d)
  else
    let d := d.onSec (fun x => { x with liveUpdate := some (c, slot), liveSince := d.micros })
    (St.pending, if c = 3 then d.linksTrain else if c = 2 then (d.put Obj.valveDuty 1000).onGov (fun g => { g with dutyMilli := 1000000 }) else d)

/-- LIVE_UPDATE (R485): of MGMT, the pair restarts once it has answered. -/
def execLiveUpdate (rq : Req) (value : Nat) (s : State) := onReq s rq (fun d =>
  let before := d.sec.liveUpdate
  let d := d.command rq Obj.liveUpdate value liveUpdateEffect
  match before, d.sec.liveUpdate with
  | none, some (0, _) => d.mgmtStops 0
  | _, _ => d)

/-- The component has been loaded and its part has resumed; of MGMT, once the pair is back. -/
def Device.liveUpdated (d : Device) : Device :=
  match d.sec.liveUpdate with
  | none => d
  | some (c, slot) =>
    if c = 0 ∧ d.ctl.restart.isSome then d
    else
      let d := d.onSec (fun x => { x with liveUpdate := none, slotMap := putBits x.slotMap c 1 slot })
      (d.raise 0x1105 [a1 c, a1 slot, a2 St.ok]).finishKey Obj.liveUpdate St.ok

/-- LIVE_UPDATE_DONE (R485). -/
def execLiveUpdateDone (s : State) := onDev s Device.liveUpdated

end Sys2Proof.Machine
end

