-- ==== Sys2Proof/Machine/TestVec.lean ====
section
/-!
DEFINITION. Test-vector files (R81 to R85, R205, R506) and their runs in the field (R483, R484), and the hold limit of
whatever waits on an object (R270).
-/
namespace Sys2Proof.Machine

/-! ### The header (R81) -/

namespace Tv
def magic (h : Nat) : Nat := bits h 0 32
def fileVersion (h : Nat) : Nat := bits h 32 16
def headerSize (h : Nat) : Nat := bits h 48 16
def number (h : Nat) : Nat := bits h 64 12
def engine (h : Nat) : Nat := bits h 76 4
def formatA (h : Nat) : Nat := bits h 80 8
def formatB (h : Nat) : Nat := bits h 88 8
def formatOut (h : Nat) : Nat := bits h 96 8
def rounding (h : Nat) : Nat := bits h 104 2
def stepping (h : Nat) : Nat := bits h 112 16
def count (h : Nat) : Nat := bits h 128 32
def recordSize (h : Nat) : Nat := bits h 160 32
def paramBytes (h : Nat) : Nat := bits h 192 32
def aBytes (h : Nat) : Nat := bits h 224 32
def bBytes (h : Nat) : Nat := bits h 256 32
def outBytes (h : Nat) : Nat := bits h 288 32
def digest (h : Nat) : Nat := bits h 512 512
/-- RECORD_SIZE as R82 forms it. -/
def sizeWanted (h : Nat) : Nat := 8 * ceilDiv (paramBytes h + aBytes h + bBytes h + outBytes h + 16) 8
/-- The elements of input A. -/
def elements (h : Nat) : Nat := aBytes h * 8 / max 1 (fmtBits (formatA h))
/-- The values a record converts: of block lines, those they can hold. -/
def converted (h : Nat) : Nat := if number h = 7 then aBytes h / 288 * lineElems (formatA h) else elements h
/-- ROUNDING selects SR. -/
def sr (h : Nat) : Bool := rounding h == 1
/-- Offsets of the parts of a record (R82). -/
def aAt (h : Nat) : Nat := paramBytes h
def bAt (h : Nat) : Nat := aAt h + aBytes h
def outAt (h : Nat) : Nat := bAt h + bBytes h
def outcomeAt (h : Nat) : Nat := outAt h + outBytes h
end Tv

/-- The operations of engine 6 (R205): the opcodes of R196, and 0x100 to 0x102. -/
def lapidaryOp (n : Nat) : Bool :=
  n ≤ 5 || (0x10 ≤ n && n ≤ 0x1A) || (0x20 ≤ n && n ≤ 0x23) || n == 0x28 || n == 0x29 || (0x30 ≤ n && n ≤ 0x32) ||
    (0x38 ≤ n && n ≤ 0x3A) || (0x100 ≤ n && n ≤ 0x102)

/-- An operation its engine defines. The chapters of the engines 1 to 5 and 7 number none. -/
def tvDefined (engine n : Nat) : Bool := (engine == 0 && 1 ≤ n && n ≤ 7) || (engine == 6 && lapidaryOp n)

/-- The operations of engine 6 on two operands: the element-wise ones, FMA, the products, and the recurrence (R196, R205). -/
def tvBinary (n : Nat) : Bool := (0x10 ≤ n && n ≤ 0x15) || n == 0x1A || n == 0x39 || n == 0x3A || n == 0x100

/-- The formats suit the operation (R84). Engine 6 computes in FP32; a state is loaded from and stored in FP32 or BF16, and a
working copy is written in a weight format, not by SR in BINARY or CB16 (R196, R201). -/
def tvSuits (h : Nat) : Bool :=
  let a := Tv.formatA h
  let o := Tv.formatOut h
  let n := Tv.number h
  if Tv.engine h = 0 then
    Tv.formatB h == Fmt.none && (match n with
      | 1 => fmtIsFloat a && fmtIsFloat o
      | 2 => a == Fmt.fp32 && fmtIsInt o
      | 3 => fmtIsInt a && o == Fmt.fp32
      | 4 => tableFormat a && o == Fmt.e4m3
      | 5 => fmtIsInt a && o == Fmt.e4m3
      | 6 => a == Fmt.fp32 && lineFormat o
      | _ => lineFormat a && o == Fmt.fp32)
  else
    let state : Nat → Bool := fun f => f == Fmt.fp32 || f == Fmt.bf16
    (Tv.formatB h == (if tvBinary n then Fmt.fp32 else Fmt.none)) &&
      (if n = 3 then state a else a == Fmt.fp32) &&
      (if n = 5 then state o
       else if n = 0x101 then weightFormat o && !(Tv.sr h && (o == Fmt.binary || o == Fmt.cb16))
       else o == Fmt.fp32)

/-- The bytes of parameters an operation of engine 0 takes before its generator values, and whether it takes those. -/
def tvParams (n : Nat) : Nat × Bool :=
  match n with
  | 1 => (0, true)
  | 2 => (8, true)
  | 3 => (8, false)
  | 4 => (16, false)
  | 5 => (8, true)
  | 6 => (8, true)
  | _ => (0, false)

/-! R205 gives the parameters of engine 6 as the group-entry or layer-entry fields an operation reads, in the order of their
layouts. How they are packed, and what stands for the fields that are not entries' own, it does not say (DESIGN CHOICE, log
entry 106): each in whole 32-bit words as its entry holds them, and generator values last. An immediate and a scalar stand as
themselves; a product has the group entry's first word; a state's load or store has the word of its record that holds FORMAT; the
recurrence has the first word, LR_BASE, DECAY, EPSILON, N_G and the state records; the working copy has the layer entry's first
four words, then its learned weight scales and its codebook; the curve has POSITION. -/

/-- Bytes of the learned weight scales and the codebook behind a layer entry's words. -/
def tvLayerExtra (e : Nat) : Nat := (if Le.wLearned e then 4 * Le.outCh e else 0) + (if Le.wFormat e = Fmt.cb16 then 32 else 0)

/-- The state records of a recurrence record: the group entry its parameters spell. -/
def tvGroup (r : Bytes) : Nat :=
  fld (leAt r 0 4) 0 + fld (leAt r 4 4) 96 + fld (leAt r 8 4) 128 + fld (leAt r 12 4) 160 + fld (leAt r 16 4) 192 +
    ((List.range (min 4 (bits (leAt r 0 4) 5 3))).map (fun k => fld (leAt r (20 + 24 * k) 24) (512 + 192 * k))).sum

/-- The states of a recurrence record that are stored under SR. -/
def tvSrStates (g : Nat) : List Nat := (List.range (min 4 (Ge.states g))).filter (fun k => Ge.rounding (Ge.record g k) == 1)

/-- The bytes of parameters a record of engine 6 takes. -/
def tvNeeds6 (h : Nat) (r : Bytes) : Nat :=
  let n := Tv.number h
  if n = 5 then 4 + (if Tv.sr h then 2 * Tv.elements h else 0)
  else if n = 3 ∨ (0x20 ≤ n ∧ n ≤ 0x29) ∨ n = 0x39 ∨ n = 0x3A ∨ n = 0x102 then 4
  else if n = 0x100 then 20 + 24 * min 4 (Ge.states (tvGroup r)) + 2 * Tv.elements h * (tvSrStates (tvGroup r)).length
  else if n = 0x101 then 16 + tvLayerExtra (leAt r 0 16) + (if Tv.sr h then 2 * Tv.elements h else 0)
  else 0

/-- PARAM_BYTES hold what the operation takes, as far as the header says it. -/
def tvParamsFit (h : Nat) : Bool :=
  Tv.engine h != 0 || (let p := tvParams (Tv.number h)
    p.1 + (if p.2 && Tv.sr h then 2 * Tv.converted h else 0) ≤ Tv.paramBytes h)

/-- A record that breaks R85: a reserved bit of its outcome block is set, or PARAM_BYTES do not hold what it takes. -/
def tvRecordWrong (h : Nat) (r : Bytes) : Bool :=
  bits (leAt r (Tv.outcomeAt h) 4) 4 28 != 0 || (Tv.engine h == 6 && Tv.paramBytes h < tvNeeds6 h r)

/-- A code FORMAT_SUPPORT supports (R80). -/
def Device.supports (d : Device) (f : Nat) : Bool := f < 64 && bit d.sec.fuses.formats f

/-- The header breaks R85. -/
def Device.tvHeaderWrong (d : Device) (size h : Nat) : Bool :=
  Tv.magic h != 0x46565451 || 1 < Tv.fileVersion h || Tv.headerSize h != 128 ||
    !d.supports (Tv.formatA h) || !d.supports (Tv.formatOut h) ||
    (Tv.formatB h != Fmt.none && !d.supports (Tv.formatB h)) || d.sec.fuses.stepping < Tv.stepping h ||
    Tv.recordSize h != Tv.sizeWanted h || bits h 106 6 != 0 || bits h 320 192 != 0 || Tv.count h == 0 ||
    size < 128 + Tv.count h * Tv.recordSize h || (Tv.bBytes h != 0 && Tv.formatB h == Fmt.none) || 7 < Tv.engine h ||
    !tvDefined (Tv.engine h) (Tv.number h) || !tvSuits h || 1 < Tv.rounding h ||
    (Tv.sr h && (Tv.formatOut h == Fmt.fp32 || Tv.formatOut h == Fmt.int32)) || !tvParamsFit h

/-- A file that R85 refuses as a whole. -/
def Device.tvFileWrong (d : Device) (obj h : Nat) : Bool :=
  d.tvHeaderWrong (d.sizeOf obj * blockBytes) h ||
    leAt (sha512 (d.readBytes obj 128 (Tv.count h * Tv.recordSize h))) 0 64 != Tv.digest h ||
    (List.range (Tv.count h)).any (fun i => tvRecordWrong h (d.readBytes obj (128 + i * Tv.recordSize h) (Tv.recordSize h)))

/-! ### One record (R82 to R84, R506) -/

/-- What a record makes: its output bytes, its flags and the outcomes of its elements. -/
structure TvMade where
  out      : Bytes
  flags    : Flags := 0
  outcomes : List ConvOutcome := []

/-- Conversions packed as output elements. -/
def tvPack (f : Nat) (cs : List Conv) : TvMade :=
  { out := packBits (fmtBits f) (cs.map (·.code)), flags := orFlags (cs.map (·.flags)), outcomes := cs.map (·.outcome) }

/-- The rounding of element `i`: its generator value stands after `off` bytes of parameters. -/
def tvRounding (h off : Nat) (r : Bytes) (i : Nat) : Rounding := if Tv.sr h then .sr (leAt r (off + 2 * i) 2) else .rne

/-- Dequantisation as a conversion into FP32 (R75); under an invalid scale word every element is a NaN (R62). -/
def tvDequantise (f : Nat) (w : ScaleWord) (code : Nat) : Conv :=
  if w.valid then
    let v := Val.mul (floatVal Fmt.fp32 w.scale) (codeVal f code w.zero)
    let c := toFloat Fmt.fp32 .rne v.1
    { c with flags := c.flags ||| v.2 }
  else { toFloat Fmt.fp32 .rne (.nan false) with flags := Flags.invalid }

/-- Quantisation (R74); under an invalid scale word every element is a NaN input. -/
def tvQuantise (f : Nat) (mode : Rounding) (w : ScaleWord) (x : Nat) : Conv :=
  if w.valid then quantise f mode w.scale w.zero x else quantise f mode fOne w.zero fNaN

/-- Expansion by scale and zero point (R78). -/
def tvExpand (f : Nat) (mode : Rounding) (w : ScaleWord) (code : Nat) : Conv :=
  let q := tvDequantise f w code
  let c := convF32 Fmt.e4m3 mode q.code
  { c with flags := c.flags ||| q.flags }

/-- Expansion by table (R77): the entry is the result as it stands, a NaN entry of 0xFF with its sign, where R54's canonical NaN
would be 0x7F (DESIGN CHOICE, log entry 95). -/
def tvTable (table code : Nat) : Conv :=
  let e := bits table (8 * code) 8
  ⟨e, 0, match floatVal Fmt.e4m3 e with
    | .fin _ n _ => if n = 0 then .zero else .none
    | _ => .nonFinite⟩

/-- Block lines encoded: as many values to a line as it holds, each with its generator value. -/
def tvEncode (h : Nat) (r : Bytes) (xs : List Nat) : TvMade :=
  let f := Tv.formatOut h
  let n := lineElems f
  let lines := (List.range (ceilDiv xs.length n)).map (fun k =>
    lineEncode f (leAt r 0 8 % 64) ((List.range (min n (xs.length - n * k))).map (fun i =>
      (xs.getD (n * k + i) 0, tvRounding h 8 r (n * k + i)))))
  { out := (lines.map (·.bytes)).flatten, flags := orFlags (lines.map (·.flags)), outcomes := lines.flatMap (·.outcomes) }

/-- Block lines decoded (R63); a line that R64 refuses writes nothing, its place being zero bytes (R506). The elements of a line
whose VALID is below full are followed at once by the next line's: the text does not say where they stand (DESIGN CHOICE, log
entry 96). -/
def tvDecode (f : Nat) (a : Bytes) : TvMade :=
  let outs := (chunks 288 (a.length + 1) a).map (fun l =>
    let s := lineSide l
    if s.ok && s.fmt == f then lineConvs l
    else List.replicate (lineElems f) ⟨0, 0, .none⟩)
  tvPack Fmt.fp32 outs.flatten

/-- A converter record (R84). A scale word of another format is refused and writes nothing. -/
def tvConverter (h : Nat) (r : Bytes) : TvMade :=
  let fa := Tv.formatA h
  let fo := Tv.formatOut h
  let a := slice r (Tv.aAt h) (Tv.aBytes h)
  let xs := unpackBits (fmtBits fa) (Tv.elements h) a
  let ix := List.range xs.length
  let w := ScaleWord.ofNat (leAt r 0 8)
  match Tv.number h with
  | 1 => tvPack fo (ix.map (fun i => toFloat fo (tvRounding h 0 r i) (floatVal fa (xs.getD i 0))))
  | 2 => if w.fmt = fo then tvPack fo (ix.map (fun i => tvQuantise fo (tvRounding h 8 r i) w (xs.getD i 0))) else { out := [] }
  | 3 => if w.fmt = fa then tvPack fo (xs.map (tvDequantise fa w)) else { out := [] }
  | 4 => tvPack fo (xs.map (tvTable (leAt r 0 16)))
  | 5 => if w.fmt = fa then tvPack fo (ix.map (fun i => tvExpand fa (tvRounding h 8 r i) w (xs.getD i 0))) else { out := [] }
  | 6 => tvEncode h r xs
  | _ => tvDecode fa a

/-! Engine 6 (R205). -/

/-- A tile of elements: 256 rows, column after column, as masters stand; fewer than a column, or a rest, is one row (DESIGN CHOICE,
log entry 106). -/
def tvTile (xs : List Nat) : Mat :=
  let n := xs.length
  let rows := if n = 0 ∨ n % 256 ≠ 0 then 1 else 256
  Mat.of rows (n / rows) (fun i j => xs.getD (j * rows + i) 0)

/-- A tile's elements. -/
def tvElements (m : Mat) : List Nat := (List.range m.cols).flatMap (fun j => (List.range m.rows).map (fun i => m.at_ i j))

/-- FP32 results, whose outcomes are the non-finite ones. -/
def tvFp32 (xs : List Nat) (flags : Flags) : TvMade :=
  { out := packBits 32 xs, flags := flags, outcomes := xs.map (fun x => if fIsFinite x then .none else .nonFinite) }

/-- The elements of the parts of a record of engine 6. -/
def tvA (h : Nat) (r : Bytes) : List Nat := unpackBits (fmtBits (Tv.formatA h)) (Tv.elements h) (slice r (Tv.aAt h) (Tv.aBytes h))
def tvB (h : Nat) (r : Bytes) : List Nat := unpackBits 32 (Tv.bBytes h / 4) (slice r (Tv.bAt h) (Tv.bBytes h))

/-- An operation that only computes: FMA's C stands behind B, of its size. A scalar is the one the parameters hold. -/
def tvMatrix (h : Nat) (r : Bytes) : TvMade :=
  let n := Tv.number h
  let p := leAt r 0 4
  let ys := tvB h r
  let b := if n = 0x1A then ys.take (ys.length / 2) else ys
  let gr := if n = 0x39 ∨ n = 0x3A then p else 0
  let m := matOp gr { eta := p } (fld n 0 + fld p 32) (tvTile (tvA h r)) (tvTile b) (tvTile (ys.drop (ys.length / 2)))
  tvFp32 (tvElements m.1) m.2

/-- The recurrence of R195 on one tile: input A the gradients; input B the masters and then each state, in FP32; the output the new
masters and the states as stored, in FP32. The record gives no curve and no multiplier: `sigma` stands for their product. -/
def tvRecurrence (h : Nat) (r : Bytes) (sigma : Nat) : TvMade :=
  let gr := tvGroup r
  let ks := List.range (min 4 (Ge.states gr))
  let gs := tvA h r
  let n := gs.length
  let ys := tvB h r
  let eta := fmul (plusZero (Ge.lrBase gr)) sigma
  let cx : GroupCtx := { eta := eta, etaDecay := fmul eta (plusZero (Ge.decay gr)), h := ks.map (fun k => stateH (Ge.record gr k)) }
  let mode : Nat → Nat → Rounding := fun k e => match (tvSrStates gr).findIdx? (· == k) with
    | some i => .sr (leAt r (20 + 24 * ks.length + 2 * (n * i + e)) 2)
    | none => .rne
  let old : Nat → List Nat := fun e => ks.map (fun k => ys.getD ((1 + k) * n + e) 0)
  let raw : Nat → List FV := fun e => ks.map (fun k => recState (Ge.record gr k) ((old e).getD k 0) (gs.getD e 0))
  let convs : Nat → List Conv := fun e => ks.map (fun k =>
    convF32 (if Ge.bf16 (Ge.record gr k) then Fmt.bf16 else Fmt.fp32) (mode k e) ((raw e).getD k (0, 0)).1)
  let new : Nat → List Nat := fun e => ks.map (fun k =>
    let c := ((convs e).map (·.code)).getD k 0
    if Ge.bf16 (Ge.record gr k) then toF32 Fmt.bf16 c else c)
  let made : Nat → FV := fun e => recMaster gr cx (if Ge.combineFirst gr then old e else new e) (gs.getD e 0) (ys.getD e 0)
  let es := List.range n
  tvFp32 (es.map (fun e => (made e).1) ++ ks.flatMap (fun k => es.map (fun e => (new e).getD k 0)))
    (orFlags (es.map (fun e => (made e).2 ||| orFlags ((raw e).map (·.2)) ||| orFlags ((convs e).map (·.flags)))))

/-- The working copy of R201 on the masters of a layer entry: the codes in master order, with the flags of deriving their scales. -/
def tvCopy (h : Nat) (r : Bytes) : TvMade :=
  let e := leAt r 0 16
  let f := Tv.formatOut h
  let ws := tvA h r
  let at_ := 16 + (if Le.wLearned e then 4 * Le.outCh e else 0)
  let book := if f = Fmt.cb16 then (List.range 16).map (fun k => leAt r (at_ + 2 * k) 2) else []
  let gens := 16 + tvLayerExtra e
  tvPack f ((List.range (Le.outCh e)).flatMap (fun o =>
    let col := (ws.drop (o * Le.inCh e)).take (Le.inCh e)
    let sz := if f = Fmt.bf16 then (fOne, 0, 0) else narrowScale f (if Le.wLearned e then some (leAt r (16 + 4 * o) 4) else none) book col
    (List.range col.length).map (fun i =>
      let c := weightCode f (tvRounding h gens r (o * Le.inCh e + i)) sz.1 sz.2.1 book (col.getD i 0)
      { c with flags := c.flags ||| sz.2.2 })))

/-- A record of engine 6 with `sigma` for the multipliers that it does not give. -/
def tvLapidary (h : Nat) (r : Bytes) (sigma : Nat) : TvMade :=
  let n := Tv.number h
  if n = 0 then { out := [] }
  else if n = 3 then
    let cs := (tvA h r).map (fun x => toFloat Fmt.fp32 .rne (floatVal (Tv.formatA h) x))
    tvPack Fmt.fp32 cs
  else if n ≤ 4 then tvFp32 (tvA h r) 0
  else if n = 5 then
    let xs := tvA h r
    tvPack (Tv.formatOut h) ((List.range xs.length).map (fun i => convF32 (Tv.formatOut h) (tvRounding h 4 r i) (xs.getD i 0)))
  else if n = 0x100 then tvRecurrence h r sigma
  else if n = 0x101 then tvCopy h r
  else if n = 0x102 then
    let v := curveFlagged (slice r (Tv.aAt h) (Tv.aBytes h)) (leAt r 0 4)
    tvFp32 [v.1] v.2
  else tvMatrix h r

/-- The output and the outcome block of a record are the expected ones (R83). -/
def TvMade.passes (m : TvMade) (h : Nat) (r : Bytes) : Bool :=
  let n : ConvOutcome → Nat := fun o => (m.outcomes.filter (· == o)).length
  slice m.out 0 (Tv.outBytes h) == slice r (Tv.outAt h) (Tv.outBytes h) &&
    slice r (Tv.outcomeAt h) 16 == leBytes 16 (fld (m.flags % 16) 0 + fld (n .saturation) 32 + fld (n .vanishing) 64 + fld (n .nonFinite) 96)

/-- A record runs. What multiplies LR_BASE in a record of the recurrence (σ and the step multiplier) is open. -/
def Device.tvRecord (d : Device) (h : Nat) (r : Bytes) : Bool × Device :=
  if Tv.engine h = 0 then ((tvConverter h r).passes h r, d)
  else
    let (k, d) := d.draw
    ((tvLapidary h r (Config.unstated k % 2 ^ 32)).passes h r, d)

/-- Records from index `i`: how many run, how many pass, and the first that fails. -/
def Device.tvRecords (d : Device) (obj h : Nat) : Nat → Nat → (Nat × Nat × Option Nat) × Device
  | 0, _ => ((0, 0, none), d)
  | n + 1, i =>
    let (ok, d) := d.tvRecord h (d.readBytes obj (128 + i * Tv.recordSize h) (Tv.recordSize h))
    let ((run, passed, first), d) := d.tvRecords obj h n (i + 1)
    ((run + 1, passed + ok.toNat, if ok then first else some i), d)

/-! ### The run (R483, R484) -/

namespace TvReq
def handle (v : Nat) : Nat := bits v 0 32
def die (v : Nat) : Nat := bits v 32 2
def cluster (v : Nat) : Nat := bits v 34 5
def first (v : Nat) : Nat := bits v 64 32
def limit (v : Nat) : Nat := bits v 96 32
/-- A reserved bit or value. -/
def wrong (v : Nat) : Bool := bits v 44 20 != 0 || 16 < cluster v
end TvReq

/-- The last two checks of R483, on a file that can be read. -/
def Device.tvChecks (d : Device) (v : Nat) (others : Bool) : Nat :=
  let obj := TvReq.handle v
  let h := d.readNat obj 0 128
  let st := d.clusterState (17 * TvReq.die v + TvReq.cluster v)
  if d.tvFileWrong obj h ∨ Tv.count h ≤ TvReq.first v then St.range
  else if others ∨ (if Tv.engine h = 6 ∨ Tv.engine h = 7 then d.runState != 0 else st != 1 && st != 3 && st != 5) then St.busy
  else St.ok

/-- The conditions of R479 that another command or the device's state sets. -/
def Device.tvOthers (d : Device) : Bool :=
  d.svc.job.isSome || d.pwr.hold || d.get Obj.powerTransition != 0 || d.runState == 1 || d.runState == 4

/-- A run ends: TV_RESULT, the event and the final response. -/
def Device.tvEnds (d : Device) (start status run passed first : Nat) (sel : Waiting → Bool) : Device :=
  let d := d.put Obj.tvResult (fld status 0 + fld run 32 + fld passed 64 + fld first 96 + fld start 128)
  (d.raise 0x1104 [a2 status, a4 run, a4 passed, a4 first]).finish sel { status := status }

/-- A run refused before any record ran. -/
def Device.tvRefused (d : Device) (start status : Nat) (sel : Waiting → Bool) : Device := d.tvEnds start status 0 0 0xFFFF_FFFF sel

/-- The waiting requests of TV_RUN. -/
def tvWaits (w : Waiting) : Bool := w.key == Obj.tvRun

/-- An accepted TV_RUN, by the list of R483: it ends at once, waits for its object, or runs. -/
def Device.tvBegins (d : Device) (rq : Req) (v : Nat) : Device :=
  let mine : Waiting → Bool := fun w => tvWaits w && w.rq == rq
  let now := d.mono
  match d.entry (TvReq.handle v) with
  | none => d.tvRefused now St.range mine
  | some e =>
    if TvReq.wrong v then d.tvRefused now St.range mine
    else if e.lost then d.tvRefused now St.objectLost mine
    else if e.tier = 1 ∨ e.poisoned then
      if d.svc.tv.isSome then d.tvRefused now St.busy mine
      else (d.onSvc (fun x => { x with tv := some ⟨v, now, true⟩ })).awaitObject (TvReq.handle v) none .tvRun noStage (d.get Obj.takeNumber)
    else
      let st := d.tvChecks v (d.tvOthers || d.svc.tv.isSome)
      if st ≠ St.ok then d.tvRefused now st mine
      else d.onSvc (fun x => { x with tv := some ⟨v, now, false⟩ })

/-- TV_RUN (R483): it is answered with PENDING whatever its final status. -/
def execTvRun (rq : Req) (value : Nat) (s : State) := onReq s rq (fun d =>
  let before := d.ctl.waiting.length
  let d := d.command rq Obj.tvRun value (fun d _ _ => (St.pending, d))
  if d.ctl.waiting.length = before then d else d.tvBegins rq (value % 2 ^ 128))

/-- The records of a run. -/
def Device.tvRuns (d : Device) (j : TvJob) : Device :=
  let obj := TvReq.handle j.request
  let h := d.readNat obj 0 128
  let all := Tv.count h - TvReq.first j.request
  let n := if TvReq.limit j.request = 0 then all else min all (TvReq.limit j.request)
  let ((run, passed, first), d) := d.tvRecords obj h n (TvReq.first j.request)
  d.tvEnds j.start St.ok run passed (first.getD 0xFFFF_FFFF) tvWaits

/-- TV_RUN_DONE (R484): a file that waited is checked once it can be read. -/
def Device.tvDone (d : Device) : Device :=
  match d.svc.tv with
  | none => d
  | some j =>
    match d.entry (TvReq.handle j.request) with
    | none => (d.onSvc (fun x => { x with tv := none })).tvRefused j.start St.range tvWaits
    | some e =>
      if e.lost then (d.onSvc (fun x => { x with tv := none })).tvRefused j.start St.objectLost tvWaits
      else if e.tier = 1 ∨ e.poisoned then d
      else
        let d := d.onSvc (fun x => { x with tv := none })
        let st := if j.waited then d.tvChecks j.request d.tvOthers else St.ok
        if st ≠ St.ok then d.tvRefused j.start st tvWaits else d.tvRuns j

def execTvRunDone (s : State) := onDev s Device.tvDone

/-! ### Hold limits (R270) -/

/-- The hold limit of a run that waits for its file. -/
def Device.tvHoldExpires (d : Device) (h : Nat) : Device :=
  if !d.ms.waiters.contains (h, .tvRun) then d
  else
    let d := (d.onMs (fun m => { m with waiters := m.waiters.filter (· != (h, .tvRun)) })).objectLost h (d.get Obj.takeNumber)
    match d.svc.tv with
    | some j => (d.onSvc (fun x => { x with tv := none })).tvRefused j.start St.objectLost tvWaits
    | none => d

/-- The hold limit of a Lapidary's layer update passes: its object is LOST, and the layer stays stopped (R265, R270). -/
def Device.lapidaryHoldExpires (d : Device) (h lap : Nat) : Device :=
  if !d.ms.waiters.contains (h, .lapidary lap) then d
  else (d.onMs (fun m => { m with waiters := m.waiters.filter (· != (h, .lapidary lap)) })).objectLost h (d.get Obj.takeNumber)

/-- HOLD_LIMIT_EXPIRY of a waiter on an object (R270). The command's second operand numbers the waiters: below 2^20 the
handle of a stage; 2^20 + 64 × port + queue a DMA queue; 2^21 the arming; 2^22 a test-vector run; 2^23 and 2^23 + 1 the
Lapidaries. -/
def Device.holdLimit (d : Device) (h waiter : Nat) : Device :=
  if waiter < 2 ^ 20 then d.holdExpires h waiter
  else if waiter < 2 ^ 21 then d.dmaHoldExpires h ((waiter - 2 ^ 20) / 64) ((waiter - 2 ^ 20) % 64)
  else if waiter = 2 ^ 21 then d.armHoldExpires h
  else if waiter = 2 ^ 22 then d.tvHoldExpires h
  else if waiter = 2 ^ 23 ∨ waiter = 2 ^ 23 + 1 then d.lapidaryHoldExpires h (waiter - 2 ^ 23)
  else d

def execHoldLimitExpiry (handle waiter : Nat) (s : State) := onDev s (fun d => d.holdLimit handle waiter)

end Sys2Proof.Machine
end

