-- ==== Sys2Proof/Machine/Requests.lean ====
section
/-!
DEFINITION. The requests of the dictionary as they arrive (R344, R349 to R355, R362 to R364): what a READ returns, what a
WRITE of any object does, segmented transfers, the mailbox and the PDU frames of the field network, and the registers of
BAR0 (R374, R375).
-/
namespace Sys2Proof.Machine

/-! ### What a read returns -/

/-- The 32-byte record of LINK_STATUS (R303). -/
def LinkState.code : LinkState → Nat
  | .down => 0
  | .training => 1
  | .trained => 2
  | .up => 3
  | .spare => 4
  | .retraining => 5
  | .retired => 6
  | .miswired => 7

/-- A U32 count that stays at its highest value (R303). -/
def stuck32 (n : Nat) : Nat := min n (2 ^ 32 - 1)

/-- LINK_STATUS of a link (R303). -/
def Device.linkRecord (d : Device) (l : Nat) : Nat :=
  let x := d.link l
  fld x.state.code 0 + fld ((d.portOfLink l).getD 127) 4 + fld x.peerRank 16 + fld (stuck32 x.retrains) 32 +
    fld (stuck32 x.retries) 64 + fld (stuck32 x.crcErrors) 96 + fld (x.fecCorrected % 2 ^ 64) 128 +
    fld (x.fecUncorrectable % 2 ^ 64) 192

/-- One bit per UP link, of `n` links from link `lo`. -/
def Device.upMask (d : Device) (lo n : Nat) : Nat :=
  (List.range n).foldl (fun w i => if (d.link (lo + i)).state = .up then setBit w i else w) 0

/-- The state of a gate node under way (R425): a HOLD that drains, or an opening. -/
def Device.gateStatus (d : Device) (n : Nat) : Nat :=
  let held := d.pwr.heldNodes.contains n
  let retired := 2 ≤ nodeLevel n && d.retired (nodeDie n) (nodeCluster n)
  fld held.toNat 0 + fld (held || retired || !d.inUse n).toNat 1 + fld (d.inUse n).toNat 2 +
    fld (if d.pwr.draining.contains n then 1 else if d.pwr.opening.contains n then 3 else 0) 3

/-- STREAM_STATE of a stream (R241). -/
def Device.streamCode (d : Device) (s : Nat) : Nat :=
  if s = 0 then d.run.stream0.toNat
  else match tget d.streams s with
  | none => 0
  | some x => match x.state with
    | .opened => 1
    | .halted => 2
    | .closing => 3

/-- COMPRESS_RATIO of a Lapidary (R276), rounded once to FP32; 1.0 where it holds no compressed object. -/
def Device.compressRatio (d : Device) (lap : Nat) : Nat :=
  let es := (d.ms.dir.filter (fun p => p.2.tier == 3 + lap && p.2.compressed)).map (·.2)
  let stored := (es.map (·.sectors)).sum
  if stored = 0 then 0x3F80_0000 else (toFloat Fmt.fp32 .rne (.fin false (128 * (es.map (·.size)).sum) stored)).code

/-- SLOT_INFO of a firmware slot (R469). -/
def Device.slotInfo (d : Device) (slot : Nat) : Nat :=
  let m := d.slotImage slot
  let c := d.slotCheck slot
  fld (if c = 0 then 1 else 0) 0 + fld c 4 + fld (Image.keySlot m) 8 + fld (Image.svn m % 256) 16 + fld (Image.version m) 64

/-- RETENTION_USED (R419): the items an entry saved, and the held BOOT values at their own lengths. -/
def Device.retentionUsed (d : Device) : Nat :=
  let items := match d.pwr.retained with
    | some 2 => 112
    | some _ => 233
    | none => 0
  1024 * items + (d.ctl.held.map (fun h => match rowOfKey h.1 with
    | some r => r.len
    | none => 0)).sum

/-- SUPPLY_STATUS (R425): the warnings of the rails R415 does not monitor read 0. -/
def Device.supplyStatus (d : Device) : Nat := bits d.pwr.pwrGood 0 9 + fld (bits d.pwr.warning 2 7) 11

/-- DOMAIN_STATE of a domain (R425). -/
def Device.domainState (d : Device) (n : Nat) : Nat :=
  let x := d.domain n
  fld x.pllReady.toNat 0 + fld x.running.toNat 1 + fld x.held.toNat 2 + fld x.ref 3

/-- The entry DIR_ENTRY reads (R246, R247): an UNUSED entry is all 0; what the Q96's own entries hold is not stated,
their reserved fields aside, which are 0. -/
def Device.dirWord (d : Device) (ix : Nat) : Nat :=
  if ownRange ix then
    putBits (putBits (putBits (putBits (Config.unstated (2 ^ 64 + ix) % 2 ^ 256) 18 6 0) 49 15 0) 145 7 0) 154 6 0
  else match tget d.ms.dir ix with
    | some e => entryWord e
    | none => 0

/-- DOUBLE_OF (R318): the ranks served, the rest unused. -/
def Device.doubleOf (d : Device) : Nat :=
  leNat (((List.range 8).map (fun i => leBytes 2 (match d.still.served[i]? with
    | some s => s.rank
    | none => 0xFFFF))).flatten)

/-- The numbers read from the fuses at boot (R445). -/
def Device.fusedValue (d : Device) (key : Nat) : Option Nat :=
  let f := d.sec.fuses
  if key = Obj.stepping then some f.stepping
  else if key = Obj.serialNumber then some f.serial
  else if key = Obj.formatSupport then some f.formats
  else if Obj.voltTrimCd ≤ key ∧ key ≤ Obj.voltTrimCd + 3 then some (bits f.trims (32 * (key - Obj.voltTrimCd)) 32)
  else if key = Obj.debugLock then some f.debugLock
  else if key = Obj.antiRollbackFuses then some f.rollback
  else if key = Obj.antiRollback then some (antiRollbackOf f)
  else if key = Obj.fwKeys then some f.fwKeys
  else if key = Obj.fwKeyRevoked then some f.fwRevoked
  else if key = Obj.serviceKeys then some f.serviceKeys
  else if key = Obj.serviceKeyRevoked then some f.serviceRevoked
  else if key = Obj.roleWriteMap then some f.roleMap
  else none

/-- Objects of clocks, gates and power that report other state (R425). -/
def Device.powerValue (d : Device) (key : Nat) : Option Nat :=
  if key = Obj.clockStatus then
    some ((List.range 6).foldl (fun w r => if d.refReady r then setBit w r else w) 0 + fld d.pwr.hold.toNat 6)
  else if Obj.refSelect ≤ key ∧ key ≤ Obj.refSelect + 12 then
    some (tgetD d.ctl.dict key (refDefault (key - Obj.refSelect)))
  else if Obj.domainState ≤ key ∧ key ≤ Obj.domainState + 12 then some (d.domainState (key - Obj.domainState))
  else if key = Obj.gateState then some (d.gateStatus (d.get Obj.gateSelect))
  else if key = Obj.retentionUsed then some d.retentionUsed
  else if key = Obj.supplyStatus then some d.supplyStatus
  else none

/-- Objects of the tiers, the stages and the streams that report other state (R241, R276). -/
def Device.tierValue (d : Device) (key : Nat) : Option Nat :=
  if key = Obj.dirUsed then some (256 + d.ms.dir.length)
  else if key = Obj.dirEntry then some (d.dirWord (d.get Obj.dirSelect))
  else if key = Obj.fastFree then some (d.fastFree * blockBytes)
  else if key = Obj.slowFreeA then some (d.slowFree 0 * 512)
  else if key = Obj.slowFreeB then some (d.slowFree 1 * 512)
  else if key = Obj.compressRatioA then some (d.compressRatio 0)
  else if key = Obj.compressRatioB then some (d.compressRatio 1)
  else if key = Obj.generatorBindings then some d.bindings.length
  else if key = Obj.boundStages then some d.stages.length
  else if key = Obj.streamState then some (d.streamCode (d.get Obj.streamSelect))
  else if key = Obj.streamsOpen then some d.streams.length
  else none

/-- Objects of the links, the doubles, the events, the trust chapter and service that report other state (R305, R338,
R400, R469, R489). -/
def Device.otherValue (d : Device) (key : Nat) : Option Nat :=
  if key = Obj.linkStatus then some (d.linkRecord (d.get Obj.linkSelect))
  else if key = Obj.linkUpLo then some (d.upMask 0 64)
  else if key = Obj.linkUpHi then some (d.upMask 64 32)
  else if key = Obj.linksInService then some d.linksInService
  else if key = Obj.doubleOf then some d.doubleOf
  else if key = Obj.bootStatus then some (fld (d.slotOf 0) 0 + fld d.sec.fallback.toNat 1 + fld d.sec.failure 4)
  else if key = Obj.slotInfoA then some (d.slotInfo 0)
  else if key = Obj.slotInfoB then some (d.slotInfo 1)
  else if key = Obj.preferredSlot then some d.sec.preferred
  else if key = Obj.identityPublicKey then some (leNat d.sec.publicKey)
  else if key = Obj.monoCounter then some d.mono
  else if key = Obj.bootEpoch then some d.sec.bootEpoch
  else if key = Obj.streamRecipeDigest then
    some (match tget d.streams (d.get Obj.streamSelect) with
      | some x => leNat x.recipe
      | none => 0)
  else if key = Obj.evqCellsFree then some (16384 - d.evqCellsHeld)
  else if Obj.evqConfig ≤ key ∧ key ≤ Obj.evqConfig + 255 then some (evqConfigOf (d.evq (key - Obj.evqConfig)))
  else if key = Obj.clusterServiceState then some (d.clusterState (selectedCluster (d.get Obj.clusterSelect)))
  else if key = Obj.liveSlotMap then some d.sec.slotMap
  else none

/-- The value in effect of any object: what it reports of other state, or the value it holds. -/
def Device.valueOf (d : Device) (key : Nat) : Nat :=
  match d.fusedValue key with
  | some v => v
  | none => match d.powerValue key with
    | some v => v
    | none => match d.tierValue key with
      | some v => v
      | none => match d.otherValue key with
        | some v => v
        | none => d.get key

/-- A staged or held value exists (R344). -/
def Device.waitingValue (d : Device) (key : Nat) : Option Nat :=
  match tget d.ctl.staged key with
  | some v => some v
  | none => tget d.ctl.held key

/-- The bytes a READ or a READ_STAGED returns; CERT_CHAIN alone has no fixed length (R469). -/
def Device.readObject (d : Device) (row : ObjRow) (key : Nat) (staged : Bool) : Bytes :=
  if key = Obj.certChain then d.certChain
  else leBytes row.len (if staged then (d.waitingValue key).getD (d.valueOf key) else d.valueOf key)

/-- READ and READ_STAGED (R344, R348, R350). -/
def Device.readRequest (d : Device) (rq : Req) (op index sub type : Nat) : Device :=
  let key := index * 256 + sub
  if !d.ctl.serving then d.notServing rq op key type
  else
    let d := d.served rq
    match d.checkRead rq false index sub type with
    | .error st => d.respond rq op key type { status := st }
    | .ok row =>
      let b := d.readObject row key (op == Op.readStaged)
      if portOf rq = none ∧ 1024 < b.length then d.respond rq op key type { status := St.type }
      else d.respond rq op key type { status := St.ok, staged := (d.waitingValue key).isSome, value := b }

/-- READ_STAGED (R350). -/
def execReadStaged (rq : Req) (index sub type : Nat) (s : State) :=
  onReq s rq (fun d => d.readRequest rq Op.readStaged index sub type)

/-! ### What a write does -/

/-- The two's complement value of a stored I32. -/
def Device.getInt (d : Device) (key : Nat) : Int := toSigned 32 (d.get key)

/-- A table of `n` entries of `size` bytes fits in the object a dictionary object names; one that names none holds no
table yet, and arming checks it. -/
def Device.tableFits (d : Device) (obj size n : Nat) : Nat :=
  match d.entry (d.get obj) with
  | some e => if e.size * blockBytes < n * size then St.noSpace else St.ok
  | none => St.ok

/-- A check that answers RANGE where it fails. -/
def orRange (b : Bool) : Nat := if b then St.ok else St.range

/-- Orders 8 and 9 of R348 of the stored objects, beyond a range of numbers (R150, R167, R186, R208, R242, R306, R339,
R426, R490). That a table would not fit is asked of a write of its count, not of one that names its object, which arming checks
(DESIGN CHOICE, log entry 132). -/
def objectCheck (key : Nat) (d : Device) (rq : Req) (v : Nat) : Nat :=
  if key = Obj.gateSelect then orRange (nodeValid v)
  else if key = Obj.stageCount then d.tableFits Obj.stageListObject 4 v
  else if key = Obj.trackerCount then d.tableFits Obj.trackerTableObject 320 v
  else if key = Obj.groupCount then d.tableFits Obj.groupTableObject 256 v
  else if key = Obj.layerCount then d.tableFits Obj.layerTableObject 64 v
  else if key = Obj.collectiveCount then d.tableFits Obj.collectiveTableObject 64 v
  else if key = Obj.statsSlots then d.tableFits Obj.statsObject (64 + 192 * d.get Obj.statsRecordCount) v
  else if key = Obj.gradScaleExp then
    orRange (d.getInt Obj.gradScaleMinExp ≤ toSigned 32 v && toSigned 32 v ≤ d.getInt Obj.gradScaleMaxExp)
  else if key = Obj.gradScaleMinExp then orRange (toSigned 32 v ≤ d.getInt Obj.gradScaleMaxExp)
  else if key = Obj.gradScaleMaxExp then orRange (d.getInt Obj.gradScaleMinExp ≤ toSigned 32 v)
  else if key = Obj.peerTimeoutUs then orRange (4 * d.get Obj.peerHeartbeatUs ≤ v)
  else if Obj.portConfig ≤ key ∧ key ≤ Obj.portConfig + 95 then orRange (!portReserved v && portPeerPort v ≤ 95)
  else if key = Obj.doubleAssign then orRange (bits v 17 15 == 0)
  else if key = Obj.riskNeighbour then orRange (d.roleOf rq != some 2)
  else if key = Obj.clusterSelect then orRange (bits v 0 5 ≤ 16 && !bit v 7)
  else St.ok

/-- What follows a write of a risk object at once (R329). -/
def Device.riskWritten (d : Device) (key v : Nat) : Device :=
  if key = Obj.riskFloor then d.riskUpdate
  else if key = Obj.riskNeighbour then d.riskSource Src.neighbour v
  else if key = Obj.riskCePerHour then d.riskSource Src.corrected d.correctedPoints
  else d

/-- A stored object. -/
def storedEffect (key : Nat) : Effect := fun d rq v =>
  let (st, d) := storeEffect key (objectCheck key) d rq v
  (st, if st = St.ok then d.riskWritten key v else d)

/-- A request that is answered with PENDING, its checks following it (R452, R483). -/
def pendingEffect : Effect := fun d _ _ => (St.pending, d)

/-- ROLLBACK_COMMIT through a request: what the two banks read after the blow comes from outside, so that it is free. -/
def rollbackOpen : Effect := fun d rq v =>
  let (a, d) := d.draw
  let (b, d) := d.draw
  rollbackEffect (Config.unstated a) (Config.unstated b) d rq v

/-- The objects whose write is a command, by key. -/
def commandEffects : List (Nat × Effect) :=
  [(Obj.runControl, runControlEffect), (Obj.conductorToken, tokenEffect), (Obj.objectCreate, createEffect),
   (Obj.objectDelete, deleteEffect), (Obj.objectPin, pinEffect), (Obj.objectUnpin, unpinEffect),
   (Obj.objectMove, moveEffect), (Obj.clockResume, clockResumeEffect), (Obj.gateControl, gateEffect),
   (Obj.powerRequest, powerEffect), (Obj.preferredSlot, preferredEffect), (Obj.rollbackCommit, rollbackOpen),
   (Obj.debugUnlock, debugEffect), (Obj.deviceReset, deviceResetEffect), (Obj.stageBind, stageBindEffect),
   (Obj.stageUnbind, stageUnbindEffect)] ++
  [(Obj.streamOpen, streamOpenEffect []), (Obj.streamClose, streamCloseEffect), (Obj.streamClear, streamClearEffect),
   (Obj.streamGrant0, streamGrantEffect 0), (Obj.streamGrant1, streamGrantEffect 1),
   (Obj.versionPublish, versionPublishEffect), (Obj.batchRing0, batchRingEffect 0), (Obj.batchRing1, batchRingEffect 1),
   (Obj.logConsumed, logConsumedEffect), (Obj.collectiveStart, collectiveStartEffect),
   (Obj.linkRetrain, linkRetrainEffect), (Obj.clusterCommand, clusterEffect), (Obj.liveUpdate, liveUpdateEffect),
   (Obj.fwUpdate, pendingEffect), (Obj.tvRun, pendingEffect)]

/-- What a write of an object does, by its key. -/
def effectOf (key : Nat) : Effect :=
  match commandEffects.find? (fun p => p.1 == key) with
  | some p => p.2
  | none =>
    if Obj.refSelect ≤ key ∧ key ≤ Obj.refSelect + 12 then refSelectEffect (key - Obj.refSelect)
    else if Obj.evqConfig ≤ key ∧ key ≤ Obj.evqConfig + 255 then evqConfigEffect (key - Obj.evqConfig)
    else storedEffect key

/-- What follows the response to a write: an arming begins, the management pair restarts for its new firmware, the checks
of a FW_UPDATE or a TV_RUN run. `before` is the device before the write. -/
def Device.writeFollows (d before : Device) (rq : Req) (key v : Nat) : Device :=
  if key = Obj.runControl then (if d.runState = 1 ∧ d.run.arm = none then d.armBegin else d)
  else if key = Obj.liveUpdate then
    (match before.sec.liveUpdate, d.sec.liveUpdate with
     | none, some (0, _) => d.mgmtStops 0
     | _, _ => d)
  else if key = Obj.powerRequest then d.idlingAnswer
  else if key = Obj.fwUpdate then d.fwRequest rq v
  else if key = Obj.tvRun then
    (if d.ctl.waiting.length = before.ctl.waiting.length then d else d.tvBegins rq (v % 2 ^ 128))
  else d

/-- A WRITE of any object (R344, R348). -/
def Device.writeRequest (d : Device) (rq : Req) (index sub type : Nat) (value : Bytes) : Device :=
  let key := index * 256 + sub
  (d.dictWrite rq key type value (effectOf key)).writeFollows d rq key (leNat value)

/-! ### Segmented transfers (R352) -/

/-- The bytes of one segment. -/
def segmentBytes : Nat := 1024

/-- A requester's open transfer. -/
def Device.transferOf (d : Device) (p : Path) : Option Transfer := tget d.ctl.transfers (requester p)

/-- A requester's transfer set or ended. -/
def Device.setTransfer (d : Device) (p : Path) (t : Transfer) : Device :=
  d.onCtl (fun c => { c with transfers := tset c.transfers (requester p) t })
def Device.endTransfer (d : Device) (p : Path) : Device :=
  d.onCtl (fun c => { c with transfers := tdel c.transfers (requester p) })

/-- The operations of a segmented transfer are refused on the mailbox (R352). -/
def Device.segRequest (d : Device) (rq : Req) (op key type : Nat) (f : Device → Device) : Device :=
  if !d.ctl.serving then d.notServing rq op key type
  else
    let d := d.served rq
    if (portOf rq).isSome then d.respond rq op key type { status := St.range } else f d

/-- SEG_READ_INIT: a copy of the value is taken. -/
def Device.segReadInit (d : Device) (rq : Req) (index sub type : Nat) : Device :=
  let key := index * 256 + sub
  d.segRequest rq Op.segReadInit key type (fun d =>
    match d.checkRead rq true index sub type with
    | .error st => d.respond rq Op.segReadInit key type { status := st }
    | .ok row =>
      let b := d.readObject row key false
      (d.setTransfer rq.path { key := key, len := b.length, write := false, data := b, next := 0 }).respond rq
        Op.segReadInit key type { status := St.ok, staged := (d.waitingValue key).isSome, len := some b.length })

/-- SEG_READ_NEXT: a segment of the copy, in any order and as often as asked. Every response carries the segment's number (R349). -/
def Device.segReadNext (d : Device) (rq : Req) (index sub type segment : Nat) : Device :=
  let key := index * 256 + sub
  d.segRequest rq Op.segReadNext key type (fun d =>
    match d.checkRead rq true index sub type with
    | .error st => d.respond rq Op.segReadNext key type { status := st, seg := segment }
    | .ok _ =>
      match d.transferOf rq.path with
      | none => d.respond rq Op.segReadNext key type { status := St.range, seg := segment }
      | some t =>
        let n := max 1 (ceilDiv t.len segmentBytes)
        if t.write ∨ t.key ≠ key ∨ n ≤ segment then d.respond rq Op.segReadNext key type { status := St.range, seg := segment }
        else d.respond rq Op.segReadNext key type
          { status := St.ok, last := segment + 1 == n, seg := segment,
            value := (t.data.drop (segmentBytes * segment)).take segmentBytes })

/-- SEG_WRITE_INIT: orders 1 to 7 of R348, with LENGTH for the value's length. -/
def Device.segWriteInit (d : Device) (rq : Req) (index sub type length : Nat) : Device :=
  let key := index * 256 + sub
  d.segRequest rq Op.segWriteInit key type (fun d =>
    match d.checkWrite rq index sub type length 0 with
    | .error st => (d.refuse rq key st).respond rq Op.segWriteInit key type { status := st }
    | .ok _ =>
      (d.setTransfer rq.path { key := key, len := length, write := true, data := [], next := 0 }).respond rq
        Op.segWriteInit key type { status := St.ok })

/-- The last segment has come: the value takes effect whole. A run armed meanwhile freezes an ARMED object (R345). -/
def Device.segWriteLast (d : Device) (rq : Req) (key type : Nat) (b : Bytes) : Device :=
  match rowOfKey key with
  | none => d
  | some row =>
    if row.cls = .armed ∧ d.armed then (d.refuse rq key St.frozen).respond rq Op.segWriteNext key type (writeAnswer Op.segWriteNext key St.frozen)
    else (d.writeValue rq Op.segWriteNext key type (leNat b) row (effectOf key)).writeFollows d rq key (leNat b)

/-- SEG_WRITE_NEXT: orders 2 to 6 of R348; then a segment out of order ends the transfer with RANGE, a total that is not LENGTH with
TYPE. The response repeats SEGMENT and LAST (R349). -/
def Device.segWriteNext (d : Device) (rq : Req) (index sub type segment : Nat) (last : Bool) (value : Bytes) : Device :=
  let key := index * 256 + sub
  let say : Device → Nat → Device := fun d st => d.respond rq Op.segWriteNext key type { status := st, last := last, seg := segment }
  d.segRequest rq Op.segWriteNext key type (fun d =>
    if d.checkSegment rq index sub type ≠ St.ok then say d (d.checkSegment rq index sub type)
    else match d.transferOf rq.path with
    | none => say d St.range
    | some t =>
      if !t.write ∨ t.key ≠ key then say d St.range
      else if segment ≠ t.next then say (d.endTransfer rq.path) St.range
      else
        let b := t.data ++ value
        if last then
          (if b.length ≠ t.len ∨ segmentBytes < value.length then say (d.endTransfer rq.path) St.type
           else (d.endTransfer rq.path).segWriteLast rq key type b)
        else if value.length ≠ segmentBytes ∨ t.len ≤ b.length then say (d.endTransfer rq.path) St.type
        else say (d.setTransfer rq.path { t with data := b, next := t.next + 1 }) St.ok)

/-- SEG_ABORT: orders 2 to 6 of R348; then the transfer named ends with no effect. -/
def Device.segAbort (d : Device) (rq : Req) (index sub type : Nat) : Device :=
  let key := index * 256 + sub
  d.segRequest rq Op.segAbort key type (fun d =>
    if d.checkAbort rq index sub type ≠ St.ok then d.respond rq Op.segAbort key type { status := d.checkAbort rq index sub type }
    else match d.transferOf rq.path with
    | some t =>
      if t.key = key then (d.endTransfer rq.path).respond rq Op.segAbort key type { status := St.ok }
      else d.respond rq Op.segAbort key type { status := St.range }
    | none => d.respond rq Op.segAbort key type { status := St.range })

/-- SEG_READ_INIT (R352). -/
def execSegReadInit (rq : Req) (index sub type : Nat) (s : State) := onReq s rq (fun d => d.segReadInit rq index sub type)

/-- SEG_READ_NEXT (R352). -/
def execSegReadNext (rq : Req) (index sub type segment : Nat) (s : State) :=
  onReq s rq (fun d => d.segReadNext rq index sub type segment)

/-- SEG_WRITE_INIT (R352). -/
def execSegWriteInit (rq : Req) (index sub type length : Nat) (s : State) :=
  onReq s rq (fun d => d.segWriteInit rq index sub type length)

/-- SEG_WRITE_NEXT (R352). -/
def execSegWriteNext (rq : Req) (index sub type segment : Nat) (last : Bool) (value : Bytes) (s : State) :=
  onReq s rq (fun d => d.segWriteNext rq index sub type segment last value)

/-- SEG_ABORT (R352) with the type of the object it names; where there is no such object, the type code of the request is open. -/
def execSegAbort (rq : Req) (index sub : Nat) (s : State) :=
  onReq s rq (fun d => d.segAbort rq index sub (match rowOf index sub with
    | some row => row.ty
    | none => 1 + Config.unstated d.free % 14))

/-- SEG_TRANSFER_TIMEOUT (R352): 1 s has passed without a segment request. -/
def execSegTransferTimeout (path : Path) (s : State) := onDev s (fun d => d.endTransfer path)

/-! ### Requests as PDUs -/

/-! The fields of a request's header (R349). -/
namespace Pdu
def op (h : Nat) : Nat := bits h 0 7
def trans (h : Nat) : Nat := bits h 16 16
def index (h : Nat) : Nat := bits h 32 16
def sub (h : Nat) : Nat := bits h 48 8
def type (h : Nat) : Nat := bits h 56 8
def len (h : Nat) : Nat := bits h 80 32
def seg (h : Nat) : Nat := bits h 112 16
def key (h : Nat) : Nat := index h * 256 + sub h
end Pdu

/-- The operations that authenticate, and those a segmented transfer is made of. -/
def isAuth (op : Nat) : Bool := op == Op.authChallenge || op == Op.authResponse || op == Op.authEnd

/-- Order 2 of R348: a defined operation, a request, the response's fields 0, reserved bits 0, LENGTH 0 where the
operation carries no value, a type code that is not reserved, and for an AUTH operation INDEX, SUB and TYPE 0. -/
def headerOk (h : Nat) : Bool :=
  let op := Pdu.op h
  ((1 ≤ op && op ≤ 8) || isAuth op) && !bit h 7 && !bit h 9 &&
    (!bit h 10 || op == Op.segWriteNext || op == Op.segReadNext) && bits h 11 5 == 0 && bits h 64 16 == 0 &&
    (Pdu.seg h == 0 || op == Op.segWriteNext || op == Op.segReadNext) &&
    (Pdu.len h == 0 || op == Op.write || op == Op.segReadInit || op == Op.segWriteInit || op == Op.segWriteNext ||
      op == Op.authResponse) &&
    (if isAuth op then bits h 32 32 == 0 else 1 ≤ Pdu.type h && Pdu.type h ≤ 0x0E)

/-- A PDU served (R348 to R352): its header and its value bytes. -/
def Device.servePdu (d : Device) (rq : Req) (h : Nat) (value : Bytes) : Device :=
  let i := Pdu.index h
  let s := Pdu.sub h
  let t := Pdu.type h
  let op := Pdu.op h
  if !d.ctl.serving then d.notServing rq op (Pdu.key h) t
  else if !headerOk h then (d.served rq).respond rq op (Pdu.key h) t { status := St.range }
  else if op = Op.read ∨ op = Op.readStaged then d.readRequest rq op i s t
  else if op = Op.write then d.writeRequest rq i s t value
  else if op = Op.segReadInit then d.segReadInit rq i s t
  else if op = Op.segReadNext then d.segReadNext rq i s t (Pdu.seg h)
  else if op = Op.segWriteInit then d.segWriteInit rq i s t (Pdu.len h)
  else if op = Op.segWriteNext then d.segWriteNext rq i s t (Pdu.seg h) (bit h 10) value
  else if op = Op.segAbort then d.segAbort rq i s t
  else if op = Op.authChallenge then d.authChallenge rq
  else if op = Op.authResponse then d.authResponse rq value
  else d.authEnd rq

/-- The bytes of a slot's request and of its value area (R354). -/
def requestArea : Nat := 69632

/-- The header a slot's request bytes hold. -/
def MailSlot.header (m : MailSlot) : Nat := leNat (slice m.request 0 16)

/-- The requester of a slot's request. -/
def slotReq (p s : Nat) (m : MailSlot) : Req := ⟨.mailbox p s, bit m.header 8, Pdu.trans m.header⟩

/-- The slot at the head of the doorbells' order, where the management pair serves (R351). -/
def Device.nextPosted (d : Device) : Option Nat := if d.ctl.serving then d.ctl.posted.head? else none

/-- The request of a slot is taken and served (R355 steps 2 and 3). A LENGTH beyond the slot's request area is longer than any value,
and fails at order 6 of R348. -/
def Device.serveSlot (d : Device) (k : Nat) : Device :=
  let p := k / 8
  let s := k % 8
  let m := d.slot p s
  let h := m.header
  let rq := slotReq p s m
  let d := (d.onCtl (fun c => { c with posted := c.posted.drop 1 })).setSlot p s { m with state := .inService }
  d.servePdu rq h (slice m.request 16 (min (Pdu.len h) (requestArea - 15)))

/-- MAILBOX_REQUEST_SERVICE (R351, R355): with no request posted, or no pair to serve it, nothing happens. -/
def execMailboxRequestService (s : State) : Host.Outcome State Fault Refusal :=
  match s.dev.nextPosted with
  | none => onDev s (fun d => d)
  | some k => onReq s (slotReq (k / 8) (k % 8) (s.dev.slot (k / 8) (k % 8))) (fun d => d.serveSlot k)

/-- What hub hardware answers after a boot failure (R451): READs of 0x1000.00 to 0x1000.04 and of BOOT_STATUS. -/
def hubServes (h : Nat) : Bool :=
  headerOk h && Pdu.op h == Op.read && ((Obj.vendorName ≤ Pdu.key h && Pdu.key h ≤ Obj.dictVersion) || Pdu.key h == Obj.bootStatus)

/-- The answer of hub hardware, the management pair not running (R41, R451). -/
def Device.hubAnswer (d : Device) (p s : Nat) : Device :=
  let m := d.slot p s
  let h := m.header
  let rq := slotReq p s m
  let say := fun (a : Answer) => d.respond rq (Pdu.op h) (Pdu.key h) (Pdu.type h) a
  if d.sec.bootFailed && hubServes h then
    match d.checkRead rq false (Pdu.index h) (Pdu.sub h) (Pdu.type h) with
    | .error st => say { status := st }
    | .ok row => say { status := St.ok, value := d.readObject row (Pdu.key h) false }
  else say { status := St.notReady }

/-- A write of a slot's DOORBELL (R354, R355): it posts the request of a FREE slot; on another slot it is ignored and
counted; while the management pair does not serve, hub hardware answers it. -/
def Device.doorbell (d : Device) (p s v : Nat) : Device :=
  if v ≠ 1 ∨ 1 < p ∨ 7 < s then d
  else
    let m := d.slot p s
    if m.state ≠ .free then d.bump Obj.doorbellsIgnored
    else if d.ctl.serving then
      (d.setSlot p s { m with state := .posted }).onCtl (fun c => { c with posted := c.posted ++ [slotKey p s] })
    else d.hubAnswer p s

/-- DOORBELL (R355). -/
def execDoorbell (port slot value : Nat) (s : State) := onDev s (fun d => d.doorbell port slot value)

/-! ### PDU frames of the field network (R363, R364) -/

/-- A kept response answers a request again within 2 s (R364). -/
def Device.keptFor (d : Device) (src h : Nat) : Option Kept :=
  d.ctl.kept.find? (fun k => k.src == src && k.trans == Pdu.trans h && k.key == Pdu.key h && k.op == Pdu.op h &&
    d.micros - k.at_ < 2000000)

/-- A request that arrived by broadcast is carried out and not answered (R363): no frame goes to its source, no response
is kept, and no final response follows. -/
def Device.unanswered (d before : Device) (src : Nat) : Device :=
  let new := d.out.take (d.out.length - before.out.length)
  let other : Out → Bool := fun o => match o with
    | .frame dst _ => dst != src
    | _ => true
  let d : Device := { d with out := new.filter other ++ before.out }
  d.onCtl (fun c => { c with kept := before.ctl.kept, waiting := before.ctl.waiting })

/-- What a Linveile frame is: dropped and counted, a heartbeat, a notice, or a PDU whose bytes follow. -/
inductive FrameIs where
  | bad
  | heartbeat (node : Nat)
  | notice
  | pdu (h : Nat) (value : Bytes)
deriving DecidableEq, Repr

/-- A frame's bytes after its EtherType (R363). -/
def frameIs (frame : Bytes) : FrameIs :=
  if leAt frame 0 1 ≠ 1 then .bad
  else match leAt frame 1 1 with
    | 0 =>
      let h := leNat (slice frame 4 16)
      .pdu h (slice frame 20 (min (Pdu.len h) 1025))
    | 1 => .heartbeat (leAt frame 4 1 % 64)
    | 2 => .notice
    | _ => .bad

/-- The requester of a PDU frame. -/
def frameReq (src h : Nat) : Req := ⟨.field src, bit h 8, Pdu.trans h⟩

/-- The requests posted in mailbox slots are served, in the order of their doorbells: they arrived at the pair first (R351). One that
breaks R353 stays at the head, for its own command to meet. -/
def Device.servePosted : Nat → Device → Device
  | 0, d => d
  | n + 1, d =>
    match d.nextPosted with
    | none => d
    | some k => if d.reused (slotReq (k / 8) (k % 8) (d.slot (k / 8) (k % 8))) then d else (d.serveSlot k).servePosted n

/-- FIELD_PDU_FRAME (R363, R364): `frame` holds the bytes after the EtherType. A repeat of a kept request is answered
again; a request that comes while the management pair does not serve is not answered (R41). Requests in posted slots are served first
(R351). -/
def execFieldPduFrame (src : Nat) (broadcast : Bool) (frame : Bytes) (s : State) : Host.Outcome State Fault Refusal :=
  match frameIs frame with
  | .bad => onDev s (fun d => (d.bump Obj.fieldFramesRx).bump Obj.fieldFramesBad)
  | .heartbeat node => onDev s (fun d => d.heartbeatRx src node)
  | .notice => onDev s (fun d => d.bump Obj.fieldFramesRx)
  | .pdu h value =>
    match s.dev.keptFor src h with
    | some k => onDev s (fun d =>
        let d := (d.bump Obj.fieldFramesRx).bump Obj.fieldDuplicates
        if d.ctl.serving ∧ !broadcast then d.sendFrame src 0 k.pdu else d)
    | none => onReq s (frameReq src h) (fun d =>
        let d := (d.servePosted d.ctl.posted.length).bump Obj.fieldFramesRx
        let e := d.servePdu (frameReq src h) h value
        if broadcast then e.unanswered d src else e)

/-! ### BAR0 (R374, R375) -/

/-- Bytes laid over others. -/
def overlay (b : Bytes) (off : Nat) (x : Bytes) : Bytes := slice b 0 off ++ x ++ b.drop (off + x.length)

/-- The value a write gives a register of `n` bytes that it covers whole. -/
def covered (off : Nat) (bs : Bytes) (reg n : Nat) : Option Nat :=
  if off ≤ reg ∧ reg + n ≤ off + bs.length then some (leAt bs (reg - off) n) else none

/-- A register that a write covers takes its value. -/
def Device.onReg (d : Device) (off : Nat) (bs : Bytes) (reg n : Nat) (f : Device → Nat → Device) : Device :=
  match covered off bs reg n with
  | some v => f d v
  | none => d

/-- A base register with bytes laid over it; a base that is not 4 KiB aligned is ignored. -/
def baseWrite (old off : Nat) (bs : Bytes) (reg : Nat) : Nat :=
  let b := (List.range 8).map (fun i => if off ≤ reg + i ∧ reg + i < off + bs.length then bs.getD (reg + i - off) 0
    else BitVec.ofNat 8 (old / 256 ^ i))
  if leNat b % 4096 = 0 then leNat b else old

/-- A write to mailbox slot `s` (R354): the request area holds what is written; the two registers act. -/
def Device.slotWrite (d : Device) (p s off : Nat) (bs : Bytes) : Device :=
  if off < requestArea then
    let m := d.slot p s
    d.setSlot p s { m with request := overlay m.request off (bs.take (requestArea - off)) }
  else (d.onReg off bs 0x22000 4 (fun d v => d.doorbell p s v)).onReg off bs 0x22004 4 (fun d v => d.slotStateWrite p s v)

/-- A write of SQ_TAIL through BAR0: the descriptors are what host memory holds, so that they are free. -/
def Device.sqTailOpen (d : Device) (p n tail : Nat) : Device :=
  let size := 2 ^ (d.dmaq p n).sizeLog2
  let k := if tail < size then (tail + size - (d.dmaq p n).sqTail) % size else 0
  let ds := (List.range k).map (fun i => Config.unstated (d.free + i) % 2 ^ 256)
  { d with free := d.free + k }.sqTailWrite p n tail ds

/-- A write to the registers of DMA queue `n` (R379). -/
def Device.dmaRegWrite (d : Device) (p n off : Nat) (bs : Bytes) : Device :=
  let d := d.onDmaq p n (fun q => { q with sqBase := baseWrite q.sqBase off bs 0, cqBase := baseWrite q.cqBase off bs 8 })
  let d := d.onReg off bs 0x10 4 (fun d v => d.dmaControlWrite p n v)
  let d := d.onReg off bs 0x14 4 (fun d v => d.sqTailOpen p n v)
  d.onReg off bs 0x1C 4 (fun d v => d.cqHeadWrite p n v)

/-- A write to the window of local event queue `j` (R394). -/
def Device.evqRegWrite (d : Device) (p j off : Nat) (bs : Bytes) : Device :=
  d.onReg off bs 0x24 4 (fun d v =>
    let d := if bit v 0 then d.evqArm p j else d
    if bit v 1 then d.evqClearUnderrun p j else d)

/-- A write to the aperture table (R377). -/
def Device.apertureWrite (d : Device) (p off : Nat) (bs : Bytes) : Device :=
  d.each (List.range 64) (fun d a =>
    let lo := 16 * a
    if off < lo + 16 ∧ lo < off + bs.length then
      let old := leBytes 16 (d.aperture p a)
      let new := (List.range 16).map (fun i => if off ≤ lo + i ∧ lo + i < off + bs.length then bs.getD (lo + i - off) 0
        else old.getD i 0)
      d.onPort p (fun x => { x with apertures := tset x.apertures a (leNat new) })
    else d)

/-- A write to BAR0 of a port (R374): the region of its first byte takes it; reserved ranges and registers it covers in
part ignore it. -/
def Device.bar0Write (d : Device) (p off : Nat) (bs : Bytes) : Device :=
  if 1 < p then d
  else if off < 0x118000 then d.slotWrite p (off / 0x23000) (off % 0x23000) bs
  else if 0x120000 ≤ off ∧ off < 0x121000 then
    d.onReg off bs 0x120004 4 (fun d v => if 100 ≤ v ∧ v ≤ 1000000 then d.onPort p (fun x => { x with waitLimit := v }) else d)
  else if 0x130000 ≤ off ∧ off < 0x131000 then
    d.dmaRegWrite p ((off - 0x130000) / 0x40) ((off - 0x130000) % 0x40) (bs.take (0x40 - (off - 0x130000) % 0x40))
  else if 0x140000 ≤ off ∧ off < 0x148000 then d.evqRegWrite p ((off - 0x140000) / 0x100) ((off - 0x140000) % 0x100) bs
  else if 0x150000 ≤ off ∧ off < 0x150400 then d.apertureWrite p (off - 0x150000) bs
  else d

/-! A read of BAR0 changes nothing, the pop of EVQ_POP aside; no row of the table stands for it, and what it returns is said here. -/

/-- SLOT_STATE (R354). -/
def SlotState.code : SlotState → Nat
  | .free => 0
  | .posted => 1
  | .inService => 2
  | .pending => 3
  | .done => 4

/-- A byte the host may only write: what a read of it returns is open. -/
def Device.openByte (d : Device) (off : Nat) : Byte := BitVec.ofNat 8 (Config.unstated (d.free + off))

/-- A byte of mailbox slot `s` (R354). -/
def Device.slotByte (d : Device) (p s off : Nat) : Byte :=
  if off < requestArea then d.openByte off
  else if off < 2 * requestArea then (d.slot p s).response.getD (off - requestArea) 0
  else if off < 0x22004 then d.openByte off
  else if off < 0x22008 then (leBytes 4 (d.slot p s).state.code).getD (off - 0x22004) 0
  else 0

/-- PORT_INFO (R375). -/
def portInfo (p : Nat) (x : Port) : Nat := fld (p % 2) 0 + fld (x.rate % 4) 1 + fld (x.width % 32) 3 + fld x.flit.toNat 8

/-- The port registers (R375). -/
def Device.portBytes (d : Device) (p : Nat) : Bytes :=
  let x := d.port p
  leBytes 4 (portInfo p x) ++ leBytes 4 x.waitLimit ++ leBytes 8 x.bar2Failed ++ leBytes 8 x.bytesIn ++ leBytes 8 x.bytesOut ++
    leBytes 8 ((List.range 64).foldl (fun m n => if (d.dmaq p n).state = .stopped then setBit m n else m) 0)

/-- STATE of a DMA queue (R379). -/
def QState.code : QState → Nat
  | .disabled => 0
  | .running => 1
  | .stopped => 2

/-- The registers of DMA queue `n` (R379). -/
def Device.dmaBytes (d : Device) (p n : Nat) : Bytes :=
  let q := d.dmaq p n
  leBytes 8 q.sqBase ++ leBytes 8 q.cqBase ++
    leBytes 4 (fld (q.state == .running && !q.draining).toNat 0 + fld q.sizeLog2 1 + fld q.vector 16) ++
    leBytes 4 q.sqTail ++ leBytes 4 q.sqHead ++ leBytes 4 q.cqHead ++ leBytes 4 q.state.code ++ leBytes 4 q.stopCause

/-- STATUS of an event queue's window (R394). -/
def evqStatus (e : Evq) : Nat :=
  fld ((e.wLate - e.h) % 2 ^ 16) 0 + fld (decide (e.wLate ≤ e.h)).toNat 16 + fld e.underrun.toNat 17 + fld e.armed.toNat 18 +
    fld e.enable.toNat 19

/-- The window of local event queue `j` (R394), its ITEM the latch; a disabled queue reads as all 0. -/
def Device.evqBytes (d : Device) (p j : Nat) : Bytes :=
  let e := d.evq (128 * p + j)
  if e.enable then
    leBytes 32 e.latch ++ leBytes 4 (evqStatus e) ++ (List.range 4).map d.openByte ++ leBytes 8 e.lost ++ leBytes 8 e.overwritesLate
  else []

/-- A byte of BAR0 of a port (R374): reserved ranges read 0. -/
def Device.bar0Byte (d : Device) (p off : Nat) : Byte :=
  if off < 0x118000 then d.slotByte p (off / 0x23000) (off % 0x23000)
  else if 0x120000 ≤ off ∧ off < 0x121000 then (d.portBytes p).getD (off - 0x120000) 0
  else if 0x130000 ≤ off ∧ off < 0x131000 then (d.dmaBytes p ((off - 0x130000) / 0x40)).getD ((off - 0x130000) % 0x40) 0
  else if 0x140000 ≤ off ∧ off < 0x148000 then (d.evqBytes p ((off - 0x140000) / 0x100)).getD ((off - 0x140000) % 0x100) 0
  else if 0x150000 ≤ off ∧ off < 0x150400 then (leBytes 16 (d.aperture p ((off - 0x150000) / 16))).getD ((off - 0x150000) % 16) 0
  else 0

/-- What a read of BAR0 of a port returns, while its link is up (R373, R374). -/
def Device.bar0Read (d : Device) (p off n : Nat) : Option Bytes :=
  if p ≤ 1 ∧ (d.port p).linkUp then some ((List.range n).map (fun i => d.bar0Byte p (off + i))) else none

/-- WRITE (R344, R374): of an object of the dictionary, or of a register of a port's BAR0. -/
def execWrite (target : WriteTarget) (value : Bytes) (s : State) : Host.Outcome State Fault Refusal :=
  match target with
  | .dict rq index sub type => onReq s rq (fun d => d.writeRequest rq index sub type value)
  | .bar0 port offset => onDev s (fun d => d.bar0Write port offset value)

end Sys2Proof.Machine
end

