-- ==== Sys2Proof/Machine/Dispatch.lean ====
section
/-! DEFINITION. One arm per command: a direct call of its meaning. -/
namespace Sys2Proof.Machine

def exec (i : Instr) (s : State) : Host.Outcome State Fault Refusal :=
  match i with
  | .write target value => Sys2Proof.Machine.execWrite target value s
  | .readStaged rq index sub type => Sys2Proof.Machine.execReadStaged rq index sub type s
  | .segReadInit rq index sub type => Sys2Proof.Machine.execSegReadInit rq index sub type s
  | .segReadNext rq index sub type segment => Sys2Proof.Machine.execSegReadNext rq index sub type segment s
  | .segWriteInit rq index sub type length => Sys2Proof.Machine.execSegWriteInit rq index sub type length s
  | .segWriteNext rq index sub type segment last value => Sys2Proof.Machine.execSegWriteNext rq index sub type segment last value s
  | .segAbort rq index sub => Sys2Proof.Machine.execSegAbort rq index sub s
  | .segTransferTimeout path => Sys2Proof.Machine.execSegTransferTimeout path s
  | .authChallenge rq => Sys2Proof.Machine.execAuthChallenge rq s
  | .authResponse rq value => Sys2Proof.Machine.execAuthResponse rq value s
  | .authEnd rq => Sys2Proof.Machine.execAuthEnd rq s
  | .serviceIdleExpiry path => Sys2Proof.Machine.execServiceIdleExpiry path s
  | .doorbell port slot value => Sys2Proof.Machine.execDoorbell port slot value s
  | .mailboxRequestService => Sys2Proof.Machine.execMailboxRequestService s
  | .slotStateFree port slot value => Sys2Proof.Machine.execSlotStateFree port slot value s
  | .fieldPduFrame src broadcast frame => Sys2Proof.Machine.execFieldPduFrame src broadcast frame s
  | .heartbeat => Sys2Proof.Machine.execHeartbeat s
  | .fieldHeartbeatRx src nodeId => Sys2Proof.Machine.execFieldHeartbeatRx src nodeId s
  | .conductorToken rq value => Sys2Proof.Machine.execConductorToken rq value s
  | .conductorLapse => Sys2Proof.Machine.execConductorLapse s
  | .stageHold rq value => Sys2Proof.Machine.execStageHold rq value s
  | .runControlArm rq => Sys2Proof.Machine.execRunControlArm rq s
  | .armPromotionsSettled => Sys2Proof.Machine.execArmPromotionsSettled s
  | .armPeerWaitExpiry => Sys2Proof.Machine.execArmPeerWaitExpiry s
  | .runControlStart rq => Sys2Proof.Machine.execRunControlStart rq s
  | .runControlStop rq => Sys2Proof.Machine.execRunControlStop rq s
  | .stopComplete => Sys2Proof.Machine.execStopComplete s
  | .stageBind rq handle => Sys2Proof.Machine.execStageBind rq handle s
  | .stageUnbind rq handle => Sys2Proof.Machine.execStageUnbind rq handle s
  | .streamOpen rq handle => Sys2Proof.Machine.execStreamOpen rq handle s
  | .streamClose rq stream => Sys2Proof.Machine.execStreamClose rq stream s
  | .streamCloseComplete stream => Sys2Proof.Machine.execStreamCloseComplete stream s
  | .streamClear rq stream => Sys2Proof.Machine.execStreamClear rq stream s
  | .streamGrant rq port value => Sys2Proof.Machine.execStreamGrant rq port value s
  | .versionPublish rq value => Sys2Proof.Machine.execVersionPublish rq value s
  | .versionDigestFormed layer => Sys2Proof.Machine.execVersionDigestFormed layer s
  | .objectCreate rq value => Sys2Proof.Machine.execObjectCreate rq value s
  | .objectCreatePlaced index => Sys2Proof.Machine.execObjectCreatePlaced index s
  | .objectDelete rq handle => Sys2Proof.Machine.execObjectDelete rq handle s
  | .objectPin rq handle => Sys2Proof.Machine.execObjectPin rq handle s
  | .objectUnpin rq handle => Sys2Proof.Machine.execObjectUnpin rq handle s
  | .objectMove rq value => Sys2Proof.Machine.execObjectMove rq value s
  | .linkRetrain rq link => Sys2Proof.Machine.execLinkRetrain rq link s
  | .collectiveStart rq entry => Sys2Proof.Machine.execCollectiveStart rq entry s
  | .logConsumed rq offset => Sys2Proof.Machine.execLogConsumed rq offset s
  | .clockResume rq value => Sys2Proof.Machine.execClockResume rq value s
  | .clockResumeDone => Sys2Proof.Machine.execClockResumeDone s
  | .refSelect rq domain value => Sys2Proof.Machine.execRefSelect rq domain value s
  | .gateOpen rq => Sys2Proof.Machine.execGateOpen rq s
  | .gateHold rq => Sys2Proof.Machine.execGateHold rq s
  | .gateHeld node => Sys2Proof.Machine.execGateHeld node s
  | .powerRequestP1 rq => Sys2Proof.Machine.execPowerRequestP1 rq s
  | .powerRequestP2 rq => Sys2Proof.Machine.execPowerRequestP2 rq s
  | .powerRequestP3 rq => Sys2Proof.Machine.execPowerRequestP3 rq s
  | .dvfsRequest rq die level => Sys2Proof.Machine.execDvfsRequest rq die level s
  | .dvfsLevelChange die => Sys2Proof.Machine.execDvfsLevelChange die s
  | .avsbusVoltageReached die => Sys2Proof.Machine.execAvsbusVoltageReached die s
  | .arithPllSlewDone die => Sys2Proof.Machine.execArithPllSlewDone die s
  | .avsbusConfirmTimeout die => Sys2Proof.Machine.execAvsbusConfirmTimeout die s
  | .fwUpdate rq value => Sys2Proof.Machine.execFwUpdate rq value s
  | .fwUpdateDone readBackSame => Sys2Proof.Machine.execFwUpdateDone readBackSame s
  | .preferredSlot rq value => Sys2Proof.Machine.execPreferredSlot rq value s
  | .rollbackCommit rq value blownA blownB => Sys2Proof.Machine.execRollbackCommit rq value blownA blownB s
  | .debugUnlock rq value => Sys2Proof.Machine.execDebugUnlock rq value s
  | .deviceReset rq value => Sys2Proof.Machine.execDeviceReset rq value s
  | .warmReset nodeId feedId => Sys2Proof.Machine.execWarmReset nodeId feedId s
  | .clusterDrain rq => Sys2Proof.Machine.execClusterDrain rq s
  | .drainComplete => Sys2Proof.Machine.execDrainComplete s
  | .clusterTest rq => Sys2Proof.Machine.execClusterTest rq s
  | .clusterTestDone pass => Sys2Proof.Machine.execClusterTestDone pass s
  | .clusterReturn rq => Sys2Proof.Machine.execClusterReturn rq s
  | .tvRun rq value => Sys2Proof.Machine.execTvRun rq value s
  | .tvRunDone => Sys2Proof.Machine.execTvRunDone s
  | .liveUpdate rq value => Sys2Proof.Machine.execLiveUpdate rq value s
  | .liveUpdateDone => Sys2Proof.Machine.execLiveUpdateDone s
  | .batchRing rq port handle => Sys2Proof.Machine.execBatchRing rq port handle s
  | .evqConfig rq queue value => Sys2Proof.Machine.execEvqConfig rq queue value s
  | .dmaQueueEnable port queue control => Sys2Proof.Machine.execDmaQueueEnable port queue control s
  | .dmaQueueDisable port queue control => Sys2Proof.Machine.execDmaQueueDisable port queue control s
  | .sqTail port queue tail descriptors => Sys2Proof.Machine.execSqTail port queue tail descriptors s
  | .cqHead port queue head => Sys2Proof.Machine.execCqHead port queue head s
  | .nop port queue => Sys2Proof.Machine.execNop port queue s
  | .toObject port queue hostBytes => Sys2Proof.Machine.execToObject port queue hostBytes s
  | .toHost port queue => Sys2Proof.Machine.execToHost port queue s
  | .zero port queue => Sys2Proof.Machine.execZero port queue s
  | .descriptorComplete port queue => Sys2Proof.Machine.execDescriptorComplete port queue s
  | .bar2Read port aperture offset length => Sys2Proof.Machine.execBar2Read port aperture offset length s
  | .bar2Write port aperture offset value => Sys2Proof.Machine.execBar2Write port aperture offset value s
  | .bar2WaitExpiry port => Sys2Proof.Machine.execBar2WaitExpiry port s
  | .evqPop port queue => Sys2Proof.Machine.execEvqPop port queue s
  | .evqArm port queue => Sys2Proof.Machine.execEvqArm port queue s
  | .evqClearUnderrun port queue => Sys2Proof.Machine.execEvqClearUnderrun port queue s
  | .pcieLinkDown port => Sys2Proof.Machine.execPcieLinkDown port s
  | .pcieLinkUp port rate width flit => Sys2Proof.Machine.execPcieLinkUp port rate width flit s
  | .pcieHotReset port => Sys2Proof.Machine.execPcieHotReset port s
  | .pcieFlr port => Sys2Proof.Machine.execPcieFlr port s
  | .perstNDeassert port => Sys2Proof.Machine.execPerstNDeassert port s
  | .ringProducer port handle count => Sys2Proof.Machine.execRingProducer port handle count s
  | .ringConsumer port handle count => Sys2Proof.Machine.execRingConsumer port handle count s
  | .getVersion port => Sys2Proof.Machine.execGetVersion port s
  | .getCapabilities port => Sys2Proof.Machine.execGetCapabilities port s
  | .negotiateAlgorithms port asymAlgos hashAlgos => Sys2Proof.Machine.execNegotiateAlgorithms port asymAlgos hashAlgos s
  | .getDigests port => Sys2Proof.Machine.execGetDigests port s
  | .getCertificate port slot offset length => Sys2Proof.Machine.execGetCertificate port slot offset length s
  | .challenge port slot signingInput => Sys2Proof.Machine.execChallenge port slot signingInput s
  | .getMeasurements port index signed signingInput => Sys2Proof.Machine.execGetMeasurements port index signed signingInput s
  | .spdmUnsupportedRequest port code => Sys2Proof.Machine.execSpdmUnsupportedRequest port code s
  | .takeAdmission => Sys2Proof.Machine.execTakeAdmission s
  | .inputSampleTake stage => Sys2Proof.Machine.execInputSampleTake stage s
  | .vectorProgramRow stage token => Sys2Proof.Machine.execVectorProgramRow stage token s
  | .quantiseRow stage token => Sys2Proof.Machine.execQuantiseRow stage token s
  | .clipBlockQuantise stage block => Sys2Proof.Machine.execClipBlockQuantise stage block s
  | .fwdTileOpIssue stage outTile tokenBlock => Sys2Proof.Machine.execFwdTileOpIssue stage outTile tokenBlock s
  | .fwdTileOpComplete stage => Sys2Proof.Machine.execFwdTileOpComplete stage s
  | .sideTileOpComplete stage outTile tokenBlock => Sys2Proof.Machine.execSideTileOpComplete stage outTile tokenBlock s
  | .dailiesReferenceComplete stage => Sys2Proof.Machine.execDailiesReferenceComplete stage s
  | .gradientLineReceive stage => Sys2Proof.Machine.execGradientLineReceive stage s
  | .igradTileOpComplete stage inTile tokenBlock => Sys2Proof.Machine.execIgradTileOpComplete stage inTile tokenBlock s
  | .wgradItemComplete core => Sys2Proof.Machine.execWgradItemComplete core s
  | .recomputePass stage => Sys2Proof.Machine.execRecomputePass stage s
  | .stashDeadlineMiss stage => Sys2Proof.Machine.execStashDeadlineMiss stage s
  | .localHealthLatch => Sys2Proof.Machine.execLocalHealthLatch s
  | .verdictUp m early => Sys2Proof.Machine.execVerdictUp m early s
  | .verdictDown m => Sys2Proof.Machine.execVerdictDown m s
  | .logRecordWrite => Sys2Proof.Machine.execLogRecordWrite s
  | .layerUpdate lapidary => Sys2Proof.Machine.execLayerUpdate lapidary s
  | .workingCopyPublish lapidary => Sys2Proof.Machine.execWorkingCopyPublish lapidary s
  | .flitReceive link flit => Sys2Proof.Machine.execFlitReceive link flit s
  | .retryLimitReached link => Sys2Proof.Machine.execRetryLimitReached link s
  | .linkUcwLimit link => Sys2Proof.Machine.execLinkUcwLimit link s
  | .linkTrained link => Sys2Proof.Machine.execLinkTrained link s
  | .linkTrainTimeout link => Sys2Proof.Machine.execLinkTrainTimeout link s
  | .identity link rank port seed => Sys2Proof.Machine.execIdentity link rank port seed s
  | .contribution m => Sys2Proof.Machine.execContribution m s
  | .result m => Sys2Proof.Machine.execResult m s
  | .msgAck src msgId => Sys2Proof.Machine.execMsgAck src msgId s
  | .msgResendTimeout dest msgId => Sys2Proof.Machine.execMsgResendTimeout dest msgId s
  | .live src => Sys2Proof.Machine.execLive src s
  | .liveSend => Sys2Proof.Machine.execLiveSend s
  | .peerTimeout rank => Sys2Proof.Machine.execPeerTimeout rank s
  | .stillHello m => Sys2Proof.Machine.execStillHello m s
  | .stillBlock m => Sys2Proof.Machine.execStillBlock m s
  | .stillTraceBlock m => Sys2Proof.Machine.execStillTraceBlock m s
  | .stillManifest m => Sys2Proof.Machine.execStillManifest m s
  | .stillEnd m => Sys2Proof.Machine.execStillEnd m s
  | .stillAbort m => Sys2Proof.Machine.execStillAbort m s
  | .restoreRequest m => Sys2Proof.Machine.execRestoreRequest m s
  | .stillAck m => Sys2Proof.Machine.execStillAck m s
  | .translationMiss stage handle offset isWrite => Sys2Proof.Machine.execTranslationMiss stage handle offset isWrite s
  | .moveSettle handle => Sys2Proof.Machine.execMoveSettle handle s
  | .holdLimitExpiry handle waiter => Sys2Proof.Machine.execHoldLimitExpiry handle waiter s
  | .weightDeadlineMiss stage stallUs => Sys2Proof.Machine.execWeightDeadlineMiss stage stallUs s
  | .workingCopyRebuild handle => Sys2Proof.Machine.execWorkingCopyRebuild handle s
  | .channelLivenessRead channel answered => Sys2Proof.Machine.execChannelLivenessRead channel answered s
  | .channelUeLimit channel => Sys2Proof.Machine.execChannelUeLimit channel s
  | .scrubPass seconds found => Sys2Proof.Machine.execScrubPass seconds found s
  | .scrubOverdue seconds => Sys2Proof.Machine.execScrubOverdue seconds s
  | .residencyEpochTick => Sys2Proof.Machine.execResidencyEpochTick s
  | .clusterFault die cluster cause => Sys2Proof.Machine.execClusterFault die cluster cause s
  | .substitutionComplete => Sys2Proof.Machine.execSubstitutionComplete s
  | .partHeartbeatMiss part => Sys2Proof.Machine.execPartHeartbeatMiss part s
  | .hbmPatternCheck stack answered => Sys2Proof.Machine.execHbmPatternCheck stack answered s
  | .d2dModuleRetire moduleIx => Sys2Proof.Machine.execD2dModuleRetire moduleIx s
  | .alertPulseEnd => Sys2Proof.Machine.execAlertPulseEnd s
  | .riskHoldExpiry source => Sys2Proof.Machine.execRiskHoldExpiry source s
  | .generatorProbe probes => Sys2Proof.Machine.execGeneratorProbe probes s
  | .lockstepMismatch => Sys2Proof.Machine.execLockstepMismatch s
  | .mgmtWatchdogExpiry => Sys2Proof.Machine.execMgmtWatchdogExpiry s
  | .mgmtRestartComplete => Sys2Proof.Machine.execMgmtRestartComplete s
  | .qualificationWindow present ab al bl p0 p1 aon => Sys2Proof.Machine.execQualificationWindow present ab al bl p0 p1 aon s
  | .clockMonitorFire ref cause => Sys2Proof.Machine.execClockMonitorFire ref cause s
  | .pmbusPoll microvoltAmps => Sys2Proof.Machine.execPmbusPoll microvoltAmps s
  | .supplyUndervoltage rail below nominal => Sys2Proof.Machine.execSupplyUndervoltage rail below nominal s
  | .pwrGoodFall bit => Sys2Proof.Machine.execPwrGoodFall bit s
  | .regulatorRecoveryExpiry rail => Sys2Proof.Machine.execRegulatorRecoveryExpiry rail s
  | .pwrGoodRise bit => Sys2Proof.Machine.execPwrGoodRise bit s
  | .pgTimeout => Sys2Proof.Machine.execPgTimeout s
  | .powerSequenceDelay => Sys2Proof.Machine.execPowerSequenceDelay s
  | .wakeReq samples => Sys2Proof.Machine.execWakeReq samples s
  | .porNRelease nodeId feedId => Sys2Proof.Machine.execPorNRelease nodeId feedId s
  | .porNAssert => Sys2Proof.Machine.execPorNAssert s
  | .vddAonDetect millivolts => Sys2Proof.Machine.execVddAonDetect millivolts s
  | .bootSlotChecked => Sys2Proof.Machine.execBootSlotChecked s
  | .d2dTrainingDone trained => Sys2Proof.Machine.execD2dTrainingDone trained s
  | .hbmTrainingDone trained => Sys2Proof.Machine.execHbmTrainingDone trained s
  | .ddrTrainingDone modules => Sys2Proof.Machine.execDdrTrainingDone modules s
  | .selfTestDone failedClusters failedDies failedLapidaries => Sys2Proof.Machine.execSelfTestDone failedClusters failedDies failedLapidaries s
  | .readiness => Sys2Proof.Machine.execReadiness s
  | .governorTick => Sys2Proof.Machine.execGovernorTick s
  | .dieSensorSample milliC hbmMilliC => Sys2Proof.Machine.execDieSensorSample milliC hbmMilliC s
  | .thermistorSample inMilliOhm outMilliOhm => Sys2Proof.Machine.execThermistorSample inMilliOhm outMilliOhm s
  | .coolantEnvelope => Sys2Proof.Machine.execCoolantEnvelope s
  | .coolantHeatCheck => Sys2Proof.Machine.execCoolantHeatCheck s
  | .flowPulse spanUs => Sys2Proof.Machine.execFlowPulse spanUs s
  | .flowTimeout => Sys2Proof.Machine.execFlowTimeout s
  | .servingSampleAdmission stream => Sys2Proof.Machine.execServingSampleAdmission stream s
  | .outputEntryWrite stream => Sys2Proof.Machine.execOutputEntryWrite stream s
  | .batchIntervalExpiry port => Sys2Proof.Machine.execBatchIntervalExpiry port s
  | .batchEntryWrite port => Sys2Proof.Machine.execBatchEntryWrite port s
  | .flitSlot link => Sys2Proof.Machine.execFlitSlot link s
  | .fuseDualRead => Sys2Proof.Machine.execFuseDualRead s
  | .slowTierZeroed lapidary => Sys2Proof.Machine.execSlowTierZeroed lapidary s
  | .coreDmaGranule stage transfer => Sys2Proof.Machine.execCoreDmaGranule stage transfer s
  | .retentionSave => Sys2Proof.Machine.execRetentionSave s
  | .gateOpeningDone node => Sys2Proof.Machine.execGateOpeningDone node s

end Sys2Proof.Machine
end

