-- ==== Sys2Proof/Machine/Idle.lean ====
section
/-!
DEFINITION. What goes on while no command waits: time passes, the moves under way carry a block each (R259), a BAR2 write
held for room begins its supply (R271), a port's DMA queues carry a granule in turn (R383), the counts of the event queues cross (R393), a HOST collective that waits for its objects starts (R263), a take
whose last Lapidary is lost counts as updated (R332), a root latches the verdict it has cut (R183), and stages take and hand on what they can
(R224). The text gives these no step of
their own (DESIGN CHOICE, log entry 111).
-/
namespace Sys2Proof.Machine

/-- The objects whose move has blocks to carry. -/
def Device.carrying (d : Device) : List Nat := tkeys (d.ms.dir.filter (fun p => p.2.remaining != 0))

/-- The rebuilds under way complete a block each, the last one aside, which completes the rebuild (R247, R269). -/
def Device.rebuildBlocks (d : Device) : Device :=
  d.onMs (fun m => { m with dir := m.dir.map (fun p =>
    (p.1, if p.2.move = .rebuilding ∧ p.2.moveDone + 1 < p.2.size then { p.2 with moveDone := p.2.moveDone + 1 } else p.2)) })

/-- A root that has cut its own take latches the verdict it sent down (R183 step 4). -/
def Device.latchCut (d : Device) : Device := if d.run.rootCut then d.latchFormed else d

/-- The block idles for a microsecond. Nothing moves while its clocks are held or its power is off. -/
def Device.idle (d : Device) : Device :=
  if !d.boot.porHigh ∨ d.pwr.hold then tick d
  else
    let d := ((tick d).each d.carrying Device.moveBlock).rebuildBlocks
    let d := d.each [0, 1] (fun d p => (d.retryHeld p).dmaTurn p)
    d.startWaiting.settleUpdates.evqCross.latchCut.settle

end Sys2Proof.Machine
end

