-- ==== Sys2Proof/WellFormed.lean ====
section
/-!
DEFINITION. Well-formed commands: every operand lies in the range the rules give the thing it names. A command that is
not well-formed is none the outside can send; the meanings are total on it all the same.
-/
namespace Sys2Proof

/-- A field of `n` bytes. -/
def fitsBytes (n v : Nat) : Bool := decide (v < 256 ^ n)

/-- One of the two PCIe ports (R9). -/
def portWf (p : Nat) : Bool := decide (p < 2)

/-- One of the 96 Ronane links (R9). -/
def linkWf (l : Nat) : Bool := decide (l < 96)

/-- One of the four compute dies (R9). -/
def dieWf (d : Nat) : Bool := decide (d < 4)

/-- One of the two Lapidaries (R3). -/
def lapidaryWf (l : Nat) : Bool := decide (l < 2)

/-- A path: a mailbox slot of a port (R354), or a station address of 48 bits (R363). -/
def Path.wf : Path → Bool
  | .mailbox p s => portWf p && decide (s < 8)
  | .field src => decide (src < 2 ^ 48)

/-- A request: a path and a TRANSACTION of two bytes (R349). -/
def Req.wf (rq : Req) : Bool := rq.path.wf && fitsBytes 2 rq.trans

/-- A write: INDEX of two bytes, SUB and TYPE of one (R349), or a byte of BAR0 (R374: 16 MiB). -/
def WriteTarget.wf : WriteTarget → Bool
  | .dict rq index sub type => rq.wf && fitsBytes 2 index && fitsBytes 1 sub && fitsBytes 1 type
  | .bar0 port offset => portWf port && decide (offset < 2 ^ 24)

/-- A message: ranks and entries of the header's fields (R285), a payload of at most 16,384 bytes. -/
def Msg.wf (m : Msg) : Bool :=
  decide (m.src < 1024) && fitsBytes 2 m.entry && fitsBytes 4 m.msgId && fitsBytes 8 m.take && fitsBytes 8 m.offset &&
    decide (m.payload.length ≤ 16384)

/-- A dictionary request's INDEX, SUB and TYPE. -/
def addressWf (rq : Req) (index sub type : Nat) : Bool := rq.wf && fitsBytes 2 index && fitsBytes 1 sub && fitsBytes 1 type

/-- A DMA queue of a port (R374: 64). -/
def dmaWf (p q : Nat) : Bool := portWf p && decide (q < 64)

/-- An event-queue window of a port (R374: 128). -/
def windowWf (p q : Nat) : Bool := portWf p && decide (q < 128)

/-- An aperture of a port (R374: 64). -/
def apertureWf (p a : Nat) : Bool := portWf p && decide (a < 64)

/-- The operands of a command are in their ranges. -/
def Instr.wf : Instr → Bool
  | .write target _ => target.wf
  | .readStaged rq index sub type => addressWf rq index sub type
  | .segReadInit rq index sub type => addressWf rq index sub type
  | .segReadNext rq index sub type segment => addressWf rq index sub type && fitsBytes 2 segment
  | .segWriteInit rq index sub type length => addressWf rq index sub type && fitsBytes 4 length
  | .segWriteNext rq index sub type segment _ value =>
    addressWf rq index sub type && fitsBytes 2 segment && decide (value.length ≤ 1024)
  | .segAbort rq index sub => addressWf rq index sub 0
  | .segTransferTimeout path => path.wf
  | .authChallenge rq => rq.wf
  | .authResponse rq _ => rq.wf
  | .authEnd rq => rq.wf
  | .serviceIdleExpiry path => path.wf
  | .doorbell port slot value => portWf port && decide (slot < 8) && fitsBytes 4 value
  | .mailboxRequestService => true
  | .slotStateFree port slot value => portWf port && decide (slot < 8) && fitsBytes 4 value
  | .fieldPduFrame src _ frame => decide (src < 2 ^ 48) && decide (frame.length ≤ 1500)
  | .heartbeat => true
  | .fieldHeartbeatRx src nodeId => decide (src < 2 ^ 48) && fitsBytes 1 nodeId
  | .conductorToken rq value => rq.wf && fitsBytes 1 value
  | .conductorLapse => true
  | .stageHold rq value => rq.wf && fitsBytes 1 value
  | .runControlArm rq => rq.wf
  | .armPromotionsSettled => true
  | .armPeerWaitExpiry => true
  | .runControlStart rq => rq.wf
  | .runControlStop rq => rq.wf
  | .stopComplete => true
  | .stageBind rq handle => rq.wf && fitsBytes 4 handle
  | .stageUnbind rq handle => rq.wf && fitsBytes 4 handle
  | .streamOpen rq x => rq.wf && fitsBytes 4 x.handle && x.formed.all (fun f => f.1 < 2 ^ 20 && f.2 < 2 ^ 64)
  | .streamClose rq stream => rq.wf && fitsBytes 2 stream
  | .streamCloseComplete stream => decide (stream < 32768)
  | .streamClear rq stream => rq.wf && fitsBytes 2 stream
  | .streamGrant rq port value => rq.wf && portWf port && fitsBytes 4 value
  | .versionPublish rq value => rq.wf && fitsBytes 16 value
  | .versionDigestFormed layer => fitsBytes 2 layer
  | .objectCreate rq value => rq.wf && fitsBytes 16 value
  | .objectCreatePlaced index => decide (index < 2 ^ 18)
  | .objectDelete rq handle => rq.wf && fitsBytes 4 handle
  | .objectPin rq handle => rq.wf && fitsBytes 4 handle
  | .objectUnpin rq handle => rq.wf && fitsBytes 4 handle
  | .objectMove rq value => rq.wf && fitsBytes 8 value
  | .linkRetrain rq link => rq.wf && fitsBytes 1 link
  | .collectiveStart rq entry => rq.wf && fitsBytes 2 entry
  | .logConsumed rq offset => rq.wf && fitsBytes 4 offset
  | .clockResume rq value => rq.wf && fitsBytes 1 value
  | .clockResumeDone => true
  | .refSelect rq domain value => rq.wf && fitsBytes 1 domain && fitsBytes 1 value
  | .gateOpen rq => rq.wf
  | .gateHold rq => rq.wf
  | .gateHeld node => fitsBytes 2 node
  | .powerRequestP1 rq => rq.wf
  | .powerRequestP2 rq => rq.wf
  | .powerRequestP3 rq => rq.wf
  | .dvfsRequest rq die level => rq.wf && dieWf die && fitsBytes 1 level
  | .dvfsLevelChange die => dieWf die
  | .avsbusVoltageReached die => dieWf die
  | .arithPllSlewDone die => dieWf die
  | .avsbusConfirmTimeout die => dieWf die
  | .fwUpdate rq value => rq.wf && fitsBytes 8 value
  | .fwUpdateDone _ => true
  | .preferredSlot rq value => rq.wf && fitsBytes 1 value
  | .rollbackCommit rq value blownA blownB => rq.wf && fitsBytes 1 value && decide (blownA < 2 ^ 256) && decide (blownB < 2 ^ 256)
  | .debugUnlock rq value => rq.wf && fitsBytes 1 value
  | .deviceReset rq value => rq.wf && fitsBytes 1 value
  | .warmReset nodeId feedId => fitsBytes 1 nodeId && fitsBytes 1 feedId
  | .clusterDrain rq => rq.wf
  | .drainComplete => true
  | .clusterTest rq => rq.wf
  | .clusterTestDone _ => true
  | .clusterReturn rq => rq.wf
  | .tvRun rq value => rq.wf && fitsBytes 16 value
  | .tvRunDone => true
  | .liveUpdate rq value => rq.wf && fitsBytes 2 value
  | .liveUpdateDone => true
  | .batchRing rq port handle => rq.wf && portWf port && fitsBytes 4 handle
  | .evqConfig rq queue value => rq.wf && decide (queue < 256) && fitsBytes 16 value
  | .dmaQueueEnable port queue control => dmaWf port queue && fitsBytes 4 control
  | .dmaQueueDisable port queue control => dmaWf port queue && fitsBytes 4 control
  | .sqTail port queue tail descriptors =>
    dmaWf port queue && fitsBytes 4 tail && descriptors.all (fun x => decide (x < 2 ^ 256))
  | .cqHead port queue head => dmaWf port queue && fitsBytes 4 head
  | .nop port queue => dmaWf port queue
  | .toObject port queue _ => dmaWf port queue
  | .toHost port queue => dmaWf port queue
  | .zero port queue => dmaWf port queue
  | .descriptorComplete port queue => dmaWf port queue
  | .bar2Read port aperture _ _ => apertureWf port aperture
  | .bar2Write port aperture _ _ => apertureWf port aperture
  | .bar2WaitExpiry port => portWf port
  | .evqPop port queue => windowWf port queue
  | .evqArm port queue => windowWf port queue
  | .evqClearUnderrun port queue => windowWf port queue
  | .pcieLinkDown port => portWf port
  | .pcieLinkUp port rate width _ => portWf port && decide (rate < 4) && decide (width ≤ 16)
  | .pcieHotReset port => portWf port
  | .pcieFlr port => portWf port
  | .perstNDeassert port => portWf port
  | .ringProducer port handle count => portWf port && fitsBytes 4 handle && fitsBytes 8 count
  | .ringConsumer port handle count => portWf port && fitsBytes 4 handle && fitsBytes 8 count
  | .getVersion port => portWf port
  | .getCapabilities port => portWf port
  | .negotiateAlgorithms port asymAlgos hashAlgos => portWf port && fitsBytes 4 asymAlgos && fitsBytes 4 hashAlgos
  | .getDigests port => portWf port
  | .getCertificate port slot offset length => portWf port && decide (slot < 8) && fitsBytes 2 offset && fitsBytes 2 length
  | .challenge port slot _ => portWf port && decide (slot < 8)
  | .getMeasurements port index _ _ => portWf port && fitsBytes 1 index
  | .spdmUnsupportedRequest port code => portWf port && fitsBytes 1 code
  | .takeAdmission => true
  | .inputSampleTake stage => fitsBytes 4 stage
  | .vectorProgramRow stage _ => fitsBytes 4 stage
  | .quantiseRow stage _ => fitsBytes 4 stage
  | .clipBlockQuantise stage _ => fitsBytes 4 stage
  | .fwdTileOpIssue stage _ _ => fitsBytes 4 stage
  | .fwdTileOpComplete x => fitsBytes 4 x.subject
  | .sideTileOpComplete stage _ _ => fitsBytes 4 stage
  | .dailiesReferenceComplete stage => fitsBytes 4 stage
  | .gradientLineReceive stage => fitsBytes 4 stage
  | .igradTileOpComplete stage _ _ => fitsBytes 4 stage
  | .wgradItemComplete core => decide (core < 1024)
  | .recomputePass stage => fitsBytes 4 stage
  | .stashDeadlineMiss stage => fitsBytes 4 stage
  | .localHealthLatch => true
  | .verdictUp m _ => m.wf
  | .verdictDown m => m.wf
  | .logRecordWrite => true
  | .layerUpdate x => lapidaryWf x.subject
  | .workingCopyPublish lapidary => lapidaryWf lapidary
  | .flitReceive link flit => linkWf link && decide (flit.length = 256)
  | .retryLimitReached link => linkWf link
  | .linkUcwLimit link => linkWf link
  | .linkTrained link => linkWf link
  | .linkTrainTimeout link => linkWf link
  | .identity link rank port seed => linkWf link && decide (rank < 1024) && decide (port < 96) && fitsBytes 8 seed
  | .contribution m => m.wf
  | .result m => m.wf
  | .msgAck src msgId => decide (src < 1024) && fitsBytes 4 msgId
  | .msgResendTimeout dest msgId => decide (dest < 1024) && fitsBytes 4 msgId
  | .live src => decide (src < 1024)
  | .liveSend => true
  | .peerTimeout rank => decide (rank < 1024)
  | .stillHello m => m.wf
  | .stillBlock m => m.wf
  | .stillTraceBlock m => m.wf
  | .stillManifest m => m.wf
  | .stillEnd m => m.wf
  | .stillAbort m => m.wf
  | .restoreRequest m => m.wf
  | .stillAck m => m.wf
  | .translationMiss stage handle offset _ => fitsBytes 4 stage && fitsBytes 4 handle && fitsBytes 4 offset
  | .moveSettle x => fitsBytes 4 x.subject
  | .holdLimitExpiry handle waiter => fitsBytes 4 handle && fitsBytes 4 waiter
  | .weightDeadlineMiss stage _ => fitsBytes 4 stage
  | .workingCopyRebuild handle => fitsBytes 4 handle
  | .channelLivenessRead channel _ => decide (channel < 24)
  | .channelUeLimit channel => decide (channel < 24)
  | .scrubPass _ _ => true
  | .scrubOverdue _ => true
  | .residencyEpochTick => true
  | .clusterFault die cluster _ => dieWf die && decide (cluster < 17)
  | .substitutionComplete => true
  | .partHeartbeatMiss part => decide (part < 6)
  | .hbmPatternCheck stack _ => decide (stack < 8)
  | .d2dModuleRetire moduleIx => decide (moduleIx < 46)
  | .alertPulseEnd => true
  | .riskHoldExpiry source => fitsBytes 1 source
  | .generatorProbe probes => probes.all (fun p => fitsBytes 8 p.2)
  | .lockstepMismatch => true
  | .mgmtWatchdogExpiry => true
  | .mgmtRestartComplete => true
  | .qualificationWindow present _ _ _ _ _ _ => decide (present.length = 5)
  | .clockMonitorFire _ cause => fitsBytes 1 cause
  | .pmbusPoll _ => true
  | .supplyUndervoltage rail _ _ => fitsBytes 1 rail
  | .pwrGoodFall bit => decide (bit < 16)
  | .regulatorRecoveryExpiry rail => fitsBytes 1 rail
  | .pwrGoodRise bit => decide (bit < 16)
  | .pgTimeout => true
  | .powerSequenceDelay => true
  | .wakeReq _ => true
  | .porNRelease nodeId feedId => fitsBytes 1 nodeId && fitsBytes 1 feedId
  | .porNAssert => true
  | .vddAonDetect _ => true
  | .bootSlotChecked => true
  | .d2dTrainingDone trained => decide (trained < 2 ^ 46)
  | .hbmTrainingDone trained => fitsBytes 1 trained
  | .ddrTrainingDone modules => decide (modules.length = 24)
  | .selfTestDone failedClusters failedDies failedLapidaries =>
    decide (failedClusters < 2 ^ 68) && decide (failedDies < 16) && decide (failedLapidaries < 4)
  | .readiness => true
  | .governorTick => true
  | .dieSensorSample milliC _ => decide (milliC.length = 7)
  | .thermistorSample _ _ => true
  | .coolantEnvelope => true
  | .coolantHeatCheck => true
  | .flowPulse spanUs => decide (0 < spanUs)
  | .flowTimeout => true
  | .servingSampleAdmission stream => decide (stream < 32768)
  | .outputEntryWrite stream => decide (stream < 32768)
  | .batchIntervalExpiry port => portWf port
  | .batchEntryWrite port => portWf port
  | .flitSlot link => linkWf link
  | .fuseDualRead => true
  | .slowTierZeroed lapidary => lapidaryWf lapidary
  | .coreDmaGranule stage transfer => fitsBytes 4 stage && decide (transfer < 8)
  | .retentionSave => true
  | .gateOpeningDone node => fitsBytes 2 node

end Sys2Proof
end

