-- ==== Sys2Proof/Safety.lean ====
section
/-!
DEFINITION. What counts as a safe run: the block goes on after every command but one that breaks an obligation of the text
(R2). The only such obligation a command can break is R353's: no requester reuses a TRANSACTION that is PENDING.
-/
namespace Sys2Proof.Machine

/-- The request a command carries out: its own, that of the slot at the head of the doorbells' order, or that of a PDU
frame which no kept response answers. -/
def requestOf (d : Device) : Instr → Option Req
  | .mailboxRequestService => d.nextPosted.map (fun k => slotReq (k / 8) (k % 8) (d.slot (k / 8) (k % 8)))
  | .fieldPduFrame src _ frame =>
    match frameIs frame with
    | .pdu h _ => if (d.keptFor src h).isSome then none else some (frameReq src h)
    | _ => none
  | .write (.dict rq _ _ _) _ => some rq
  | .readStaged rq _ _ _ => some rq
  | .segReadInit rq _ _ _ => some rq
  | .segReadNext rq _ _ _ _ => some rq
  | .segWriteInit rq _ _ _ _ => some rq
  | .segWriteNext rq _ _ _ _ _ _ => some rq
  | .segAbort rq _ _ => some rq
  | .authChallenge rq => some rq
  | .authResponse rq _ => some rq
  | .authEnd rq => some rq
  | .conductorToken rq _ => some rq
  | .stageHold rq _ => some rq
  | .runControlArm rq => some rq
  | .runControlStart rq => some rq
  | .runControlStop rq => some rq
  | .stageBind rq _ => some rq
  | .stageUnbind rq _ => some rq
  | .streamOpen rq _ => some rq
  | .streamClose rq _ => some rq
  | .streamClear rq _ => some rq
  | .streamGrant rq _ _ => some rq
  | .versionPublish rq _ => some rq
  | .objectCreate rq _ => some rq
  | .objectDelete rq _ => some rq
  | .objectPin rq _ => some rq
  | .objectUnpin rq _ => some rq
  | .objectMove rq _ => some rq
  | .linkRetrain rq _ => some rq
  | .collectiveStart rq _ => some rq
  | .logConsumed rq _ => some rq
  | .clockResume rq _ => some rq
  | .refSelect rq _ _ => some rq
  | .gateOpen rq => some rq
  | .gateHold rq => some rq
  | .powerRequestP1 rq => some rq
  | .powerRequestP2 rq => some rq
  | .powerRequestP3 rq => some rq
  | .dvfsRequest rq _ _ => some rq
  | .fwUpdate rq _ => some rq
  | .preferredSlot rq _ => some rq
  | .rollbackCommit rq _ _ _ => some rq
  | .debugUnlock rq _ => some rq
  | .deviceReset rq _ => some rq
  | .clusterDrain rq => some rq
  | .clusterTest rq => some rq
  | .clusterReturn rq => some rq
  | .tvRun rq _ => some rq
  | .liveUpdate rq _ => some rq
  | .batchRing rq _ _ => some rq
  | .evqConfig rq _ _ => some rq
  | _ => none

/-- A command keeps R353: it is no request, or its TRANSACTION is not one that waits. -/
def keepsR353 (d : Device) (c : Instr) : Bool :=
  match requestOf d c with
  | some rq => !d.reused rq
  | none => true

/-- A write of a command object passes orders 1 to 8 of R348: the management pair serves, R353 is kept, and the value fits
its type, its role, its state and its range. -/
def accepts (d : Device) (rq : Req) (key v : Nat) : Bool :=
  d.ctl.serving && !d.reused rq &&
  match rowOfKey key with
  | none => false
  | some row =>
    decide (row.len ≤ 1024) && decide (v < 256 ^ row.len) && row.range.accepts v &&
      (match d.checkWrite rq (key / 256) (key % 256) row.ty row.len v with
       | .ok r => r == row
       | .error _ => false)

/-- An object whose write is only its store: no row of its own commands it. -/
def plainObject (key : Nat) : Bool :=
  commandEffects.all (fun p => p.1 != key) && !(Obj.refSelect ≤ key && key ≤ Obj.refSelect + 12) &&
    !(Obj.evqConfig ≤ key && key ≤ Obj.evqConfig + 255)

/-- The type code of an object (R341). -/
def typeOf (key : Nat) : Nat := match rowOfKey key with
  | some row => row.ty
  | none => 0

/-- A request has been answered, and nothing has been sent since: on the mailbox its slot holds the response, is PENDING or
DONE by its status, and has signalled its vector (R355); on the field network the response is kept and has been sent to
its source (R363, R364). -/
def Answered (d : Device) (rq : Req) (op key type : Nat) (a : Answer) : Prop :=
  match rq.path with
  | .mailbox p s =>
    (d.slot p s).response = responsePdu rq op key type a ∧
    (d.slot p s).state = (if a.status = St.pending then .pending else .done) ∧
    d.out.head? = some (.msix p s)
  | .field src =>
    (∃ at_, d.ctl.kept.head? = some ⟨src, rq.trans, key, op, at_, responsePdu rq op key type a⟩) ∧
    (∃ b, d.out.head? = some (.frame src b))

/-- The write of a command object has been answered with a status. -/
def AnsweredWrite (d : Device) (rq : Req) (key st : Nat) : Prop := Answered d rq Op.write key (typeOf key) { status := st }

/-- The devices differ in the control path, the event queues, what was sent and the draws of free values alone: what
serving a request, answering it and raising events may change. -/
def OnlyControl (d e : Device) : Prop :=
  ∃ c q o f, e = { d with ctl := c, evqs := q, out := o, free := f }

/-- The values of the dictionary agree but for the keys listed, the counters of requests and of events. -/
def ValuesKept (d e : Device) (but : List Nat) : Prop :=
  ∀ k, k ∉ but → k ∉ [Obj.mailboxRequests0, Obj.mailboxRequests1, Obj.eventsRaised, Obj.eventsUndelivered] → e.get k = d.get k

end Sys2Proof.Machine
end

