-- ==== Sys2Proof/Certificates/Slice0/Obligations.lean ====
section
/-!
DEFINITION. The statements for the provers, family by family of the table. Each docstring says which rules a statement
formalises, or which log entry it rests on where it is the model's own choice.
-/
open Sys2Proof Sys2Proof.Machine

/-! ### The block's step -/

/-- A step runs the command at the front of the queue on the device with the queue's rest: whatever `exec` answers there
is what the step answers. -/
def Obligations.StepRunsTheCommandInFront : Prop :=
  ∀ (c : Instr) (s : State), step { s with pending := c :: s.pending } = exec c s

/-- On an empty queue the step answers a next state with an empty queue, and the microseconds advance by one, modulo 2^48,
exactly when POR_N is released (R460; that an idle step is one microsecond is the model's choice, log entry 1). While POR_N is
asserted or the clocks are held nothing else changes. While they run, with no stage bound, no write held, no descriptor in
progress, no collective, no update and no verdict to latch, every move under way carries one block and every rebuild completes one,
the last aside (R247, R259; that this happens in an idle step is the model's choice, log entry 111). -/
def Obligations.IdleStepPassesOneMicrosecond : Prop :=
  ∀ s : State, s.pending = [] →
    ∃ t, step s = .next t ∧ t.pending = [] ∧
      t.dev.micros = (if s.dev.boot.porHigh then (s.dev.micros + 1) % 2 ^ 48 else s.dev.micros) ∧
      (s.dev.boot.porHigh = false ∨ s.dev.pwr.hold = true →
        t = { s with dev := { s.dev with micros := t.dev.micros } }) ∧
      (s.dev.boot.porHigh = true → s.dev.pwr.hold = false → s.dev.stages = [] → s.dev.run.rootCut = false →
        (s.dev.port 0).heldAccess = [] → (s.dev.port 1).heldAccess = [] → (∀ p n, (s.dev.dmaq p n).taken = []) →
        s.dev.net.colls = [] → s.dev.run.contexts = [] → (tkeys s.dev.ms.dir).Nodup →
        ∀ h e, s.dev.entry h = some e →
          t.dev.entry h = some { e with moveDone :=
            if e.remaining ≠ 0 ∨ (e.move = .rebuilding ∧ e.moveDone + 1 < e.size) then e.moveDone + 1 else e.moveDone })

/-- The block goes on after every command but one: a request that reuses a TRANSACTION which is still PENDING, the
obligation of R353 for which the text defines no outcome (R2). Nothing is refused, and the commands that wait stay.
The model's own readings in it: log entry 28. -/
def Obligations.OnlyAReusedTransactionStops : Prop :=
  ∀ (c : Instr) (q : List Instr) (s : State), s.pending = c :: q →
    (keepsR353 s.dev c = true → ∃ t, step s = .next t ∧ t.pending = q) ∧
    (keepsR353 s.dev c = false → step s = .fault .obligationBroken)

/-- Well-formed commands wait, and none of them is changed, reordered or added by a step. -/
def Obligations.StepKeepsTheQueueInOrder : Prop :=
  ∀ s t : State, s.pending.all Instr.wf = true → step s = .next t →
    t.pending.all Instr.wf = true ∧ t.pending = s.pending.drop 1

/-- Right after reset no command waits, no memory byte is listed, every stored object reads its default (R16, R344), the
run is IDLE and no one holds the conductor token, event queues 0 and 128 are the enabled ones with 1,024 cells, every class
and vector 256 (R392), no DMA queue is enabled and every BAR2 aperture is unmapped (R377, R379). -/
def Obligations.ResetLeavesTheStatedValues : Prop :=
  State.reset.pending = [] ∧ State.reset.dev.ms.mem = [] ∧
  (∀ key, State.reset.dev.get key = dfltOf key) ∧
  State.reset.dev.runState = 0 ∧ State.reset.dev.get Obj.conductorToken = 0xFF ∧
  (∀ q, (State.reset.dev.evq q).enable = true ↔ q = 0 ∨ q = 128) ∧
  (State.reset.dev.evq 0).capacity = 1024 ∧ (State.reset.dev.evq 128).capacity = 1024 ∧
  (State.reset.dev.evq 0).mask = 0xFFFF_FFFF ∧ (State.reset.dev.evq 128).vector = 256 ∧
  (∀ q, q ≠ 0 → q ≠ 128 → (State.reset.dev.evq q).capacity = 256 ∧ (State.reset.dev.evq q).mask = 0 ∧
    (State.reset.dev.evq q).vector = 256 + q % 128) ∧
  (∀ p n, (State.reset.dev.dmaq p n).state = .disabled) ∧
  (∀ p a, bits (State.reset.dev.aperture p a) 0 32 = 0xFFFF_FFFF)

/-- The memory of the objects keeps its canonical form, addresses strictly rising and no byte listed that reads as an
unlisted one, through every step. -/
def Obligations.StepKeepsMemoryCanonical : Prop :=
  ∀ s t : State, Memory.wf s.dev.ms.mem = true → step s = .next t → Memory.wf t.dev.ms.mem = true

/-- Memory right after reset is in the canonical form. -/
def Obligations.ResetMemoryIsCanonical : Prop := Memory.wf State.reset.dev.ms.mem = true

/-! ### The control surface (chapter 12) -/

/-- A dictionary WRITE of a stored object that passes R348 acts by the object's update class (R344): a LIVE or an ARMED
object takes its value at once, a TAKE object at once while the run is IDLE and into the staged values while it is armed,
a BOOT object into the held values; a staged or held write leaves the value in effect alone. It is answered OK. An FP32 −0 is
stored as +0 (R505). -/
def Obligations.WriteActsByUpdateClass : Prop :=
  ∀ (s : State) (rq : Req) (key v : Nat) (row : ObjRow), accepts s.dev rq key v = true → rowOfKey key = some row →
    plainObject key = true → objectCheck key (s.dev.served rq) rq v = St.ok →
    ∃ t, exec (.write (.dict rq (key / 256) (key % 256) row.ty) (leBytes row.len v)) s = .next t ∧
      AnsweredWrite t.dev rq key St.ok ∧
      (row.cls = .live ∨ row.cls = .armed ∨ row.cls = .take ∧ s.dev.armed = false →
        t.dev.get key = storedValue row v) ∧
      (row.cls = .take ∧ s.dev.armed = true →
        tget t.dev.ctl.staged key = some (storedValue row v) ∧ t.dev.get key = s.dev.get key) ∧
      (row.cls = .boot → tget t.dev.ctl.held key = some (storedValue row v) ∧ t.dev.get key = s.dev.get key)

/-- A request answered with a refusal and without a side effect: what changes is the answer, the count of requests and the
events, no other value of the dictionary, no staged and no held value, and no part of the device outside the control path. -/
def Refused (s : State) (c : Instr) (rq : Req) (op key type st : Nat) : Prop :=
  ∃ t, exec c s = .next t ∧ Answered t.dev rq op key type { status := st } ∧ OnlyControl s.dev t.dev ∧
    ValuesKept s.dev t.dev [] ∧ t.dev.ctl.staged = s.dev.ctl.staged ∧ t.dev.ctl.held = s.dev.ctl.held

/-- A write of an ARMED object while a run is armed, by whatever role passes the checks before, has no side effect (R345): no
value of the dictionary but FROZEN_WRITES changes, nor a staged or held one, nor anything outside the control path. It is
answered FROZEN, counts in FROZEN_WRITES, and raises FROZEN_WRITE (0x0C01) with the object, the requester's role and the port
or source it came from, so that the event queues hold what that event leaves in them. It holds for WRITE and for the
SEG_WRITE_INIT of the field network. -/
def Obligations.ArmedObjectIsFrozen : Prop :=
  ∀ (s : State) (rq : Req) (key v : Nat) (row : ObjRow), s.dev.ctl.serving = true → s.dev.reused rq = false →
    rowOfKey key = some row → row.len ≤ 1024 → v < 256 ^ row.len → row.cls = .armed → s.dev.armed = true →
    (s.dev.checkWrite rq (key / 256) (key % 256) row.ty row.len v = .error St.frozen →
    ∃ t, exec (.write (.dict rq (key / 256) (key % 256) row.ty) (leBytes row.len v)) s = .next t ∧
      AnsweredWrite t.dev rq key St.frozen ∧ OnlyControl s.dev t.dev ∧ ValuesKept s.dev t.dev [Obj.frozenWrites] ∧
      t.dev.ctl.staged = s.dev.ctl.staged ∧ t.dev.ctl.held = s.dev.ctl.held ∧
      t.dev.get Obj.frozenWrites = (s.dev.get Obj.frozenWrites + 1) % 2 ^ 64 ∧
      t.dev.get Obj.eventsRaised = (s.dev.get Obj.eventsRaised + 1) % 2 ^ 64 ∧
      t.dev.evqs = (s.dev.raise 0x0C01 [a4 key, a1 ((s.dev.roleOf rq).getD 0), a8 (originOf rq.path)]).evqs) ∧
    (∀ (length type : Nat), portOf rq = none →
      s.dev.checkWrite rq (key / 256) (key % 256) type length 0 = .error St.frozen →
      ∃ t, exec (.segWriteInit rq (key / 256) (key % 256) type length) s = .next t ∧
        Answered t.dev rq Op.segWriteInit key type { status := St.frozen } ∧ OnlyControl s.dev t.dev ∧
        ValuesKept s.dev t.dev [Obj.frozenWrites] ∧ t.dev.ctl.staged = s.dev.ctl.staged ∧ t.dev.ctl.held = s.dev.ctl.held ∧
        t.dev.get Obj.frozenWrites = (s.dev.get Obj.frozenWrites + 1) % 2 ^ 64 ∧
        t.dev.evqs = (s.dev.raise 0x0C01 [a4 key, a1 ((s.dev.roleOf rq).getD 0), a8 (originOf rq.path)]).evqs)

/-- Every way to write an object is refused with a status and without a side effect: WRITE, and on the field network
SEG_WRITE_INIT. -/
def WritesRefused (s : State) (rq : Req) (index sub type st : Nat) : Prop :=
  (∀ value, Refused s (.write (.dict rq index sub type) value) rq Op.write (index * 256 + sub) type st) ∧
  (portOf rq = none → ∀ length,
    Refused s (.segWriteInit rq index sub type length) rq Op.segWriteInit (index * 256 + sub) type st)

/-- Every way to read an object is refused with a status: READ_STAGED and, on the field network, SEG_READ_INIT without a side
effect, and a READ that a frame carries, with no mailbox request posted before it, which the frame's count alone records. -/
def ReadsRefused (s : State) (rq : Req) (index sub type st : Nat) : Prop :=
  Refused s (.readStaged rq index sub type) rq Op.readStaged (index * 256 + sub) type st ∧
  (portOf rq = none →
    Refused s (.segReadInit rq index sub type) rq Op.segReadInit (index * 256 + sub) type st) ∧
  (∀ src frame h value, frameIs frame = .pdu h value → s.dev.keptFor src h = none → headerOk h = true →
    s.dev.ctl.posted = [] → frameReq src h = rq → Pdu.op h = Op.read → Pdu.index h = index → Pdu.sub h = sub → Pdu.type h = type →
    ∃ t, exec (.fieldPduFrame src false frame) s = .next t ∧
      Answered t.dev rq Op.read (index * 256 + sub) type { status := st } ∧ OnlyControl s.dev t.dev ∧
      ValuesKept s.dev t.dev [Obj.fieldFramesRx])

/-- Requests are checked in the order of R348, and the first check that fails decides the status, without a side effect: a
reserved TYPE (RANGE), an unknown index (NO_OBJECT), an unknown subindex (NO_SUB), the access of R343 (RO and CONST take no
write, WO no read: ROLE), the role, the type and the length, and, for a write that R345 does not freeze, the range of the value.
A read that passes them is answered OK with the value. -/
def Obligations.RequestsAreCheckedInOrder : Prop :=
  ∀ (s : State) (rq : Req) (index sub type : Nat),
    s.dev.ctl.serving = true → s.dev.reused rq = false → sub < 256 →
    (index * 256 + sub = Obj.runControl → s.dev.runState ≠ 1) →
    (type = 0 ∨ 0x0E < type →
      (∀ value, Refused s (.write (.dict rq index sub type) value) rq Op.write (index * 256 + sub) type St.range) ∧
      Refused s (.readStaged rq index sub type) rq Op.readStaged (index * 256 + sub) type St.range) ∧
    (type ≠ 0 → type ≤ 0x0E →
      (indexKnown index = false →
        WritesRefused s rq index sub type St.noObject ∧ ReadsRefused s rq index sub type St.noObject) ∧
      (indexKnown index = true → rowOf index sub = none →
        WritesRefused s rq index sub type St.noSub ∧ ReadsRefused s rq index sub type St.noSub) ∧
      (∀ row, rowOf index sub = some row →
        (row.access = .ro ∨ row.access = .const → WritesRefused s rq index sub type St.role) ∧
        (row.access = .wo → ReadsRefused s rq index sub type St.role) ∧
        (row.access = .rw ∨ row.access = .wo → ∀ (value : Bytes) (w : Nat → Prop),
          w = Refused s (.write (.dict rq index sub type) value) rq Op.write (index * 256 + sub) type →
          (s.dev.mayWrite rq row (index * 256 + sub) (leNat value) = false → w St.role) ∧
          (s.dev.mayWrite rq row (index * 256 + sub) (leNat value) = true →
            (type ≠ row.ty ∨ value.length ≠ row.len → w St.type) ∧
            (type = row.ty → value.length = row.len → row.cls ≠ .armed ∨ s.dev.armed = false →
              row.range.accepts (leNat value) = false → w St.range))) ∧
        (row.access ≠ .wo →
          (s.dev.mayRead rq row = false → ReadsRefused s rq index sub type St.role) ∧
          (s.dev.mayRead rq row = true →
            (type ≠ row.ty → ReadsRefused s rq index sub type St.type) ∧
            (type = row.ty → index * 256 + sub ≠ Obj.certChain →
              ∃ t, exec (.readStaged rq index sub type) s = .next t ∧
                Answered t.dev rq Op.readStaged (index * 256 + sub) type
                  { status := St.ok, staged := (s.dev.waitingValue (index * 256 + sub)).isSome,
                    value := leBytes row.len (((s.dev.served rq).waitingValue (index * 256 + sub)).getD
                      ((s.dev.served rq).valueOf (index * 256 + sub))) })))))

/-- READ_STAGED returns the staged or held value of an object, or the value in effect where there is none, and says in
STAGED which it is (R344, R350); SEG_READ_INIT copies the value in effect and answers its length; SEG_READ_NEXT answers
segment n of the copy, 1,024 bytes or what is left, LAST on the last (R352). -/
def Obligations.ReadsReturnTheValue : Prop :=
  ∀ (s : State) (rq : Req) (index sub type : Nat) (row : ObjRow), s.dev.ctl.serving = true → s.dev.reused rq = false →
    (s.dev.checkRead rq false index sub type = .ok row → index * 256 + sub ≠ Obj.certChain →
      (portOf rq = none → row.len ≤ 1024) → index * 256 + sub < 256 * 65536 →
      ∃ t, exec (.readStaged rq index sub type) s = .next t ∧
        Answered t.dev rq Op.readStaged (index * 256 + sub) type
          { status := St.ok, staged := (s.dev.waitingValue (index * 256 + sub)).isSome,
            value := leBytes row.len (((s.dev.served rq).waitingValue (index * 256 + sub)).getD
              ((s.dev.served rq).valueOf (index * 256 + sub))) }) ∧
    (portOf rq = none → s.dev.checkRead rq true index sub type = .ok row →
      (∃ t, exec (.segReadInit rq index sub type) s = .next t ∧
        t.dev.transferOf rq.path = some ⟨index * 256 + sub, ((s.dev.served rq).readObject row (index * 256 + sub) false).length,
          false, (s.dev.served rq).readObject row (index * 256 + sub) false, 0⟩ ∧
        Answered t.dev rq Op.segReadInit (index * 256 + sub) type
          { status := St.ok, staged := (s.dev.waitingValue (index * 256 + sub)).isSome,
            len := some ((s.dev.served rq).readObject row (index * 256 + sub) false).length }) ∧
      (∀ (copy : Bytes) (n next : Nat),
        s.dev.transferOf rq.path = some ⟨index * 256 + sub, copy.length, false, copy, next⟩ →
        n < max 1 (ceilDiv copy.length 1024) →
        ∃ t, exec (.segReadNext rq index sub type n) s = .next t ∧
          t.dev.transferOf rq.path = s.dev.transferOf rq.path ∧
          Answered t.dev rq Op.segReadNext (index * 256 + sub) type
            { status := St.ok, last := n + 1 == max 1 (ceilDiv copy.length 1024), seg := n,
              value := (copy.drop (1024 * n)).take 1024 }))

/-- A segmented write (R352): SEG_WRITE_INIT opens it after orders 1 to 7; a segment that orders 2 to 6 refuse is answered with
that status and leaves the transfer as it is; each segment of 1,024 bytes that comes in order
is kept; a segment out of order ends the transfer with RANGE; the last one ends it and, where the total is not LENGTH, is
answered TYPE, else the whole value is written as a WRITE writes it; SEG_ABORT and a second without a segment end it with
nothing written. Each answer carries the segment's number and its LAST (R349).
The model's own readings in it: log entry 33. -/
def Obligations.SegmentedWriteAppliesWhole : Prop :=
  ∀ (s : State) (rq : Req) (index sub type : Nat), s.dev.ctl.serving = true → s.dev.reused rq = false → portOf rq = none →
    (∀ (length : Nat) (row : ObjRow), s.dev.checkWrite rq index sub type length 0 = .ok row →
      ∃ t, exec (.segWriteInit rq index sub type length) s = .next t ∧
        t.dev.transferOf rq.path = some ⟨index * 256 + sub, length, true, [], 0⟩ ∧
        Answered t.dev rq Op.segWriteInit (index * 256 + sub) type { status := St.ok }) ∧
    (∀ (len next seg : Nat) (data value : Bytes) (last : Bool),
      s.dev.transferOf rq.path = some ⟨index * 256 + sub, len, true, data, next⟩ →
      (∀ st, s.dev.checkSegment rq index sub type = st → st ≠ St.ok →
        ∃ t, exec (.segWriteNext rq index sub type seg last value) s = .next t ∧
          t.dev.transferOf rq.path = s.dev.transferOf rq.path ∧
          Answered t.dev rq Op.segWriteNext (index * 256 + sub) type { status := st, last := last, seg := seg }) ∧
      (s.dev.checkSegment rq index sub type = St.ok →
        (seg = next → last = false → value.length = 1024 → data.length + 1024 < len →
          ∃ t, exec (.segWriteNext rq index sub type seg last value) s = .next t ∧
            t.dev.transferOf rq.path = some ⟨index * 256 + sub, len, true, data ++ value, next + 1⟩ ∧
            Answered t.dev rq Op.segWriteNext (index * 256 + sub) type { status := St.ok, seg := seg }) ∧
        (seg ≠ next →
          ∃ t, exec (.segWriteNext rq index sub type seg last value) s = .next t ∧ t.dev.transferOf rq.path = none ∧
            Answered t.dev rq Op.segWriteNext (index * 256 + sub) type { status := St.range, last := last, seg := seg }) ∧
        (seg = next → last = true → data.length + value.length ≠ len →
          ∃ t, exec (.segWriteNext rq index sub type seg last value) s = .next t ∧ t.dev.transferOf rq.path = none ∧
            Answered t.dev rq Op.segWriteNext (index * 256 + sub) type { status := St.type, last := true, seg := seg }) ∧
        (∀ row, seg = next → last = true → value.length ≤ 1024 → data.length + value.length = len → sub < 256 →
          rowOf index sub = some row → plainObject (index * 256 + sub) = true → row.cls = .live →
          row.range.accepts (leNat (data ++ value)) = true →
          objectCheck (index * 256 + sub) ((s.dev.served rq).endTransfer rq.path) rq (leNat (data ++ value)) = St.ok →
          ∃ t, exec (.segWriteNext rq index sub type seg last value) s = .next t ∧ t.dev.transferOf rq.path = none ∧
            t.dev.get (index * 256 + sub) = storedValue row (leNat (data ++ value)) ∧
            Answered t.dev rq Op.segWriteNext (index * 256 + sub) type
              { status := St.ok, last := true, seg := lastSegment (index * 256 + sub) })) ∧
      (∀ row, rowOf index sub = some row → (s.dev.roleOf rq).isSome = true →
        ∃ t, exec (.segAbort rq index sub) s = .next t ∧ t.dev.transferOf rq.path = none ∧
          Answered t.dev rq Op.segAbort (index * 256 + sub) row.ty { status := St.ok }) ∧
      (rowOf index sub = none →
        ∃ t ty, exec (.segAbort rq index sub) s = .next t ∧ t.dev.transferOf rq.path = s.dev.transferOf rq.path ∧
          Answered t.dev rq Op.segAbort (index * 256 + sub) ty
            { status := if indexKnown index then St.noSub else St.noObject }) ∧
      (∃ t, exec (.segTransferTimeout rq.path) s = .next t ∧ t.dev.transferOf rq.path = none ∧
        t.dev = { s.dev with ctl := { s.dev.ctl with transfers := t.dev.ctl.transfers } }))

/-- A session of SERVICE (R357): AUTH_CHALLENGE answers 32 random bytes and keeps them in place of any unused ones; an
AUTH_RESPONSE of 66 bytes whose slot and signature verify over that challenge opens the session and uses the challenge up;
a wrong signature is answered BAD_SIGNATURE, uses it up too and counts in AUTH_FAILURES; AUTH_END and SERVICE_IDLE_S without
a request end the session. -/
def Obligations.ServiceSessionOpensAndEnds : Prop :=
  ∀ (s : State) (rq : Req), s.dev.ctl.serving = true → s.dev.reused rq = false →
    (∃ t, exec (.authChallenge rq) s = .next t ∧ ∃ c : Bytes, c.length = 32 ∧
      (t.dev.authOf rq.path).challenge = some c ∧
      (t.dev.authOf rq.path).session = ((s.dev.served rq).authOf rq.path).session ∧
      Answered t.dev rq Op.authChallenge 0 0 { status := St.ok, value := c }) ∧
    (∀ (value c : Bytes), value.length = 66 → (s.dev.authOf rq.path).challenge = some c → leAt value 0 2 ≤ 7 →
      authLocked s.dev.micros (s.dev.authOf rq.path).failures = false →
      (s.dev.authVerifies rq.path (leAt value 0 2) c (value.drop 2) = true →
        ∃ t, exec (.authResponse rq value) s = .next t ∧
          (t.dev.authOf rq.path).session = some s.dev.micros ∧ (t.dev.authOf rq.path).challenge = none ∧
          Answered t.dev rq Op.authResponse 0 0 { status := St.ok }) ∧
      (s.dev.authVerifies rq.path (leAt value 0 2) c (value.drop 2) = false →
        ∃ t, exec (.authResponse rq value) s = .next t ∧
          (t.dev.authOf rq.path).session = ((s.dev.served rq).authOf rq.path).session ∧
          (t.dev.authOf rq.path).challenge = none ∧
          t.dev.get Obj.authFailures = (s.dev.get Obj.authFailures + 1) % 2 ^ 64 ∧
          Answered t.dev rq Op.authResponse 0 0 { status := St.badSignature })) ∧
    (∃ t, exec (.authEnd rq) s = .next t ∧ (t.dev.authOf rq.path).session = none ∧
      Answered t.dev rq Op.authEnd 0 0 { status := St.ok }) ∧
    (∃ t, exec (.serviceIdleExpiry rq.path) s = .next t ∧ (t.dev.authOf rq.path).session = none)

/-- The mailbox (R351, R354, R355): a write of 1 to DOORBELL posts the request of a FREE slot behind those posted before it;
to any other slot it changes nothing but the count of doorbells ignored; while the management pair does not serve, a FREE slot
is answered at once; the pair takes the slot posted first, does what a WRITE in it writes (one longer than the request area is answered TYPE) and
answers a READ with the value in effect; a write of 0 to SLOT_STATE frees a DONE slot. -/
def Obligations.MailboxServesInDoorbellOrder : Prop :=
  ∀ (s : State) (p n : Nat), p ≤ 1 → n ≤ 7 →
    ((s.dev.slot p n).state = .free → s.dev.ctl.serving = true →
      ∃ t, exec (.doorbell p n 1) s = .next t ∧ (t.dev.slot p n).state = .posted ∧
        (t.dev.slot p n).request = (s.dev.slot p n).request ∧ t.dev.ctl.posted = s.dev.ctl.posted ++ [8 * p + n]) ∧
    ((s.dev.slot p n).state ≠ .free →
      ∃ t, exec (.doorbell p n 1) s = .next t ∧ t.dev = s.dev.bump Obj.doorbellsIgnored) ∧
    ((s.dev.slot p n).state = .free → s.dev.ctl.serving = false → s.dev.sec.bootFailed = false →
      ∃ t, exec (.doorbell p n 1) s = .next t ∧
        Answered t.dev (slotReq p n (s.dev.slot p n)) (Pdu.op (s.dev.slot p n).header) (Pdu.key (s.dev.slot p n).header)
          (Pdu.type (s.dev.slot p n).header) { status := St.notReady }) ∧
    (∀ rest, s.dev.ctl.posted = (8 * p + n) :: rest → s.dev.ctl.serving = true →
      s.dev.reused (slotReq p n (s.dev.slot p n)) = false →
      (headerOk (s.dev.slot p n).header = false → Pdu.len (s.dev.slot p n).header ≤ requestArea - 16 →
        ∃ t, exec .mailboxRequestService s = .next t ∧ t.dev.ctl.posted = rest ∧
          Answered t.dev (slotReq p n (s.dev.slot p n)) (Pdu.op (s.dev.slot p n).header) (Pdu.key (s.dev.slot p n).header)
            (Pdu.type (s.dev.slot p n).header) { status := St.range }) ∧
      (headerOk (s.dev.slot p n).header = true → Pdu.op (s.dev.slot p n).header = Op.write →
        Pdu.len (s.dev.slot p n).header ≤ requestArea - 16 →
        exec .mailboxRequestService s =
          exec (.write (.dict (slotReq p n (s.dev.slot p n)) (Pdu.index (s.dev.slot p n).header)
              (Pdu.sub (s.dev.slot p n).header) (Pdu.type (s.dev.slot p n).header))
              (slice (s.dev.slot p n).request 16 (Pdu.len (s.dev.slot p n).header)))
            { s with dev := ((s.dev.onCtl (fun c => { c with posted := rest })).setSlot p n
                ({ s.dev.slot p n with state := .inService })) }) ∧
      (headerOk (s.dev.slot p n).header = true → Pdu.op (s.dev.slot p n).header = Op.write →
        requestArea - 16 < Pdu.len (s.dev.slot p n).header →
        ∀ row, (((s.dev.onCtl (fun c => { c with posted := rest })).setSlot p n
            { s.dev.slot p n with state := .inService }).served (slotReq p n (s.dev.slot p n))).checkWrite
              (slotReq p n (s.dev.slot p n)) (Pdu.index (s.dev.slot p n).header) (Pdu.sub (s.dev.slot p n).header)
              (Pdu.type (s.dev.slot p n).header) row.len
              (leNat (slice (s.dev.slot p n).request 16 (requestArea - 15))) = .ok row →
          ∃ t, exec .mailboxRequestService s = .next t ∧ t.dev.ctl.posted = rest ∧
            Answered t.dev (slotReq p n (s.dev.slot p n)) Op.write (Pdu.key (s.dev.slot p n).header)
              (Pdu.type (s.dev.slot p n).header) { status := St.type }) ∧
      (headerOk (s.dev.slot p n).header = true → Pdu.op (s.dev.slot p n).header = Op.read →
        Pdu.len (s.dev.slot p n).header ≤ requestArea - 16 → Pdu.key (s.dev.slot p n).header ≠ Obj.certChain →
        ∀ (row : ObjRow) (e : Device),
          e = ((s.dev.onCtl (fun c => { c with posted := rest })).setSlot p n
            { s.dev.slot p n with state := .inService }).served (slotReq p n (s.dev.slot p n)) →
          e.checkRead (slotReq p n (s.dev.slot p n)) false (Pdu.index (s.dev.slot p n).header)
            (Pdu.sub (s.dev.slot p n).header) (Pdu.type (s.dev.slot p n).header) = .ok row →
          ∃ t, exec .mailboxRequestService s = .next t ∧ t.dev.ctl.posted = rest ∧
            Answered t.dev (slotReq p n (s.dev.slot p n)) Op.read (Pdu.key (s.dev.slot p n).header)
              (Pdu.type (s.dev.slot p n).header)
              { status := St.ok, staged := (e.waitingValue (Pdu.key (s.dev.slot p n).header)).isSome,
                value := leBytes row.len (e.valueOf (Pdu.key (s.dev.slot p n).header)) })) ∧
    ((s.dev.slot p n).state = .done →
      ∃ t, exec (.slotStateFree p n 0) s = .next t ∧
        t.dev = s.dev.setSlot p n { s.dev.slot p n with state := .free }) ∧
    (∀ v, v ≠ 0 ∨ (s.dev.slot p n).state ≠ .done →
      ∃ t, exec (.slotStateFree p n v) s = .next t ∧ t.dev = s.dev)

/-- The field network (R362 to R365): a heartbeat of another station with this node's own ID raises NODE_ID_CLASH, every
other only counts; a frame that is no Linveile frame counts in FIELD_FRAMES_BAD; a repeat of a request whose response is kept
sends that response again and counts in FIELD_DUPLICATES; a new request is served, behind the mailbox requests posted before
it (R351), which are served as MAILBOX_REQUEST_SERVICE serves them; the heartbeat goes to the broadcast
address with the body of R365, and its count advances modulo 2^32, unless the management pair does not serve.
The model's own readings in it: log entry 31. -/
def Obligations.FieldNetworkFramesAct : Prop :=
  (∀ (s : State) (src node : Nat),
    ∃ t, exec (.fieldHeartbeatRx src node) s = .next t ∧
      t.dev.get Obj.fieldFramesRx = (s.dev.get Obj.fieldFramesRx + 1) % 2 ^ 64 ∧
      t.dev.get Obj.eventsRaised = (if node = s.dev.ctl.nodeId ∧ src ≠ stationOf s.dev.ctl.nodeId
        then (s.dev.get Obj.eventsRaised + 1) % 2 ^ 64 else s.dev.get Obj.eventsRaised)) ∧
  (∀ (s : State) (src : Nat) (b : Bool) (frame : Bytes),
    (frameIs frame = .bad →
      ∃ t, exec (.fieldPduFrame src b frame) s = .next t ∧
        t.dev.get Obj.fieldFramesRx = (s.dev.get Obj.fieldFramesRx + 1) % 2 ^ 64 ∧
        t.dev.get Obj.fieldFramesBad = (s.dev.get Obj.fieldFramesBad + 1) % 2 ^ 64) ∧
    (∀ h value k, frameIs frame = .pdu h value → s.dev.keptFor src h = some k → s.dev.ctl.serving = true → b = false →
      ∃ t, exec (.fieldPduFrame src b frame) s = .next t ∧
        t.dev.get Obj.fieldDuplicates = (s.dev.get Obj.fieldDuplicates + 1) % 2 ^ 64 ∧
        t.dev.out.head? = (s.dev.sendFrame src 0 k.pdu).out.head? ∧ t.dev.ctl.kept = s.dev.ctl.kept) ∧
    (∀ h value, frameIs frame = .pdu h value → s.dev.keptFor src h = none → b = false →
      s.dev.reused (frameReq src h) = false →
      ∃ t, exec (.fieldPduFrame src b frame) s = .next t ∧
        t.dev = ((s.dev.servePosted s.dev.ctl.posted.length).bump Obj.fieldFramesRx).servePdu (frameReq src h) h value)) ∧
  (∀ (s u : State) (k : Nat) (rest : List Nat), s.dev.ctl.posted = k :: rest → exec .mailboxRequestService s = .next u →
    s.dev.servePosted s.dev.ctl.posted.length = u.dev.servePosted rest.length) ∧
  (∀ s : State, s.dev.ctl.serving = true →
    ∃ t, exec .heartbeat s = .next t ∧ t.dev.ctl.hbCount = (s.dev.ctl.hbCount + 1) % 2 ^ 32 ∧
      t.dev.out = (s.dev.sendFrame broadcast 1 s.dev.heartbeatBody).out) ∧
  (∀ s : State, s.dev.ctl.serving = false → exec .heartbeat s = .next s)

/-- The conductor token (R359). A port that writes its own number claims a free token; the holder that writes 0xFF releases
it and one that writes the other port's number hands it over; a port that writes its own number while the other holds it gets
BUSY, every other write ROLE; a holder whose link stays down loses it. Each change raises CONDUCTOR_CHANGED. STAGE_HOLD takes
the value written at once (R346). -/
def Obligations.TokenAndHoldFollowTheirWrites : Prop :=
  (∀ (s : State) (rq : Req) (p v : Nat), accepts s.dev rq Obj.conductorToken v = true → portOf rq = some p → p ≤ 1 →
    (v = 0 ∨ v = 1 ∨ v = 0xFF) →
    ∃ t, exec (.conductorToken rq v) s = .next t ∧
      (s.dev.get Obj.conductorToken = 0xFF → v = p →
        t.dev.get Obj.conductorToken = p ∧ AnsweredWrite t.dev rq Obj.conductorToken St.ok ∧
        t.dev.get Obj.eventsRaised = (s.dev.get Obj.eventsRaised + 1) % 2 ^ 64) ∧
      (s.dev.get Obj.conductorToken = 0xFF → v ≠ p →
        t.dev.get Obj.conductorToken = 0xFF ∧ AnsweredWrite t.dev rq Obj.conductorToken St.role) ∧
      (s.dev.get Obj.conductorToken = p → t.dev.get Obj.conductorToken = v ∧
        AnsweredWrite t.dev rq Obj.conductorToken St.ok ∧
        t.dev.get Obj.eventsRaised = (if v = p then s.dev.get Obj.eventsRaised
          else (s.dev.get Obj.eventsRaised + 1) % 2 ^ 64)) ∧
      (s.dev.get Obj.conductorToken ≠ 0xFF → s.dev.get Obj.conductorToken ≠ p →
        t.dev.get Obj.conductorToken = s.dev.get Obj.conductorToken ∧
        AnsweredWrite t.dev rq Obj.conductorToken (if v = p then St.busy else St.role))) ∧
  (∀ s : State, s.dev.get Obj.conductorToken ≠ 0xFF →
    (s.dev.port (s.dev.get Obj.conductorToken)).linkUp = false →
    ∃ t, exec .conductorLapse s = .next t ∧ t.dev.get Obj.conductorToken = 0xFF ∧
      t.dev.get Obj.eventsRaised = (s.dev.get Obj.eventsRaised + 1) % 2 ^ 64) ∧
  (∀ (s : State) (rq : Req) (v : Nat), accepts s.dev rq Obj.stageHold v = true →
    ∃ t, exec (.stageHold rq v) s = .next t ∧ t.dev.get Obj.stageHold = v ∧ AnsweredWrite t.dev rq Obj.stageHold St.ok ∧
      ValuesKept s.dev t.dev [Obj.stageHold] ∧ OnlyControl s.dev t.dev ∧ t.dev.ctl.staged = s.dev.ctl.staged)

/-! ### Runs, stages, streams and receipts (chapters 02, 07, 08, 18, 19) -/

/-- RUN_CONTROL by its command and RUN_STATE (R360). ARM in IDLE whose device is ready and whose tables, bindings and pins pass
the checks of R478 completes its first steps: an arming is in progress and RUN_STATE reads ARMING. In every case those steps end
so, or the arming is refused: RUN_STATE reads IDLE, ARM_STATUS and the final response carry
the refusal's status, and every stage and registration is as before. It is refused at once with NOT_READY on a device that is
not READY. START in ARMED answers OK, RUN_STATE reads RUNNING and, where nothing stops an admission, the first take is open.
STOP in ARMED or RUNNING is answered with PENDING, RUN_STATE STOPPING. In every other state a command changes nothing but its
answer. -/
def Obligations.RunControlFollowsR360 : Prop :=
  (∀ (s : State) (rq : Req), accepts s.dev rq Obj.runControl 1 = true →
    (s.dev.runState ≠ 0 → (s.dev.runState ≠ 1 ∨ s.dev.run.arm.isSome = true) →
      ∃ t, exec (.runControlArm rq) s = .next t ∧ AnsweredWrite t.dev rq Obj.runControl St.busy ∧
        OnlyControl s.dev t.dev ∧ t.dev.runState = s.dev.runState) ∧
    (s.dev.runState = 0 → s.dev.run.arm = none → s.dev.ctl.waiting.all (fun w => w.key != Obj.runControl) = true →
      s.dev.ctl.staged.all (fun p => p.1 != Obj.armStatus) = true →
      ∃ t, exec (.runControlArm rq) s = .next t ∧
        ((t.dev.run.arm.isSome = true ∧ t.dev.runState = 1) ∨
         (t.dev.run.arm = none ∧ t.dev.runState = 0 ∧ t.dev.get Obj.armStatus ≠ St.ok ∧
           AnsweredWrite t.dev rq Obj.runControl (t.dev.get Obj.armStatus) ∧
           t.dev.stages = s.dev.stages ∧ t.dev.bindings = s.dev.bindings ∧ t.dev.ms = s.dev.ms)) ∧
        (s.dev.get Obj.deviceState ≠ 3 → t.dev.run.arm = none ∧ t.dev.get Obj.armStatus = St.notReady)) ∧
    (∀ e : Device, e = s.dev.command rq Obj.runControl 1 runControlEffect → s.dev.runState = 0 → s.dev.run.arm = none →
      e.armReady = St.ok → e.checkTables = St.ok → e.bindRun.1 = St.ok → e.bindRun.2.copyTables.pinAll.1 = St.ok →
      ∃ t, exec (.runControlArm rq) s = .next t ∧ t.dev.runState = 1 ∧ t.dev.get Obj.peersLost = 0 ∧
        t.dev.get Obj.deferredHighWater = 0 ∧
        ∃ a, t.dev.run.arm = some a ∧ a.phase = .promoting ∧ a.answered = false ∧ a.restored = false ∧
          a.prior = armChanges.map (fun k => (k, e.get k)))) ∧
  (∀ (s : State) (rq : Req), accepts s.dev rq Obj.runControl 2 = true →
    ∃ t, exec (.runControlStart rq) s = .next t ∧
      (s.dev.runState = 0 → AnsweredWrite t.dev rq Obj.runControl St.notReady ∧ t.dev.runState = 0 ∧
        OnlyControl s.dev t.dev) ∧
      (s.dev.runState ≠ 0 → s.dev.runState ≠ 2 → AnsweredWrite t.dev rq Obj.runControl St.busy ∧
        t.dev.runState = s.dev.runState ∧ OnlyControl s.dev t.dev) ∧
      (s.dev.runState = 2 → s.dev.log.replay = [] → s.dev.ctl.staged.all (fun p => p.1 != Obj.runState) = true →
        AnsweredWrite t.dev rq Obj.runControl St.ok ∧
        (s.dev.run.skipDue = false → s.dev.pwr.hold = false → s.dev.run.partLost = false → s.dev.run.formed = none →
          t.dev.runState = 3 ∧
          (s.dev.run.take = none → s.dev.logBlocks = false → s.dev.svc.substs = [] → s.dev.svc.job = none →
            s.dev.get Obj.replayState ≠ 3 → s.dev.sec.signFailed = false → bits s.dev.startBits 0 16 = 0 →
            s.dev.ctl.staged.all (fun p => p.1 != Obj.fallbackDenied) = true →
            (t.dev.run.take.map (·.number)) = some ((s.dev.get Obj.takeNumber + 1) % 2 ^ 64))))) ∧
  (∀ (s : State) (rq : Req), accepts s.dev rq Obj.runControl 3 = true →
    ∃ t, exec (.runControlStop rq) s = .next t ∧
      (s.dev.runState = 0 → AnsweredWrite t.dev rq Obj.runControl St.ok ∧ t.dev.runState = 0 ∧ OnlyControl s.dev t.dev) ∧
      (s.dev.runState = 2 ∨ s.dev.runState = 3 →
        AnsweredWrite t.dev rq Obj.runControl St.pending ∧ t.dev.runState = 4 ∧
        OnlyControl (s.dev.onRun (fun r => { r with stopAtOnce := s.dev.runState == 2 })) t.dev) ∧
      (s.dev.runState = 1 ∨ s.dev.runState = 4 →
        AnsweredWrite t.dev rq Obj.runControl St.busy ∧ t.dev.runState = s.dev.runState ∧ OnlyControl s.dev t.dev))

/-- How an arming, a run and a take go on (R478, R361, R40, R42). Once the promotions have settled an arming asks its double for
the still it is to restore, or, with none to restore and no replay, it waits for its peers where a port is enabled or a double
has to answer, and is ARMED where none is; before, nothing happens; a pin above 255 undoes it with NO_SPACE (R250).
ARM_PEER_WAIT_MS leaves the run ARMED where every enabled port has an UP link and the double has answered, else IDLE with
NOT_READY. A take that nothing stops is admitted under the next number, and where no discard bit starts it, it is open with no
word latched. A stop whose work is done
records it; one whose record is written leaves RUN_STATE IDLE, no stage of the run listed and the final response OK.
The model's own readings in it: log entries 65, 66, 112. -/
def Obligations.RunsBeginAndEnd : Prop :=
  (∀ (s : State) (a : Arm), s.dev.run.arm = some a → s.dev.ctl.staged.all (fun p => p.1 != Obj.armStatus) = true →
    (a.phase ≠ .versions → a.phase ≠ .promoting ∨ s.dev.pinsSettled = false → exec .armPromotionsSettled s = .next s) ∧
    (a.phase = .promoting → s.dev.pinsSettled = true → a.late ≠ [] →
      ∃ t, exec .armPromotionsSettled s = .next t ∧ t.dev.run.arm = none ∧ t.dev.runState = 0 ∧
        t.dev.get Obj.armStatus = St.noSpace) ∧
    (a.phase = .promoting → s.dev.pinsSettled = true → a.late = [] → s.dev.get Obj.stillRestore ≠ 0 →
      ∀ r, s.dev.double = some r → r ≠ s.dev.get Obj.jobRank → r < s.dev.get Obj.jobSize →
      ∃ t, exec .armPromotionsSettled s = .next t ∧ t.dev.run.arm.map (·.phase) = some .restoring ∧
        t.dev.get Obj.stillState = 2) ∧
    (a.phase = .promoting → s.dev.pinsSettled = true → a.late = [] → s.dev.get Obj.stillRestore = 0 →
      s.dev.get Obj.replayUntil = 0 → (∀ r, s.dev.armDouble = some r → r ≠ s.dev.get Obj.jobRank ∧ r < s.dev.get Obj.jobSize) →
      (∀ e, e ∈ s.dev.run.layers → tgetD s.dev.versions (Le.layer e) [] = []) →
      (s.dev.enabledPorts ≠ [] ∨ (s.dev.armDouble.isSome = true ∧ a.answered = false) →
        ∃ t, exec .armPromotionsSettled s = .next t ∧ t.dev.run.arm.map (·.phase) = some .peers ∧
          t.dev.runState = s.dev.runState) ∧
      (s.dev.enabledPorts = [] → s.dev.armDouble = none →
        ∃ t, exec .armPromotionsSettled s = .next t ∧ t.dev.run.arm = none ∧ t.dev.runState = 2 ∧
          t.dev.get Obj.armStatus = St.ok)) ∧
    (a.phase = .versions ∨ (a.phase = .promoting ∧ s.dev.pinsSettled = true ∧ a.late = [] ∧ s.dev.get Obj.stillRestore = 0) →
      ∃ t, exec .armPromotionsSettled s = .next t ∧
        (t.dev.run.arm.map (·.phase) = some .peers ∨ t.dev.run.arm.map (·.phase) = some .versions ∨
         (t.dev.run.arm = none ∧ t.dev.runState = 2 ∧ t.dev.get Obj.armStatus = St.ok) ∨
         (t.dev.run.arm = none ∧ t.dev.runState = 0 ∧ t.dev.get Obj.armStatus = St.range)))) ∧
  (∀ (s : State) (a : Arm), s.dev.run.arm = some a →
    (a.phase = .promoting ∨ a.phase = .versions → exec .armPeerWaitExpiry s = .next s) ∧
    (a.phase = .restoring → s.dev.ctl.staged.all (fun p => p.1 != Obj.armStatus) = true →
      ∃ t, exec .armPeerWaitExpiry s = .next t ∧ t.dev.run.arm = none ∧ t.dev.runState = 0 ∧
        t.dev.get Obj.armStatus = St.notReady)) ∧
  (∀ (s : State) (a : Arm), s.dev.run.arm = some a → a.phase = .peers →
    s.dev.ctl.staged.all (fun p => p.1 != Obj.armStatus) = true → (∀ l, l < 96 → (s.dev.link l).mismatch = none) →
    (s.dev.enabledPorts.all (fun p => s.dev.upLinks p != []) = true → s.dev.armDouble.isNone = true ∨ a.answered = true →
      ∃ t, exec .armPeerWaitExpiry s = .next t ∧ t.dev.run.arm = none ∧ t.dev.runState = 2 ∧
        t.dev.get Obj.armStatus = St.ok ∧ t.dev.run.lastPrint = s.dev.run.fromTake) ∧
    (s.dev.enabledPorts.all (fun p => s.dev.upLinks p != []) = false ∨ (s.dev.armDouble.isNone = false ∧ a.answered = false) →
      ∃ t, exec .armPeerWaitExpiry s = .next t ∧ t.dev.run.arm = none ∧ t.dev.runState = 0 ∧
        t.dev.get Obj.armStatus = St.notReady)) ∧
  (∀ s : State,
    (s.dev.run.skipDue = false → s.dev.admissionBlocked = true → exec .takeAdmission s = .next s) ∧
    (s.dev.admissionBlocked = false → s.dev.log.replay = [] →
      ∃ t, exec .takeAdmission s = .next t ∧ t.dev.get Obj.takeNumber = (s.dev.get Obj.takeNumber + 1) % 2 ^ 64) ∧
    (s.dev.admissionBlocked = false → s.dev.log.replay = [] → bits s.dev.startBits 0 16 = 0 →
        s.dev.ctl.staged.all (fun p => p.1 != Obj.fallbackDenied) = true →
      ∃ t k, exec .takeAdmission s = .next t ∧ t.dev.run.take = some k ∧
        k.number = (s.dev.get Obj.takeNumber + 1) % 2 ^ 64 ∧ t.dev.get Obj.takeNumber = k.number ∧ k.latched = none ∧
        t.dev.run.nextBits = 0 ∧ t.dev.run.reports = [])) ∧
  (∀ s : State,
    (s.dev.runState ≠ 4 → exec .stopComplete s = .next s) ∧
    (s.dev.runState = 4 → s.dev.run.contexts = [] →
      (s.dev.run.stopLogged = false → s.dev.runDone = false → s.dev.run.stopAtOnce = false → exec .stopComplete s = .next s) ∧
      (s.dev.run.stopLogged = false → s.dev.runDone = true ∨ s.dev.run.stopAtOnce = true →
        ∃ t, exec .stopComplete s = .next t ∧ t.dev.run.stopLogged = true ∧ t.dev.runState = 4) ∧
      (s.dev.run.stopLogged = true → s.dev.logDue = true → exec .stopComplete s = .next s) ∧
      (s.dev.run.stopLogged = true → s.dev.logDue = false →
        ∃ t, exec .stopComplete s = .next t ∧ t.dev.runState = 0 ∧ t.dev.run.listed = [] ∧ t.dev.run.pinned = [] ∧
          t.dev.ctl.staged = [] ∧
          t.dev.ctl.waiting.all (fun w => w.final.isSome || !(w.key == Obj.runControl && w.arg == 3)) = true)) ∧
    (s.dev.runState = 4 → s.dev.run.stopLogged = false → s.dev.settleUpdates.runDone = true →
      ∃ t, exec .stopComplete s = .next t ∧ t.dev.run.stopLogged = true))

/-- Binding and unbinding of serving stages (R218 to R220). STAGE_BIND of a descriptor that passes its checks binds the stage to
the core its logical cluster is placed on, with its generators registered; one with a field out of range is refused with RANGE,
an unplaced or lost core, or one on whose path or engines a gate is held, with NOT_READY, a core with four stages with NO_SPACE, a second key with DUPLICATE_GENERATOR, a
full pin count with NO_SPACE, and a refusal binds nothing. STAGE_UNBIND of the highest replica of its layer, with no
sample in it and no open stream on its lane, leaves the handle unbound. -/
def Obligations.StagesBindAndUnbind : Prop :=
  (∀ (s : State) (rq : Req) (h : Nat) (e : DirEntry), accepts s.dev rq Obj.stageBind h = true → s.dev.entry h = some e →
    ∃ t, exec (.stageBind rq h) s = .next t ∧
      (s.dev.get Obj.deviceState ≠ 3 → AnsweredWrite t.dev rq Obj.stageBind St.notReady ∧ OnlyControl s.dev t.dev) ∧
      (s.dev.get Obj.deviceState = 3 → s.dev.get Obj.powerTransition = 0 → e.lost = true →
        AnsweredWrite t.dev rq Obj.stageBind St.objectLost ∧ OnlyControl s.dev t.dev) ∧
      (s.dev.get Obj.deviceState = 3 → s.dev.get Obj.powerTransition = 0 → e.lost = false →
        (tget s.dev.stages h).isSome = true →
        AnsweredWrite t.dev rq Obj.stageBind St.busy ∧ OnlyControl s.dev t.dev) ∧
      (∀ (x : Nat) (held : Bool), x = s.dev.descriptor h →
        held = s.dev.heldOn (stagePath (s.dev.stageCore x / 256) (s.dev.stageCore x / 8 % 32) (s.dev.stageCore x % 8) x) →
        s.dev.get Obj.deviceState = 3 → s.dev.get Obj.powerTransition = 0 → e.lost = false →
        tget s.dev.stages h = none →
        (Desc.serving x = false ∨ Desc.replica x ≠ (s.dev.servingOf (Desc.layer x)).length →
          AnsweredWrite t.dev rq Obj.stageBind St.range ∧ OnlyControl s.dev t.dev) ∧
        (Desc.serving x = true → Desc.replica x = (s.dev.servingOf (Desc.layer x)).length →
          (s.dev.laneOpen (Desc.lane x) = true →
            AnsweredWrite t.dev rq Obj.stageBind St.busy ∧ OnlyControl s.dev t.dev) ∧
          (s.dev.laneOpen (Desc.lane x) = false → s.dev.bindRange x (s.dev.stageCore x) = true →
            AnsweredWrite t.dev rq Obj.stageBind St.range ∧ OnlyControl s.dev t.dev) ∧
          (s.dev.laneOpen (Desc.lane x) = false → s.dev.bindRange x (s.dev.stageCore x) = false →
            (s.dev.unplaced (Desc.logical x) = true ∨ s.dev.lostUnit (10 + s.dev.stageCore x / 256) = true ∨
              held = true) →
            AnsweredWrite t.dev rq Obj.stageBind St.notReady ∧ OnlyControl s.dev t.dev) ∧
          (s.dev.laneOpen (Desc.lane x) = false → s.dev.bindRange x (s.dev.stageCore x) = false →
            s.dev.unplaced (Desc.logical x) = false → s.dev.lostUnit (10 + s.dev.stageCore x / 256) = false →
            held = false →
            (4 ≤ (s.dev.onCore (s.dev.stageCore x)).length →
              AnsweredWrite t.dev rq Obj.stageBind St.noSpace ∧ OnlyControl s.dev t.dev) ∧
            ((s.dev.onCore (s.dev.stageCore x)).length < 4 →
              (s.dev.registerAll (Desc.kind x) (Desc.layer x) (stageGenerators x)).1 ≠ St.ok →
              AnsweredWrite t.dev rq Obj.stageBind (s.dev.registerAll (Desc.kind x) (Desc.layer x) (stageGenerators x)).1 ∧
                OnlyControl s.dev t.dev) ∧
            ((s.dev.onCore (s.dev.stageCore x)).length < 4 →
              (s.dev.registerAll (Desc.kind x) (Desc.layer x) (stageGenerators x)).1 = St.ok →
              (s.dev.namedBy h x).all (fun o => ((s.dev.entry o).map (fun e => decide (e.pins < 255))).getD true) = false →
              AnsweredWrite t.dev rq Obj.stageBind St.noSpace ∧ OnlyControl s.dev t.dev) ∧
            ((s.dev.onCore (s.dev.stageCore x)).length < 4 →
              (s.dev.registerAll (Desc.kind x) (Desc.layer x) (stageGenerators x)).1 = St.ok →
              (s.dev.namedBy h x).all (fun o => ((s.dev.entry o).map (fun e => decide (e.pins < 255))).getD true) = true →
              s.dev.servingFallback x = (0, false) →
              AnsweredWrite t.dev rq Obj.stageBind St.ok ∧
              (∃ y, tget t.dev.stages h = some y ∧ y.desc = x ∧ y.core = s.dev.stageCore x ∧ y.todo = [] ∧
                y.pos = s.dev.freePosition (s.dev.stageCore x) ∧ y.fallback = fallsBack x ∧
                y.pinned = s.dev.namedBy h x) ∧
              t.dev.bindings = (s.dev.registerAll (Desc.kind x) (Desc.layer x) (stageGenerators x)).2.bindings ∧
              t.dev.ms.mem = s.dev.ms.mem))))) ∧
  (∀ (s : State) (rq : Req) (h : Nat), accepts s.dev rq Obj.stageUnbind h = true →
    ∃ t, exec (.stageUnbind rq h) s = .next t ∧
      (tget s.dev.stages h = none → AnsweredWrite t.dev rq Obj.stageUnbind St.range ∧ OnlyControl s.dev t.dev) ∧
      (∀ y, tget s.dev.stages h = some y → Desc.serving y.desc = true → s.dev.get Obj.powerTransition = 0 →
        (Desc.replica y.desc + 1 ≠ (s.dev.servingOf (Desc.layer y.desc)).length ∨ s.dev.stageBusy h y = true ∨
            s.dev.laneOpen (Desc.lane y.desc) = true →
          AnsweredWrite t.dev rq Obj.stageUnbind St.busy ∧ OnlyControl s.dev t.dev) ∧
        (Desc.replica y.desc + 1 = (s.dev.servingOf (Desc.layer y.desc)).length → s.dev.stageBusy h y = false →
            s.dev.laneOpen (Desc.lane y.desc) = false → s.dev.ms.wanting = [] →
          AnsweredWrite t.dev rq Obj.stageUnbind St.ok ∧ tget t.dev.stages h = none ∧ t.dev.ms.mem = s.dev.ms.mem)))

/-- Streams (R227, R228). STREAM_OPEN of a descriptor that breaks R226, names a lane without a stage or pins a version that is
not there is refused with RANGE,
one of a stream that is not closed with BUSY, one from a port whose grant does not hold it with ROLE; none of them opens
anything. On OK the stream is open with the versions it pins and its sequence number is 0. STREAM_CLOSE of a stream with samples in flight is answered
with PENDING and reads CLOSING; without any it is closed at once; the last sample of a closing stream closes it. STREAM_CLEAR
returns a HALTED stream to OPEN and refuses any other with RANGE. STREAM_GRANT
refuses an OPERATOR that does not hold the conductor token with ROLE, a range that names stream 0 or meets the
other port's with RANGE and one that leaves an open stream of its port out with BUSY, and else sets the grant.
The model's own readings in it: log entries 34, 64. -/
def Obligations.StreamsOpenAndClose : Prop :=
  (∀ (s : State) (rq : Req) (h n : Nat) (formed : List (Nat × Nat)) (e : DirEntry),
    accepts s.dev rq Obj.streamOpen h = true → s.dev.entry h = some e →
    e.lost = false → n = s.dev.readNat h 0 64 →
    ∃ t, exec (.streamOpen rq ⟨h, formed⟩) s = .next t ∧
      (s.dev.roleOf rq ≠ some 1 ∨ portOf rq = none ∨ s.dev.grantPort (bits n 32 15) ≠ portOf rq →
        AnsweredWrite t.dev rq Obj.streamOpen St.role ∧ OnlyControl s.dev t.dev) ∧
      (s.dev.roleOf rq = some 1 → portOf rq ≠ none → s.dev.grantPort (bits n 32 15) = portOf rq →
        (s.dev.get Obj.deviceState ≠ 3 ∨ s.dev.sec.signFailed = true ∨ s.dev.sec.debugOpen = true →
          AnsweredWrite t.dev rq Obj.streamOpen St.notReady ∧ OnlyControl s.dev t.dev) ∧
        (s.dev.get Obj.deviceState = 3 → s.dev.sec.signFailed = false → s.dev.sec.debugOpen = false →
            s.dev.get Obj.powerTransition = 0 →
          ((tget s.dev.streams (bits n 32 15)).isSome = true →
            AnsweredWrite t.dev rq Obj.streamOpen St.busy ∧ OnlyControl s.dev t.dev) ∧
          (tget s.dev.streams (bits n 32 15) = none →
            (streamDescWrong n = true ∨
                (bitsSet (bits n 64 64) 64).any (fun l => (s.dev.laneStages (2 ^ l)).isEmpty) = true →
              AnsweredWrite t.dev rq Obj.streamOpen St.range ∧ OnlyControl s.dev t.dev) ∧
            (streamDescWrong n = false →
                (bitsSet (bits n 64 64) 64).any (fun l => (s.dev.laneStages (2 ^ l)).isEmpty) = false → bit n 51 = true →
                (s.dev.laneLayers (bits n 64 64)).any (fun l =>
                  s.dev.weighted l && (s.dev.selectVersion l (bits n 192 64)).isNone) = true →
              AnsweredWrite t.dev rq Obj.streamOpen St.range ∧ OnlyControl s.dev t.dev) ∧
            (streamDescWrong n = false →
                (bitsSet (bits n 64 64) 64).any (fun l => (s.dev.laneStages (2 ^ l)).isEmpty) = false →
                (bit n 51 = true → (s.dev.laneLayers (bits n 64 64)).any (fun l =>
                  s.dev.weighted l && (s.dev.selectVersion l (bits n 192 64)).isNone) = false) →
                (s.dev.laneStages (bits n 64 64)).any (fun p => s.dev.rowsRefused p.2.desc) = false →
                s.dev.ringCheck (bits n 128 32) 1 = St.ok → s.dev.ringCheck (bits n 160 32) 2 = St.ok →
              (s.dev.names (s.dev.batchRing ((portOf rq).getD 0)) = false →
                AnsweredWrite t.dev rq Obj.streamOpen St.notReady ∧ OnlyControl s.dev t.dev) ∧
              (s.dev.names (s.dev.batchRing ((portOf rq).getD 0)) = true →
                AnsweredWrite t.dev rq Obj.streamOpen St.ok ∧
                (∃ x, tget t.dev.streams (bits n 32 15) = some x ∧ x.desc = n ∧ x.state = .opened ∧ x.nextSeq = 0 ∧
                  x.samples = [] ∧ x.stuck = keysDiffer x.keys formed ∧
                  x.pins = if bit n 51 then (s.dev.laneLayers (bits n 64 64)).filterMap (fun l =>
                    (s.dev.selectVersion l (bits n 192 64)).map (fun v => (l, v))) else []) ∧
                (bit n 51 = false → t.dev.ms = s.dev.ms))))))) ∧
  (∀ (s : State) (rq : Req) (n : Nat), accepts s.dev rq Obj.streamClose n = true →
    ∃ t, exec (.streamClose rq n) s = .next t ∧
      (tget s.dev.streams n = none → AnsweredWrite t.dev rq Obj.streamClose St.range ∧ OnlyControl s.dev t.dev) ∧
      (∀ x, tget s.dev.streams n = some x →
        (x.samples = [] → AnsweredWrite t.dev rq Obj.streamClose St.ok ∧ tget t.dev.streams n = none) ∧
        (x.samples ≠ [] → AnsweredWrite t.dev rq Obj.streamClose St.pending ∧
          tget t.dev.streams n = some { x with state := .closing } ∧ t.dev.ms = s.dev.ms))) ∧
  (∀ (s : State) (n : Nat) (x : Stream), tget s.dev.streams n = some x →
    (x.state = .closing → x.samples = [] →
      ∃ t, exec (.streamCloseComplete n) s = .next t ∧ tget t.dev.streams n = none ∧
        t.dev.ctl.waiting.all (fun w => w.final.isSome || !(w.key == Obj.streamClose && w.arg == n)) = true) ∧
    (x.state ≠ .closing ∨ x.samples ≠ [] → exec (.streamCloseComplete n) s = .next s)) ∧
  (∀ (s : State) (rq : Req) (n : Nat), accepts s.dev rq Obj.streamClear n = true →
    ∃ t, exec (.streamClear rq n) s = .next t ∧ t.dev.ms = s.dev.ms ∧
      (∀ x, tget s.dev.streams n = some x → x.state = .halted →
        AnsweredWrite t.dev rq Obj.streamClear St.ok ∧ tget t.dev.streams n = some { x with state := .opened }) ∧
      ((tget s.dev.streams n).map (·.state) ≠ some .halted →
        AnsweredWrite t.dev rq Obj.streamClear St.range ∧ t.dev.streams = s.dev.streams)) ∧
  (∀ (s : State) (rq : Req) (p v : Nat), p ≤ 1 → v < 2 ^ 32 → s.dev.ctl.serving = true → s.dev.reused rq = false →
    s.dev.roleOf rq = some 1 → portOf rq ≠ some (s.dev.get Obj.conductorToken) →
    ∃ t, exec (.streamGrant rq p v) s = .next t ∧ AnsweredWrite t.dev rq (Obj.streamGrant0 + p) St.role ∧
      OnlyControl s.dev t.dev ∧ ValuesKept s.dev t.dev []) ∧
  (∀ (s : State) (rq : Req) (p v : Nat), p ≤ 1 → accepts s.dev rq (Obj.streamGrant0 + p) v = true →
    ∃ t, exec (.streamGrant rq p v) s = .next t ∧ t.dev.streams = s.dev.streams ∧
      ((bits v 16 16 ≠ 0 ∧ bits v 0 16 = 0) ∨
          rangesMeet (grantRange v) (grantRange (s.dev.get (Obj.streamGrant0 + (1 - p)))) = true →
        AnsweredWrite t.dev rq (Obj.streamGrant0 + p) St.range ∧
        t.dev.get (Obj.streamGrant0 + p) = s.dev.get (Obj.streamGrant0 + p)) ∧
      (bits v 0 16 ≠ 0 → bits v 0 16 + bits v 16 16 ≤ 32768 →
          rangesMeet (grantRange v) (grantRange (s.dev.get (Obj.streamGrant0 + (1 - p)))) = false →
        (s.dev.streams.any (fun x => s.dev.grantPort x.1 == some p &&
            !(bits v 0 16 ≤ x.1 && x.1 < bits v 0 16 + bits v 16 16)) = true →
          AnsweredWrite t.dev rq (Obj.streamGrant0 + p) St.busy ∧
          t.dev.get (Obj.streamGrant0 + p) = s.dev.get (Obj.streamGrant0 + p)) ∧
        (s.dev.streams.any (fun x => s.dev.grantPort x.1 == some p &&
            !(bits v 0 16 ≤ x.1 && x.1 < bits v 0 16 + bits v 16 16)) = false →
          AnsweredWrite t.dev rq (Obj.streamGrant0 + p) St.ok ∧ t.dev.get (Obj.streamGrant0 + p) = v)))

/-- Versions a host publishes and samples that serve (R231, R229, R227, R389, R390). VERSION_PUBLISH of a layer of the armed
run is refused with BUSY and one of a layer with four versions with PINNED_VERSION; else it is answered with PENDING and its
object carries a pin, and once its digest is formed it is the layer's current version. The next entry of a stream is admitted
under its next sequence number with the current versions of its layers, or the pinned ones, and not where the stream is full
or its ring holds none; one that breaks R387, or that comes to a stream whose generators failed, is admitted and fails. A sample
that failed gives its output entry: PRODUCER advances, the sample leaves the stream, and no
object but the two rings changes; one with an output gives it with its receipt.
The model's own readings in it: log entry 64. -/
def Obligations.SamplesAreServedInSequence : Prop :=
  (∀ (s : State) (rq : Req) (v : Nat) (e : DirEntry), accepts s.dev rq Obj.versionPublish v = true →
    s.dev.entry (bits v 32 32) = some e → e.lost = false →
    ∃ t, exec (.versionPublish rq v) s = .next t ∧ t.dev.ms.mem = s.dev.ms.mem ∧
      (s.dev.runLayer (bits v 0 32) = true →
        AnsweredWrite t.dev rq Obj.versionPublish St.busy ∧ OnlyControl s.dev t.dev) ∧
      (s.dev.runLayer (bits v 0 32) = false →
        4 ≤ (tgetD s.dev.versions (bits v 0 32) []).length + (s.dev.publishing (bits v 0 32)).length →
        AnsweredWrite t.dev rq Obj.versionPublish St.pinnedVersion ∧ OnlyControl s.dev t.dev) ∧
      (s.dev.runLayer (bits v 0 32) = false →
        (tgetD s.dev.versions (bits v 0 32) []).length + (s.dev.publishing (bits v 0 32)).length < 4 → e.pins < 255 →
        e.move ≠ .demoting →
        AnsweredWrite t.dev rq Obj.versionPublish St.pending ∧
        t.dev.entry (bits v 32 32) = some { e with pins := e.pins + 1 } ∧
        t.dev.publications = s.dev.publications ++ [v])) ∧
  (∀ (s : State) (layer v : Nat) (vs : List Nat), s.dev.publishing layer = v :: vs →
    ∃ t x xs, exec (.versionDigestFormed layer) s = .next t ∧ tgetD t.dev.versions layer [] = x :: xs ∧
      x.take = bits v 64 64 ∧ x.objs.head? = some (bits v 32 32) ∧ x.host = true ∧
      t.dev.publications = s.dev.publications.erase v ∧
      (∀ w, s.dev.ctl.waiting = [w] → w.key = Obj.versionPublish → w.arg = v → w.final = none → s.dev.ctl.serving = true →
        t.dev.ctl.waiting = [])) ∧
  (∀ (s : State) (n : Nat) (x : Stream), tget s.dev.streams n = some x →
    (x.state ≠ .opened ∨ s.dev.admitsSamples = false ∨ x.maxInFlight ≤ (x.samples.filter (·.open)).length ∨
        s.dev.ringProducer x.inRing ≤ s.dev.ringConsumer x.inRing + x.samples.length →
      exec (.servingSampleAdmission n) s = .next s) ∧
    (x.state = .opened → s.dev.admitsSamples = true → (x.samples.filter (·.open)).length < x.maxInFlight →
        s.dev.ringConsumer x.inRing + x.samples.length < s.dev.ringProducer x.inRing →
      ∃ t y, exec (.servingSampleAdmission n) s = .next t ∧ tget t.dev.streams n = some y ∧ y.nextSeq = x.nextSeq + 1 ∧
        y.samples.map (·.seq) = x.samples.map (·.seq) ++ [x.nextSeq]) ∧
    (x.state = .opened → s.dev.admitsSamples = true → (x.samples.filter (·.open)).length < x.maxInFlight → x.stuck = false →
        s.dev.ringConsumer x.inRing + x.samples.length < s.dev.ringProducer x.inRing →
        (s.dev.laneStages x.laneMask).all (fun p => !Desc.laneFirst p.2.desc ||
          s.dev.entryOk p.2.desc (s.dev.ringEntry x.inRing (s.dev.ringConsumer x.inRing + x.samples.length))) = true →
      ∃ t y, exec (.servingSampleAdmission n) s = .next t ∧ tget t.dev.streams n = some y ∧ y.nextSeq = x.nextSeq + 1 ∧
        y.samples = x.samples ++ [{ seq := x.nextSeq
                                    entry := s.dev.ringEntry x.inRing (s.dev.ringConsumer x.inRing + x.samples.length)
                                    versions := if x.pinned then x.pins else
                                      (s.dev.laneLayers x.laneMask).filterMap (fun l =>
                                        ((tgetD s.dev.versions l []).head?).map (fun v => (l, v.take)))
                                    manifest := s.dev.manifest (if x.pinned then x.pins else
                                      (s.dev.laneLayers x.laneMask).filterMap (fun l =>
                                        ((tgetD s.dev.versions l []).head?).map (fun v => (l, v.take))))
                                    output := if s.dev.laneLayers x.laneMask = [] then some [] else none }] ∧
        t.dev.ms.mem = s.dev.ms.mem)) ∧
  (∀ (s : State) (n : Nat) (x : Stream) (y : Sample) (ys : List Sample) (e : Ending), n ≠ 0 →
    Memory.wf s.dev.ms.mem = true →
    tget s.dev.streams n = some x → x.samples = y :: ys → y.ending = some e → x.inRing ≠ x.outRing →
    s.dev.ringReady x.outRing = true → s.dev.ringReady x.inRing = true → s.dev.ringFull x.outRing = false →
    s.dev.ms.wanting = [] → s.dev.ringCheck x.outRing 2 = St.ok → s.dev.ringProducer x.outRing + 1 < 2 ^ 64 →
    ∃ t, exec (.outputEntryWrite n) s = .next t ∧ (tget t.dev.streams n).map (·.samples) = some ys ∧
      t.dev.ringProducer x.outRing = s.dev.ringProducer x.outRing + 1 ∧
      ∀ h off, h < 2 ^ 32 → off < 2 ^ 32 → h ≠ x.inRing → h ≠ x.outRing →
        memGet t.dev.ms.mem (addrOf h off) = memGet s.dev.ms.mem (addrOf h off)) ∧
  (∀ (s : State) (n : Nat) (x : Stream) (y : Sample) (ys : List Sample) (out : Bytes), n ≠ 0 →
    tget s.dev.streams n = some x → x.samples = y :: ys → y.ending = none → y.output = some out →
    s.dev.ringReady x.outRing = true → s.dev.ringReady x.inRing = true → s.dev.ringFull x.outRing = false →
    out.length ≤ s.dev.ringField x.outRing 64 32 → (s.dev.batchesOf ((s.dev.grantPort n).getD 0)).waiting = false →
    ∃ t, exec (.outputEntryWrite n) s = .next t ∧ (tget t.dev.streams n).map (·.samples) = some ys ∧
      t.dev.get Obj.receiptsIssued = (s.dev.get Obj.receiptsIssued + 1) % 2 ^ 64)

/-- Receipts in batches (R464 to R466). The interval closes an open batch of a port, with its number, its counters and the
root of its leaves, and leaves an empty one open; the root of five leaves is that of R465's worked example. The oldest closed
batch is signed and written, and the next one carries its root; with the BATCH ring full it waits. BATCH_RING names another
ring, with the pin, where no stream of the port is open, and is refused with BUSY where one is. -/
def Obligations.ReceiptsAreBatched : Prop :=
  (∀ (s : State) (p : Nat), p ≤ 1 →
    ∃ t, exec (.batchIntervalExpiry p) s = .next t ∧
      t.dev.batchesOf p = (let b := s.dev.batchesOf p
        if b.leaves = [] then b
        else { b with number := b.number + 1, leaves := [], first := 0, last := 0,
                      closed := b.closed ++ [⟨b.number, b.leaves.length, b.first, b.last, merkleRoot 13 b.leaves⟩] }) ∧
      t.dev.batchesOf (1 - p) = s.dev.batchesOf (1 - p) ∧ t.dev.ms = s.dev.ms) ∧
  (∀ l0 l1 l2 l3 l4 : Bytes, merkleRoot 13 [l0, l1, l2, l3, l4] =
    sha512 ([1] ++ sha512 ([1] ++ sha512 ([1] ++ l0 ++ l1) ++ sha512 ([1] ++ l2 ++ l3)) ++ l4)) ∧
  (∀ (s : State) (p : Nat) (c : ClosedBatch) (cs : List ClosedBatch) (key : Bytes), p ≤ 1 →
    (s.dev.batchesOf p).closed = c :: cs → s.dev.ringReady (s.dev.batchRing p) = true →
    s.dev.ringCheck (s.dev.batchRing p) 3 = St.ok →
    (s.dev.ringFull (s.dev.batchRing p) = true →
      ∃ t, exec (.batchEntryWrite p) s = .next t ∧ t.dev.batchesOf p = { s.dev.batchesOf p with waiting := true } ∧
        t.dev.ms = s.dev.ms) ∧
    (s.dev.ringFull (s.dev.batchRing p) = false → s.dev.sec.signFailed = false → s.dev.sec.identity = some key →
      edVerify s.dev.sec.publicKey (s.dev.batchBytes p c (s.dev.batchesOf p).prev)
        (edSign key (s.dev.batchBytes p c (s.dev.batchesOf p).prev)) = true →
      ∃ t, exec (.batchEntryWrite p) s = .next t ∧
        t.dev.batchesOf p = { s.dev.batchesOf p with closed := cs, prev := c.root, waiting := false } ∧
        t.dev.get Obj.batchesSigned = (s.dev.get Obj.batchesSigned + 1) % 2 ^ 64)) ∧
  (∀ (s : State) (rq : Req) (p h : Nat) (e : DirEntry), p ≤ 1 → accepts s.dev rq (Obj.batchRing0 + p) h = true →
    s.dev.entry h = some e →
    ∃ t, exec (.batchRing rq p h) s = .next t ∧
      (s.dev.ringCheck h 3 ≠ St.ok →
        AnsweredWrite t.dev rq (Obj.batchRing0 + p) (s.dev.ringCheck h 3) ∧ OnlyControl s.dev t.dev) ∧
      (s.dev.ringCheck h 3 = St.ok → h ≠ s.dev.batchRing p →
        (s.dev.streams.any (fun x => s.dev.grantPort x.1 == some p) = true →
          AnsweredWrite t.dev rq (Obj.batchRing0 + p) St.busy ∧ OnlyControl s.dev t.dev) ∧
        (s.dev.streams.any (fun x => s.dev.grantPort x.1 == some p) = false → e.pins < 255 → e.move ≠ .demoting →
            s.dev.ms.wanting = [] → s.dev.names (s.dev.batchRing p) = false →
          AnsweredWrite t.dev rq (Obj.batchRing0 + p) St.ok ∧ t.dev.batchRing p = h ∧
          t.dev.entry h = some { e with pins := e.pins + 1 } ∧ t.dev.ms.mem = s.dev.ms.mem)))

/-! ### Objects, tiers and residency (chapter 09) -/

/-- OBJECT_CREATE (R248, R249), in the order of its refusals: another role than OPERATOR gets ROLE, a request out of range RANGE, a device that is not
READY NOT_READY, a power transition BUSY, an index named or being created BUSY. An ABSENT object exists at once with all
its bytes zero; one in the slow tier likewise where its Lapidary is in service and can take it, else NOT_READY or NO_SPACE; one
in the fast tier at once where a run of SIZE units is free, NO_SPACE where no die has room even by eviction, and PENDING where
room must be made first.
The model's own readings in it: log entry 6. -/
def Obligations.ObjectCreateMakesAZeroObject : Prop :=
  ∀ (s : State) (rq : Req) (v : Nat), accepts s.dev rq Obj.objectCreate v = true →
    ∃ t, exec (.objectCreate rq v) s = .next t ∧
      (s.dev.roleOf rq ≠ some 1 →
        AnsweredWrite t.dev rq Obj.objectCreate St.role ∧ t.dev.ms = s.dev.ms) ∧
      (s.dev.roleOf rq = some 1 → createRange v = true →
        AnsweredWrite t.dev rq Obj.objectCreate St.range ∧ t.dev.ms = s.dev.ms) ∧
      (s.dev.roleOf rq = some 1 → createRange v = false → s.dev.get Obj.deviceState ≠ 3 →
        AnsweredWrite t.dev rq Obj.objectCreate St.notReady ∧ t.dev.ms = s.dev.ms) ∧
      (s.dev.roleOf rq = some 1 → createRange v = false → s.dev.get Obj.deviceState = 3 → s.dev.get Obj.powerTransition ≠ 0 →
        AnsweredWrite t.dev rq Obj.objectCreate St.busy ∧ t.dev.ms = s.dev.ms) ∧
      (s.dev.roleOf rq = some 1 → s.dev.get Obj.deviceState = 3 → s.dev.get Obj.powerTransition = 0 →
        (createRange v = false → s.dev.names (bits v 0 18) = true ∨ (tget s.dev.ms.creating (bits v 0 18)).isSome = true →
          AnsweredWrite t.dev rq Obj.objectCreate St.busy ∧ t.dev.ms = s.dev.ms) ∧
        (createRange v = false → s.dev.names (bits v 0 18) = false → tget s.dev.ms.creating (bits v 0 18) = none →
          ((createEntry v).tier = 1 →
            AnsweredWrite t.dev rq Obj.objectCreate St.ok ∧ t.dev.entry (bits v 0 18) = some (createEntry v) ∧
            ∀ off, off < 2 ^ 32 → memGet t.dev.ms.mem (addrOf (bits v 0 18) off) = 0) ∧
          ((createEntry v).tier = 2 → s.dev.roomFast (createEntry v).size = false →
            AnsweredWrite t.dev rq Obj.objectCreate St.noSpace ∧ t.dev.ms = s.dev.ms) ∧
          ((createEntry v).tier = 2 → s.dev.roomFast (createEntry v).size = true →
            (s.dev.place (createEntry v).size (s.dev.dieOrder (createEntry v).hintDie none)).isSome = true →
            AnsweredWrite t.dev rq Obj.objectCreate St.ok ∧
            (∃ loc, t.dev.entry (bits v 0 18) = some { createEntry v with location := loc }) ∧
            ∀ off, off < 2 ^ 32 → memGet t.dev.ms.mem (addrOf (bits v 0 18) off) = 0) ∧
          ((createEntry v).tier = 2 → s.dev.roomFast (createEntry v).size = true →
            s.dev.place (createEntry v).size (s.dev.dieOrder (createEntry v).hintDie none) = none →
            AnsweredWrite t.dev rq Obj.objectCreate St.pending ∧ t.dev.entry (bits v 0 18) = none) ∧
          (3 ≤ (createEntry v).tier → s.dev.lostUnit ((createEntry v).tier - 3) = true →
            AnsweredWrite t.dev rq Obj.objectCreate St.notReady ∧ t.dev.ms = s.dev.ms) ∧
          (3 ≤ (createEntry v).tier → s.dev.lostUnit ((createEntry v).tier - 3) = false →
            s.dev.slowTakes ((createEntry v).tier - 3) (mapSectors (createEntry v).size +
              (if (createEntry v).compressed then (createEntry v).size else 128 * (createEntry v).size)) = false →
            AnsweredWrite t.dev rq Obj.objectCreate St.noSpace ∧ t.dev.ms = s.dev.ms) ∧
          (3 ≤ (createEntry v).tier → s.dev.lostUnit ((createEntry v).tier - 3) = false →
            s.dev.slowTakes ((createEntry v).tier - 3) (mapSectors (createEntry v).size +
              (if (createEntry v).compressed then (createEntry v).size else 128 * (createEntry v).size)) = true →
            AnsweredWrite t.dev rq Obj.objectCreate St.ok ∧
            (∃ e, t.dev.entry (bits v 0 18) = some e ∧ e.tier = (createEntry v).tier ∧ e.size = (createEntry v).size ∧
              e.kind = (createEntry v).kind ∧ e.move = .settled) ∧
            ∀ off, off < 2 ^ 32 → memGet t.dev.ms.mem (addrOf (bits v 0 18) off) = 0)))

/-- A pending create that finds its run is placed there and is no longer pending (R249). OBJECT_DELETE of an object without a
pin, a move, a waiter or a descriptor leaves its index naming no object; one with any of them is refused with BUSY, an
index that names none with RANGE, and nothing of the memory changes. OBJECT_PIN adds one to an object's pins and to the
requester's count, and turns a demotion of the object back (R262); at 255 it is refused with NO_SPACE, and for a handle that names no object with RANGE. OBJECT_UNPIN takes one
of the requester's own pins away; without one it is refused with RANGE (R250). -/
def Obligations.ObjectsArePlacedPinnedAndDeleted : Prop :=
  ((∀ (s : State) (h : Nat) (e : DirEntry), h < 2 ^ 18 → tget s.dev.ms.creating h = some e →
    (s.dev.place e.size (s.dev.dieOrder e.hintDie none)).isSome = true →
    ∃ t, exec (.objectCreatePlaced h) s = .next t ∧ tget t.dev.ms.creating h = none ∧
      (∃ loc, t.dev.entry h = some { e with location := loc }) ∧
      ∀ off, off < 2 ^ 32 → memGet t.dev.ms.mem (addrOf h off) = 0) ∧
  (∀ (s : State) (rq : Req) (h : Nat), accepts s.dev rq Obj.objectDelete h = true → s.dev.roleOf rq = some 1 →
    ∃ t, exec (.objectDelete rq h) s = .next t ∧
      (s.dev.entry h = none → AnsweredWrite t.dev rq Obj.objectDelete St.range ∧ t.dev.ms = s.dev.ms) ∧
      (∀ e, s.dev.entry h = some e →
        (0 < e.pins ∨ e.move ≠ .settled ∨ s.dev.waitedOn h = true ∨ s.dev.dmaCarries h = true →
          AnsweredWrite t.dev rq Obj.objectDelete St.busy ∧ t.dev.ms = s.dev.ms) ∧
        (e.pins = 0 → e.move = .settled → s.dev.waitedOn h = false → s.dev.dmaCarries h = false →
          AnsweredWrite t.dev rq Obj.objectDelete St.ok ∧ t.dev.entry h = none)))) ∧
  (∀ (s : State) (rq : Req) (h : Nat),
    (accepts s.dev rq Obj.objectPin h = true →
      ∃ t, exec (.objectPin rq h) s = .next t ∧
        (s.dev.entry h = none → AnsweredWrite t.dev rq Obj.objectPin St.range ∧ t.dev.ms = s.dev.ms) ∧
        (∀ e, s.dev.entry h = some e → 255 ≤ e.pins →
          AnsweredWrite t.dev rq Obj.objectPin St.noSpace ∧ t.dev.ms = s.dev.ms) ∧
        (∀ e, s.dev.entry h = some e → e.pins < 255 → e.move ≠ .demoting →
          AnsweredWrite t.dev rq Obj.objectPin St.ok ∧ t.dev.entry h = some { e with pins := e.pins + 1 } ∧
          tgetD t.dev.ms.portPins (pinKey (pinPort rq) h) 0 = tgetD s.dev.ms.portPins (pinKey (pinPort rq) h) 0 + 1 ∧
          ∀ a, memGet t.dev.ms.mem a = memGet s.dev.ms.mem a) ∧
        (∀ e, s.dev.entry h = some e → e.pins < 255 → e.move = .demoting → s.dev.ms.wanting = [] →
          AnsweredWrite t.dev rq Obj.objectPin St.ok ∧
          (t.dev.entry h).map (fun y => (y.pins, y.move, y.moveTier, y.target)) = some (e.pins + 1, .promoting, 2, e.location) ∧
          t.dev.get Obj.evictionsRedirected = (s.dev.get Obj.evictionsRedirected + 1) % 2 ^ 64)) ∧
    (accepts s.dev rq Obj.objectUnpin h = true →
      ∃ t, exec (.objectUnpin rq h) s = .next t ∧
        (tgetD s.dev.ms.portPins (pinKey (pinPort rq) h) 0 = 0 →
          AnsweredWrite t.dev rq Obj.objectUnpin St.range ∧ t.dev.ms = s.dev.ms) ∧
        (∀ e, tgetD s.dev.ms.portPins (pinKey (pinPort rq) h) 0 ≠ 0 → s.dev.entry h = some e → s.dev.ms.wanting = [] →
          AnsweredWrite t.dev rq Obj.objectUnpin St.ok ∧ t.dev.entry h = some { e with pins := e.pins - 1 } ∧
          tgetD t.dev.ms.portPins (pinKey (pinPort rq) h) 0 = tgetD s.dev.ms.portPins (pinKey (pinPort rq) h) 0 - 1 ∧
          ∀ a, memGet t.dev.ms.mem a = memGet s.dev.ms.mem a)))

/-- OBJECT_MOVE begins a move, and MOVE_SETTLE ends one (R259, R277). A move of a settled, whole, unpinned object to the slow
tier that the Lapidary can take begins as DEMOTING from FAST and as CROSSING from the other Lapidary, its target the tier asked
for, its home unchanged; one to where the object is changes nothing. The settling of a move gives the object its target's
tier and location, lets every block still to be carried land, and counts a promotion or a demotion. An uncorrectable unit
found in the move stops it with the object where it was (R262, R265).
The model's own readings in it: log entries 6, 111. -/
def Obligations.MovesBeginAndSettle : Prop :=
  (∀ (s : State) (rq : Req) (v : Nat) (e : DirEntry), accepts s.dev rq Obj.objectMove v = true →
    s.dev.entry (bits v 0 32) = some e → bits v 38 26 = 0 → 2 ≤ bits v 32 3 → bits v 32 3 ≤ 4 →
    tierAllowed e.kind (bits v 32 3) = true → s.dev.roleOf rq = some 1 → s.dev.get Obj.powerTransition = 0 → e.tier ≠ 1 →
    e.lost = false → e.move = .settled → e.poisoned = false → e.pins = 0 →
    (moveIsHome e v = true →
      ∃ t, exec (.objectMove rq v) s = .next t ∧ AnsweredWrite t.dev rq Obj.objectMove St.ok ∧ t.dev.ms = s.dev.ms) ∧
    (moveIsHome e v = false → 3 ≤ bits v 32 3 → s.dev.slowTakes (bits v 32 3 - 3) (s.dev.storedSectors (bits v 0 32) e) = true →
      ∃ t e', exec (.objectMove rq v) s = .next t ∧ AnsweredWrite t.dev rq Obj.objectMove St.ok ∧
        t.dev.entry (bits v 0 32) = some e' ∧ e'.move = (if e.tier = 2 then .demoting else .crossing) ∧
        e'.moveTier = bits v 32 3 ∧ e'.tier = e.tier ∧ e'.location = e.location ∧ e'.moveDone = 0 ∧
        t.dev.ms.mem = s.dev.ms.mem) ∧
    (moveIsHome e v = false → bits v 32 3 = 2 → s.dev.roomFast e.size = true →
      ∃ t, exec (.objectMove rq v) s = .next t ∧ AnsweredWrite t.dev rq Obj.objectMove St.ok) ∧
    (moveIsHome e v = false → bits v 32 3 = 2 → s.dev.roomFast e.size = false →
      ∃ t, exec (.objectMove rq v) s = .next t ∧ AnsweredWrite t.dev rq Obj.objectMove St.noSpace ∧ t.dev.ms = s.dev.ms)) ∧
  (∀ (s : State) (h : Nat) (e : DirEntry), s.dev.entry h = some e → s.dev.ms.wanting = [] →
    (s.dev.ms.waiters.any (fun w => w.1 == h)) = false →
    (e.move = .promoting → e.tier ≠ 2 →
      ∃ t, exec (.moveSettle ⟨h, []⟩) s = .next t ∧
        t.dev.entry h = some { e with tier := e.moveTier, location := e.target, target := 0, moveDone := 0, move := .settled,
                                      moveTier := 0, sectors := 0, degraded := false, back := 0, backTier := 0 } ∧
        t.dev.get Obj.bytesMoved = (s.dev.get Obj.bytesMoved + (e.size - e.moveDone) * blockBytes) % 2 ^ 64 ∧
        t.dev.get Obj.promotions = (s.dev.get Obj.promotions + 1) % 2 ^ 64 ∧ t.dev.ms.mem = s.dev.ms.mem) ∧
    (e.move = .demoting →
      ∃ t e', exec (.moveSettle ⟨h, []⟩) s = .next t ∧ t.dev.entry h = some e' ∧ e'.tier = e.moveTier ∧ e'.location = e.target ∧
        e'.move = .settled ∧ e'.sectors = s.dev.storedSectors h e ∧
        t.dev.get Obj.demotions = (s.dev.get Obj.demotions + 1) % 2 ^ 64 ∧ t.dev.ms.mem = s.dev.ms.mem) ∧
    (e.move = .crossing →
      ∃ t e', exec (.moveSettle ⟨h, []⟩) s = .next t ∧ t.dev.entry h = some e' ∧ e'.tier = e.moveTier ∧ e'.location = e.target ∧
        e'.move = .settled ∧ t.dev.ms.mem = s.dev.ms.mem) ∧
    (e.move.carries = true → e.poisoned = false → e.kind = 0 →
      ∃ t e', exec (.moveSettle ⟨h, [.fastUnit h]⟩) s = .next t ∧ t.dev.entry h = some e' ∧ e'.tier = e.tier ∧
        e'.location = e.location ∧ e'.move = .settled ∧ e'.poisoned = true) ∧
    (e.move = .settled → exec (.moveSettle ⟨h, []⟩) s = .next s))

/-- The accesses of engines (R263, R266). A miss on a whole, settled FAST object is served: its handle enters the cluster's
cache and a core DMA transfer of the stage begins; an access that R263 forbids counts a PROTECTION fault and moves no bytes. A
granule of a transfer under way advances its count by one, and the last ends it.
The model's own readings in it: log entry 69. -/
def Obligations.EngineAccessesAreServedOrFault : Prop :=
  (∀ (s : State) (stage h off : Nat) (x : Stage) (e : DirEntry) (n : Nat), tget s.dev.stages stage = some x →
    s.dev.entry h = some e → e.forbids off false true = false → e.ready = true → e.lost = false → x.transfers = [] → n = 0 →
    ∃ t y, exec (.translationMiss stage h off false) s = .next t ∧
      (tgetD t.dev.ms.tcache (clusterKey x.core) []).head? = some h ∧
      tget t.dev.stages stage = some y ∧ (tget y.transfers 0).map (fun z => (z.handle, z.offset, z.done)) = some (h, off, 0) ∧
      t.dev.ms.mem = s.dev.ms.mem) ∧
  (∀ (s : State) (h off : Nat) (w : Bool) (e : DirEntry), tget s.dev.stages noStage = none → s.dev.entry h = some e →
    e.forbids off w false = true →
    ∃ t, exec (.translationMiss noStage h off w) s = .next t ∧
      t.dev.get Obj.faultsProtection = (s.dev.get Obj.faultsProtection + 1) % 2 ^ 64 ∧ t.dev.ms.mem = s.dev.ms.mem) ∧
  (∀ (s : State) (stage n : Nat) (x : Stage) (z : Transfer4), tget s.dev.stages stage = some x →
    tget x.transfers n = some z → x.stalled = false → s.dev.ready z.handle = true →
    ∃ t y, exec (.coreDmaGranule stage n) s = .next t ∧ tget t.dev.stages stage = some y ∧
      (ceilDiv z.length 4096 ≤ z.done + 1 → tget y.transfers n = none) ∧
      (z.done + 1 < ceilDiv z.length 4096 → tget y.transfers n = some { z with done := z.done + 1 }) ∧
      t.dev.ms = s.dev.ms)

/-- What a waiting access comes to (R268 to R270). A waiter whose hold limit passes on a poisoned or ABSENT object waits no
longer, and the object is LOST. A serving stage's weights that miss their deadline count once a sample, with the stall. The
rebuild of a poisoned working copy leaves it whole, one VERSION later; from poisoned masters it makes nothing, and the Lapidary
waits on them.
The model's own readings in it: log entries 69, 81. -/
def Obligations.WaitingAccessesEnd : Prop :=
  (∀ (s : State) (h w : Nat) (e : DirEntry), s.dev.ms.waiters.contains (h, .stage w) = true → s.dev.entry h = some e →
    (e.poisoned = true ∨ e.tier = 1) → w < 1048576 →
    ∃ t, exec (.holdLimitExpiry h w) s = .next t ∧ t.dev.ms.waiters.contains (h, .stage w) = false ∧
      (t.dev.entry h).map (·.lost) = some true ∧
      (s.dev.ms.wanting = [] → ∀ k off, k < 2 ^ 32 → off < 2 ^ 32 →
        memGet t.dev.ms.mem (addrOf k off) = memGet s.dev.ms.mem (addrOf k off))) ∧
  (∀ (s : State) (stage us : Nat) (x : Stage) (sample : Nat × Nat), tget s.dev.stages stage = some x →
    x.awaited = some sample → Desc.serving x.desc = true → Desc.weightDeadline x.desc ≠ 0 →
    (s.dev.lateOf (Desc.layer x.desc)).contains sample = false → s.dev.canRead x.weights = false →
    ∃ t y, exec (.weightDeadlineMiss stage us) s = .next t ∧
      t.dev.get Obj.weightLate = (s.dev.get Obj.weightLate + 1) % 2 ^ 64 ∧
      t.dev.get Obj.weightStallUs = (s.dev.get Obj.weightStallUs + us) % 2 ^ 64 ∧
      tget t.dev.stages stage = some y ∧ y.late.contains sample = true ∧ t.dev.ms = s.dev.ms) ∧
  (∀ (s : State) (h : Nat) (e : DirEntry), s.dev.entry h = some e → e.move = .rebuilding →
    ((s.dev.ms.waiters.any (fun w => w.1 == h)) = false → (∀ l, s.dev.copyLayer h = some l → s.dev.layerMarked l = none) →
      ∃ t, exec (.workingCopyRebuild h) s = .next t ∧
        t.dev.entry h = some { e with move := .settled, moveDone := 0, poisoned := false, lost := false,
                                      version := (e.version + 1) % 2 ^ 32 } ∧ t.dev.ms.mem = s.dev.ms.mem) ∧
    (∀ l m, s.dev.copyLayer h = some l → s.dev.layerMarked l = some m →
      ∃ t, exec (.workingCopyRebuild h) s = .next t ∧ t.dev.ms.dir = s.dev.ms.dir ∧ t.dev.ms.mem = s.dev.ms.mem ∧
        (((s.dev.entry m).map (·.lost)).getD false = false →
          t.dev.ms.waiters.contains (m, .lapidary (Le.lapidary l)) = true)))

/-- Parts and passes of the memory (R247, R254, R273, R335). A channel that answers is in service; one that fails two reads in
a row, or passes its limit of uncorrectable units, leaves CHANNEL_MAP, and a stack that fails two checks in a row is lost; a
first failure changes neither. A scrub pass counts, stores its seconds and returns the locations that waited for it; the bad
unit of an object it finds poisons it, what it corrects counts, and a parity unit of a whole line is rebuilt; one that
is overdue is reported with its number. The residency epoch advances by one.
The model's own readings in it: log entry 70. -/
def Obligations.MemoryPartsAreWatched : Prop :=
  (∀ (s : State) (ch : Nat), ch < 24 →
    (∃ t, exec (.channelLivenessRead ch true) s = .next t ∧ t.dev.ms.missed.contains ch = false ∧
      t.dev.get Obj.channelMap = s.dev.get Obj.channelMap) ∧
    (s.dev.ms.missed.contains ch = false →
      ∃ t, exec (.channelLivenessRead ch false) s = .next t ∧ t.dev.ms.missed = ch :: s.dev.ms.missed ∧
        t.dev.get Obj.channelMap = s.dev.get Obj.channelMap) ∧
    (s.dev.ms.missed.contains ch = true → bit (s.dev.get Obj.channelMap) ch = true →
      ∃ t, exec (.channelLivenessRead ch false) s = .next t ∧ bit (t.dev.get Obj.channelMap) ch = false) ∧
    (bit (s.dev.get Obj.channelMap) ch = true →
      ∃ t, exec (.channelUeLimit ch) s = .next t ∧ bit (t.dev.get Obj.channelMap) ch = false)) ∧
  (∀ (s : State) (stack : Nat), stack < 8 →
    (∃ t, exec (.hbmPatternCheck stack true) s = .next t ∧ t.dev.get Obj.lostUnits = s.dev.get Obj.lostUnits ∧
      t.dev.ms.missed.contains (24 + stack) = false) ∧
    (s.dev.ms.missed.contains (24 + stack) = true → s.dev.lostUnit (2 + stack) = false →
      ∃ t, exec (.hbmPatternCheck stack false) s = .next t ∧ t.dev.lostUnit (2 + stack) = true)) ∧
  (∀ (s : State) (seconds : Nat),
    (s.dev.ms.wanting = [] →
      ∃ t, exec (.scrubPass seconds []) s = .next t ∧
        t.dev.get Obj.scrubPasses = (s.dev.get Obj.scrubPasses + 1) % 2 ^ 64 ∧
        t.dev.get Obj.scrubLastPassS = seconds % 2 ^ 32 ∧ t.dev.ms.quarantine = [] ∧ t.dev.ms.mem = s.dev.ms.mem) ∧
    (∀ (h : Nat) (e : DirEntry), s.dev.entry h = some e → e.poisoned = false → e.kind ≠ 6 → e.move ≠ .resupply →
      ∃ t, exec (.scrubPass seconds [.fastUnit h]) s = .next t ∧ (t.dev.entry h).map (·.poisoned) = some true ∧
        t.dev.get Obj.objectsPoisoned = (s.dev.get Obj.objectsPoisoned + 1) % 2 ^ 64) ∧
    (∀ n, ∃ t, exec (.scrubPass seconds [.correctedSlow n]) s = .next t ∧
      t.dev.get Obj.correctedSlow = (s.dev.get Obj.correctedSlow + n) % 2 ^ 64) ∧
    (∀ lap line, s.dev.seamDegraded lap = false →
      ∃ t, exec (.scrubPass seconds [.parityUnit lap line]) s = .next t ∧
        t.dev.get Obj.seamRebuilds = (s.dev.get Obj.seamRebuilds + 1) % 2 ^ 64) ∧
    (∃ t, exec (.scrubOverdue seconds) s = .next t ∧ OnlyControl s.dev t.dev ∧
      t.dev.get Obj.eventsRaised = (s.dev.get Obj.eventsRaised + 1) % 2 ^ 64) ∧
    (∃ t, exec .residencyEpochTick s = .next t ∧
      t.dev = { s.dev with ms := { s.dev.ms with epoch := (s.dev.ms.epoch + 1) % 2 ^ 32 } }))

/-! ### Links, messages and collectives (chapter 11) -/

/-- The states of a link (R279, R280, R288, R290). LINK_RETRAIN is refused with BUSY for a link that is UP, SPARE, TRAINING or
RETRAINING and starts any other at step 1, with nothing sent or granted, once the link reference is qualified and the serial rails
are in range. A link that reaches step 4 is TRAINED; one that does
not in time is DOWN, or, if it was in service, RETIRED. The retry limit sends an UP link back to train and counts it. Codewords
past the limit retire it, and the lowest SPARE link of its port takes its place. A matching IDENTITY makes a trained link UP or
SPARE; while arming, any other is kept for the end of the wait; one from a lost peer is dropped and counted (R285).
The model's own readings in it: log entry 45. -/
def Obligations.LinksTrainServeAndRetire : Prop :=
  (∀ (s : State) (rq : Req) (l : Nat), accepts s.dev rq Obj.linkRetrain l = true → l < 96 →
    ∃ t, exec (.linkRetrain rq l) s = .next t ∧
      ((s.dev.link l).state ∈ [LinkState.up, .spare, .training, .retraining] →
        AnsweredWrite t.dev rq Obj.linkRetrain St.busy ∧ OnlyControl s.dev t.dev) ∧
      ((s.dev.link l).state ∉ [LinkState.up, .spare, .training, .retraining] →
        AnsweredWrite t.dev rq Obj.linkRetrain St.ok ∧ (∀ k, k ≠ l → t.dev.link k = s.dev.link k) ∧
        (s.dev.serialReady = true → (t.dev.link l).state = .training ∧ (t.dev.link l).queue = [] ∧
          (t.dev.link l).buffer = [] ∧ (t.dev.link l).nextSeq = 0 ∧ (t.dev.link l).expected = 0 ∧
          (t.dev.link l).granted = []) ∧
        (s.dev.serialReady = false → t.dev.link l = s.dev.link l ∧ l ∈ t.dev.net.trainDue))) ∧
  (∀ (s : State) (l : Nat),
    ((s.dev.link l).state ∉ [LinkState.training, .retraining] →
      exec (.linkTrained l) s = .next s ∧ exec (.linkTrainTimeout l) s = .next s) ∧
    ((s.dev.link l).state ∈ [LinkState.training, .retraining] →
      ∃ t, exec (.linkTrained l) s = .next t ∧ (t.dev.link l).state = .trained ∧
        (s.dev.exchanging = false → t.dev = s.dev.onLink l (fun x => { x with state := .trained }))) ∧
    ((s.dev.link l).state = .training →
      ∃ t, exec (.linkTrainTimeout l) s = .next t ∧ t.dev = s.dev.onLink l (fun x => { x with state := .down })) ∧
    ((s.dev.link l).state = .retraining →
      ∃ t, exec (.linkTrainTimeout l) s = .next t ∧ (t.dev.link l).state = .retired ∧ t.dev.ms = s.dev.ms) ∧
    ((s.dev.link l).state = .up → s.dev.get Obj.retryLimit ≤ (s.dev.link l).replays →
      ∃ t, exec (.retryLimitReached l) s = .next t ∧ (t.dev.link l).state = .retraining ∧ (t.dev.link l).service = true ∧
        (t.dev.link l).buffer = [] ∧ (t.dev.link l).retrains = min ((s.dev.link l).retrains + 1) 0xFFFFFFFF) ∧
    ((s.dev.link l).state ≠ .up ∨ (s.dev.link l).replays < s.dev.get Obj.retryLimit →
      exec (.retryLimitReached l) s = .next s) ∧
    ((s.dev.link l).state = .up →
      ∃ t, exec (.linkUcwLimit l) s = .next t ∧ (t.dev.link l).state = .retired ∧
        ∀ p k, s.dev.portOfLink l = some p →
          (maskLinks p (portMembers (s.dev.portConfig p) ||| portSpares (s.dev.portConfig p))).find?
            (fun k => k != l && (s.dev.link k).state == .spare) = some k → (t.dev.link k).state = .up)) ∧
  (∀ (s : State) (l rank port seed : Nat), s.dev.isLost rank = true →
    ∃ t, exec (.identity l rank port seed) s = .next t ∧ t.dev.net = (s.dev.hear rank).net ∧
      t.dev.get Obj.msgStaleDrops = (s.dev.get Obj.msgStaleDrops + 1) % 2 ^ 64) ∧
  (∀ (s : State) (l p rank port seed : Nat), s.dev.isLost rank = false → s.dev.portOfLink l = some p →
    s.dev.exchanging = true → (s.dev.link l).state = .trained →
    (rank = portPeer (s.dev.portConfig p) → port = portPeerPort (s.dev.portConfig p) → seed = s.dev.seedCheck →
      ∃ t, exec (.identity l rank port seed) s = .next t ∧ (t.dev.link l).state = s.dev.servingState p l ∧
        (t.dev.link l).peerRank = rank) ∧
    (rank ≠ portPeer (s.dev.portConfig p) ∨ port ≠ portPeerPort (s.dev.portConfig p) ∨ seed ≠ s.dev.seedCheck →
      (s.dev.run.arm.isSome = true →
        ∃ t, exec (.identity l rank port seed) s = .next t ∧ (t.dev.link l).mismatch = some (rank, port) ∧
          (t.dev.link l).state = .trained) ∧
      (s.dev.run.arm = none → (s.dev.link l).service = false →
        ∃ t, exec (.identity l rank port seed) s = .next t ∧ (t.dev.link l).state = .miswired)))

/-- Flits (R281 to R284, R303). On a link that is not trained a flit or a slot changes nothing. On one that is, the codewords corrected
since the last flit, and those that could not be, count; how many is open. A DATA flit whose CRC fails is
discarded, counted, and asks for a replay once; one out of order is discarded; the next one in order advances the number
expected by one. A slot sends the next replay first, then a chosen flit, which takes the next sequence number and a place in
the retry buffer, else an IDLE flit; a link whose peer has not identified itself asks again with an IDENTITY flit (R288).
The model's own readings in it: log entries 44, 45. -/
def Obligations.FlitsAreNumberedAndReplayed : Prop :=
  (∀ (s : State) (l : Nat) (b : Bytes), (s.dev.link l).state ∉ [LinkState.up, .spare, .trained] →
    exec (.flitReceive l b) s = .next s ∧ exec (.flitSlot l) s = .next s) ∧
  (∀ (s : State) (l : Nat) (b : Bytes), (s.dev.link l).state ∈ [LinkState.up, .spare, .trained] →
    (bits (leAt b 0 8) 0 2 = 1 → (b.length ≠ 256 ∨ crc32c (b.take 252) ≠ leAt b 252 4) →
      ∃ t, exec (.flitReceive l b) s = .next t ∧ t.dev = (s.dev.fecCounts l).onLink l (fun x => { x with
        nakDue := x.nakDue || !x.nakSent, crcErrors := min (x.crcErrors + 1) 0xFFFFFFFF })) ∧
    (b.length = 256 → crc32c (b.take 252) = leAt b 252 4 → bits (leAt b 0 8) 0 2 = 1 → bits (leAt b 0 8) 2 2 ≠ 3 →
        bit (leAt b 0 8) 7 = false → bit (leAt b 0 8) 6 = false →
      (bits (leAt b 0 8) 8 12 ≠ (s.dev.link l).expected →
        ∃ t, exec (.flitReceive l b) s = .next t ∧ (t.dev.link l).expected = (s.dev.link l).expected ∧
          (t.dev.link l).nakDue = ((s.dev.link l).nakDue || !(s.dev.link l).nakSent) ∧
          (t.dev.link l).crcErrors = (s.dev.link l).crcErrors ∧ t.dev.ms = s.dev.ms ∧ t.dev.run = s.dev.run) ∧
      (bits (leAt b 0 8) 8 12 = (s.dev.link l).expected →
        ∃ t, exec (.flitReceive l b) s = .next t ∧
          (t.dev.link l).expected = ((s.dev.link l).expected + 1) % 4096))) ∧
  (∀ (s : State) (l : Nat), (s.dev.link l).state ∈ [LinkState.up, .spare, .trained] → s.dev.double = none →
    (∀ seq rest f, (s.dev.link l).replaying = seq :: rest → (s.dev.link l).buffer.find? (fun e => e.1 == seq) = some (seq, f) →
      ∃ t, exec (.flitSlot l) s = .next t ∧ (t.dev.link l).replaying = rest ∧
        (t.dev.link l).buffer = (s.dev.link l).buffer ∧ (t.dev.link l).nextSeq = (s.dev.link l).nextSeq ∧
        t.dev.out.head? = some (.flit l (flitBytes (f.head seq + (s.dev.link l).back) f.data))) ∧
    (∀ f, (s.dev.link l).replaying = [] → (s.dev.link l).choose (s.dev.get Obj.stillSharePct) = some f →
      ∃ t, exec (.flitSlot l) s = .next t ∧ (t.dev.link l).buffer = (s.dev.link l).buffer ++ [((s.dev.link l).nextSeq, f)] ∧
        (t.dev.link l).nextSeq = ((s.dev.link l).nextSeq + 1) % 4096 ∧
        (t.dev.link l).queue = (s.dev.link l).queue.erase f ∧
        t.dev.out.head? = some (.flit l (flitBytes (f.head (s.dev.link l).nextSeq + (s.dev.link l).back) f.data))) ∧
    ((s.dev.link l).state = .trained → s.dev.exchanging = true → s.dev.run.arm.isSome = true ∨ (s.dev.link l).service = true →
        (s.dev.link l).queue = [] → (s.dev.link l).buffer = [] → (s.dev.link l).replaying = [] → (s.dev.portOfLink l).isSome = true →
      ∃ t f, exec (.flitSlot l) s = .next t ∧ (t.dev.link l).buffer = [((s.dev.link l).nextSeq, f)] ∧ f.identity = true ∧
        (t.dev.link l).nextSeq = ((s.dev.link l).nextSeq + 1) % 4096) ∧
    ((s.dev.link l).replaying = [] → (s.dev.link l).choose (s.dev.get Obj.stillSharePct) = none →
        (s.dev.link l).state ≠ .trained ∨ s.dev.exchanging = false ∨ (s.dev.link l).buffer ≠ [] →
      ∃ t, exec (.flitSlot l) s = .next t ∧ (t.dev.link l).buffer = (s.dev.link l).buffer ∧
        (t.dev.link l).nextSeq = (s.dev.link l).nextSeq ∧
        t.dev.out.head? = some (.flit l (flitBytes (s.dev.link l).back []))))

/-- What a message comes to while it waits, and how a peer is heard and lost (R286, R300, R301). MSG_ACK lets its message go;
MSG_RESEND_US sends it again, counted. Every message is a sign of life; LIVE goes to every peer while armed. A peer that was
silent too long is lost, counted, and stays lost; one that was heard is not.
The model's own readings in it: log entries 27, 46. -/
def Obligations.PeersAnswerOrAreLost : Prop :=
  (∀ (s : State) (src id : Nat),
    (s.dev.isLost src = false →
      ∃ t, exec (.msgAck src id) s = .next t ∧ tget t.dev.net.heard src = some s.dev.micros ∧
        (∀ m ∈ t.dev.net.sent, ¬ (m.dest = src ∧ m.id = id ∧ kindAcked (leAt m.msg 0 1) = true)) ∧
        (∀ m ∈ s.dev.net.sent, m.dest ≠ src ∨ m.id ≠ id → m ∈ t.dev.net.sent) ∧ t.dev.ctl = s.dev.ctl) ∧
    (s.dev.isLost src = true →
      ∃ t, exec (.msgAck src id) s = .next t ∧ t.dev.net.sent = s.dev.net.sent ∧
        t.dev.get Obj.msgStaleDrops = (s.dev.get Obj.msgStaleDrops + 1) % 2 ^ 64) ∧
    (s.dev.isLost src = false →
      ∃ t, exec (.live src) s = .next t ∧ t.dev = s.dev.hear src ∧ tget t.dev.net.heard src = some s.dev.micros) ∧
    (s.dev.isLost src = true →
      ∃ t, exec (.live src) s = .next t ∧ t.dev.get Obj.msgStaleDrops = (s.dev.get Obj.msgStaleDrops + 1) % 2 ^ 64)) ∧
  (∀ (s : State) (dest id : Nat),
    (s.dev.net.sent.all (fun m => !(m.dest == dest && m.id == id && kindAcked (leAt m.msg 0 1) && m.link.isSome)) = true →
      exec (.msgResendTimeout dest id) s = .next s) ∧
    (∀ m, s.dev.net.sent.find? (fun m => m.dest == dest && m.id == id && kindAcked (leAt m.msg 0 1) && m.link.isSome) = some m →
      (s.dev.routePort dest).isSome = true →
      ∃ t, exec (.msgResendTimeout dest id) s = .next t ∧
        t.dev.get Obj.msgResent = (s.dev.get Obj.msgResent + 1) % 2 ^ 64 ∧ t.dev.ms = s.dev.ms)) ∧
  (∀ s : State, (s.dev.runState < 2 → exec .liveSend s = .next s) ∧
    (2 ≤ s.dev.runState →
      ∃ t, exec .liveSend s = .next t ∧ t.dev.ms = s.dev.ms ∧
        ∀ r ∈ s.dev.peers, ∃ m, Out.message r m ∈ t.dev.out ∧ m.src = s.dev.get Obj.jobRank ∧
          m.take = s.dev.get Obj.takeNumber)) ∧
  (∀ (s : State) (rank : Nat),
    (s.dev.runState < 2 ∨ s.dev.silent rank = false → exec (.peerTimeout rank) s = .next s) ∧
    (2 ≤ s.dev.runState → s.dev.peers.contains rank = true ∨
        (s.dev.net.unreachable.contains rank = true ∧ s.dev.isLost rank = false) → s.dev.silent rank = true →
      ∃ t, exec (.peerTimeout rank) s = .next t ∧ t.dev.isLost rank = true ∧
        t.dev.get Obj.peersLost = (s.dev.get Obj.peersLost + 1) % 2 ^ 16 ∧
        (s.dev.run.take = none → t.dev.ms.mem = s.dev.ms.mem)))

/-- Collectives (R285, R286, R295 to R298). A collective message for another take is dropped and counted; one whose DESC_CHECK
differs changes no collective and is a detected fault; a repeated one is counted and changes nothing else of the collective. A
contribution that is accepted is acknowledged and its values are kept for the sender's place in the shard's tree. A result
is acknowledged and written to DEST: in FP32 for the ones that add, byte for byte for the ones that carry. COLLECTIVE_START of
a HOST entry counts an invocation, and waits where its objects cannot be read yet; of another entry, or past the table, it is
refused with RANGE, of a running one with BUSY, and then from another role with ROLE.
The model's own readings in it: log entries 17, 48, 128. -/
def Obligations.CollectivesGatherTheirShards : Prop :=
  (∀ (s : State) (m : Msg) (c : Coll), s.dev.staleMessage m = false → tget s.dev.net.colls m.entry = some c →
    (s.dev.net.accepted.contains (m.src, m.msgId) = false → m.descCheck = Ce.check c.entry →
        m.take ≠ c.tag ∨ c.complete = true ∨ (Ce.host c.entry = true ∧ c.running = false) →
      (∃ t, exec (.contribution m) s = .next t ∧ t.dev.net.colls = s.dev.net.colls ∧
        t.dev.get Obj.msgStaleDrops = (s.dev.get Obj.msgStaleDrops + 1) % 2 ^ 64) ∧
      (∃ t, exec (.result m) s = .next t ∧ t.dev.net.colls = s.dev.net.colls ∧ t.dev.ms = s.dev.ms ∧
        t.dev.get Obj.msgStaleDrops = (s.dev.get Obj.msgStaleDrops + 1) % 2 ^ 64)) ∧
    (m.descCheck ≠ Ce.check c.entry →
      ∃ t, exec (.contribution m) s = .next t ∧ t.dev.net.colls = s.dev.net.colls ∧ t.dev.ms = s.dev.ms) ∧
    (m.descCheck = Ce.check c.entry → m.take = c.tag → c.complete = false → Ce.host c.entry = false →
      (s.dev.net.accepted.contains (m.src, m.msgId) = true →
        ∃ t, exec (.contribution m) s = .next t ∧ t.dev.net.colls = s.dev.net.colls ∧ t.dev.ms = s.dev.ms ∧
          t.dev.get Obj.msgDuplicates = (s.dev.get Obj.msgDuplicates + 1) % 2 ^ 64) ∧
      (s.dev.net.accepted.contains (m.src, m.msgId) = false →
        ∃ t, exec (.contribution m) s = .next t ∧ t.dev.net.accepted.contains (m.src, m.msgId) = true ∧
          Out.message m.src ⟨s.dev.get Obj.jobRank, 0xFFFF, m.msgId, 0, 0, 0, 0, false, []⟩ ∈ t.dev.out ∧
          ∀ k lo hi pos y, c.running = false → lineFormat m.format = false → shardOf c.entry m.offset = some (k, lo, hi) →
            c.ranks.findIdx? (· == m.src) = some pos → tget t.dev.net.colls m.entry = some y →
            tgetD y.got (gotKey k (relPos c.entry k pos)) [] =
              placeVals (tgetD c.got (gotKey k (relPos c.entry k pos)) []) m.offset hi
                ((List.range (m.payload.length / max 1 (fmtBits m.format / 8))).map (fun i =>
                  toF32 m.format (leAt m.payload (max 1 (fmtBits m.format / 8) * i) (max 1 (fmtBits m.format / 8))))))) ∧
    (m.descCheck = Ce.check c.entry → m.take = c.tag → c.complete = false → c.running = true →
      s.dev.net.accepted.contains (m.src, m.msgId) = false → s.dev.dataRo (Ce.dest c.entry) = false →
      ∀ k lo hi, shardOf c.entry m.offset = some (k, lo, hi) →
      (Ce.reduces c.entry = true → lineFormat m.format = false →
        ∃ t, exec (.result m) s = .next t ∧ t.dev.net.accepted.contains (m.src, m.msgId) = true ∧
          t.dev.ms.mem = (s.dev.writeBytes (Ce.dest c.entry) (4 * m.offset)
            (((((List.range (m.payload.length / max 1 (fmtBits m.format / 8))).map (fun i =>
              toF32 m.format (leAt m.payload (max 1 (fmtBits m.format / 8) * i) (max 1 (fmtBits m.format / 8)))))).take
                (hi - m.offset)).map (leBytes 4)).flatten).ms.mem) ∧
      (Ce.reduces c.entry = false →
        ∃ t, exec (.result m) s = .next t ∧ t.dev.ms.mem = (s.dev.writeBytes (Ce.dest c.entry)
          (m.offset * (fmtBits (Ce.payload c.entry) / 8)) m.payload).ms.mem))) ∧
  (∀ (s : State) (rq : Req) (i : Nat), accepts s.dev rq Obj.collectiveStart i = true →
    ∃ t, exec (.collectiveStart rq i) s = .next t ∧
      (s.dev.get Obj.collectiveCount ≤ i → AnsweredWrite t.dev rq Obj.collectiveStart St.range ∧ OnlyControl s.dev t.dev) ∧
      (∀ c, i < s.dev.get Obj.collectiveCount → tget s.dev.net.colls i = some c →
        (Ce.host c.entry = false → AnsweredWrite t.dev rq Obj.collectiveStart St.range ∧ OnlyControl s.dev t.dev) ∧
        (Ce.host c.entry = true → c.running = true ∨ c.waits = true →
          AnsweredWrite t.dev rq Obj.collectiveStart St.busy ∧ OnlyControl s.dev t.dev) ∧
        (Ce.host c.entry = true → c.running = false → c.waits = false → s.dev.roleOf rq ≠ some 1 →
          AnsweredWrite t.dev rq Obj.collectiveStart St.role ∧ OnlyControl s.dev t.dev) ∧
        (Ce.host c.entry = true → c.running = false → c.waits = false → s.dev.roleOf rq = some 1 →
          AnsweredWrite t.dev rq Obj.collectiveStart St.ok ∧
          (tget t.dev.net.colls i).map (fun y => (y.invocations, y.tag)) =
            some (c.invocations + 1, 2 ^ 63 + (c.invocations + 1)) ∧
          (∀ h, (s.dev.collObjects c).find? s.dev.barred = none → s.dev.unreadable (s.dev.collObjects c) = some h →
            (tget t.dev.net.colls i).map (fun y => (y.waits, y.running)) = some (true, false)))))

/-! ### The continuity log and stills (chapter 12) -/

/-- The continuity log (R307, R308, R310, R339). LOG_CONSUMED takes a multiple of 8 within the unread part and is refused
elsewhere. The oldest record that waits is written where it fits: its bytes stand in the ring, the chain's head is the digest
of its body, the sequence advances by one, LOG_WRITTEN is raised, and the record waits no more. One that does not fit waits, and is counted the first
time; while the log object is not ready nothing happens. -/
def Obligations.LogChainsItsRecords : Prop :=
  (∀ (s : State) (rq : Req) (v : Nat), accepts s.dev rq Obj.logConsumed v = true →
    ∃ t, exec (.logConsumed rq v) s = .next t ∧ t.dev.log = s.dev.log ∧ t.dev.ms = s.dev.ms ∧
      (consumedOk (s.dev.sizeOf (s.dev.get Obj.logObject) * blockBytes) (s.dev.get Obj.logWriteOffset)
          (s.dev.get Obj.logConsumed) v = true →
        AnsweredWrite t.dev rq Obj.logConsumed St.ok ∧ t.dev.get Obj.logConsumed = v) ∧
      (consumedOk (s.dev.sizeOf (s.dev.get Obj.logObject) * blockBytes) (s.dev.get Obj.logWriteOffset)
          (s.dev.get Obj.logConsumed) v = false →
        AnsweredWrite t.dev rq Obj.logConsumed St.range ∧ t.dev.get Obj.logConsumed = s.dev.get Obj.logConsumed)) ∧
  (∀ size w c v : Nat, consumedOk size w c v = true → v % 8 = 0) ∧
  (∀ s : State, s.dev.log.waiting = [] ∨ s.dev.ready (s.dev.get Obj.logObject) = false →
    exec .logRecordWrite s = .next s) ∧
  (∀ (s : State) (r : LogRecord) (rs : List LogRecord), s.dev.log.waiting = r :: rs →
    s.dev.ready (s.dev.get Obj.logObject) = true →
    (r.signed = true → s.dev.sec.signFailed = true → exec .logRecordWrite s = .next s) ∧
    (r.signed = false ∨ s.dev.sec.signFailed = false →
      (logPlace (s.dev.sizeOf (s.dev.get Obj.logObject) * blockBytes) (s.dev.get Obj.logWriteOffset)
          (s.dev.get Obj.logConsumed) (recordBytes r.samples.length r.trackers.length r.signed) = none →
        (s.dev.log.full = true → exec .logRecordWrite s = .next s) ∧
        (s.dev.log.full = false →
          ∃ t, exec .logRecordWrite s = .next t ∧ t.dev.log = { s.dev.log with full := true } ∧ t.dev.ms = s.dev.ms ∧
            t.dev.get Obj.logFullWaits = (s.dev.get Obj.logFullWaits + 1) % 2 ^ 64)) ∧
      (∀ fill at_, Memory.wf s.dev.ms.mem = true → r.signed = false →
        logPlace (s.dev.sizeOf (s.dev.get Obj.logObject) * blockBytes) (s.dev.get Obj.logWriteOffset)
          (s.dev.get Obj.logConsumed) (recordBytes r.samples.length r.trackers.length r.signed) = some (fill, at_) →
        ∃ t, exec .logRecordWrite s = .next t ∧ t.dev.log.waiting = rs ∧ t.dev.log.full = false ∧
          t.dev.get Obj.logHead = leNat (sha512 (s.dev.recordBody r)) ∧
          t.dev.get Obj.logSequence = (s.dev.get Obj.logSequence + 1) % 2 ^ 64 ∧
          t.dev.get Obj.eventsRaised = (s.dev.get Obj.eventsRaised + 1) % 2 ^ 64 ∧
          t.dev.readBytes (s.dev.get Obj.logObject) at_ (s.dev.recordBody r).length = s.dev.recordBody r)))

/-- Stills at the double and at the sender (R318, R321, R322, R324, R326 to R328). The double takes a device up at its HELLO,
keeps the parts, manifest chunks and traces it is sent in the slot that does not hold the base, refuses a trace it has no room
for, completes the slot at an END whose digest it forms itself and marks it invalid at any other and at an ABORT; asked for a
slot, it changes nothing it holds. A message that R285 drops changes none of it. The sender's still completes at the ACK of its
digest, and fails at one of OBJECT_LOST.
The model's own readings in it: log entries 49, 67. -/
def Obligations.DoubleKeepsStills : Prop :=
  (∀ (s : State) (m : Msg), s.dev.staleMessage m = true ∨ (chunkOf m.payload).bad = true →
    ∀ i ∈ [Instr.stillHello m, .stillBlock m, .stillTraceBlock m, .stillManifest m, .stillEnd m, .stillAbort m,
      .restoreRequest m, .stillAck m],
    ∃ t, exec i s = .next t ∧ t.dev.still = s.dev.still ∧ t.dev.ms = s.dev.ms ∧
      t.dev.get Obj.msgStaleDrops = (s.dev.get Obj.msgStaleDrops + 1) % 2 ^ 64) ∧
  (∀ (s : State) (m : Msg) (c : Chunk), c = chunkOf m.payload → s.dev.staleMessage m = false → c.bad = false →
    s.dev.net.accepted.contains (m.src, m.msgId) = false → s.dev.storeBad = false → s.dev.run.arm = none →
    (c.kind = Ck.hello →
      ∃ t, exec (.stillHello m) s = .next t ∧ t.dev.ms = s.dev.ms ∧
        (s.dev.helloStatus m.src (leAt c.data 4 8) = St.ok →
          (t.dev.servedOf m.src).map (·.blocks) = some (leAt c.data 4 8)) ∧
        (s.dev.helloStatus m.src (leAt c.data 4 8) ≠ St.ok → t.dev.still = { s.dev.still with storeSeen := false })) ∧
    (∀ x, s.dev.servedOf m.src = some x →
      (c.kind = Ck.block → (x.slotFor c.take c.base).ended = none →
        ∃ t, exec (.stillBlock m) s = .next t ∧ t.dev.ms = s.dev.ms ∧
          t.dev.servedOf m.src = some (x.setWriting (some ((x.slotFor c.take c.base).addPart c)))) ∧
      (c.kind = Ck.manifest → (x.slotFor c.take c.base).ended = none →
        ∃ t, exec (.stillManifest m) s = .next t ∧ t.dev.ms = s.dev.ms ∧
          t.dev.servedOf m.src = some (x.setWriting (some ((x.slotFor c.take c.base).addManifest c)))) ∧
      (c.kind = Ck.trace →
        (s.dev.storeSize < s.dev.storeUsedBut m.src + 2 * x.blocks + ceilDiv (x.traces.length + 1) 8 →
          ∃ t, exec (.stillTraceBlock m) s = .next t ∧ t.dev.still = { s.dev.still with storeSeen := false }) ∧
        (s.dev.storeUsedBut m.src + 2 * x.blocks + ceilDiv (x.traces.length + 1) 8 ≤ s.dev.storeSize →
            (x.writing.bind (·.ended)) = none →
          ∃ t, exec (.stillTraceBlock m) s = .next t ∧ t.dev.ms = s.dev.ms ∧
            t.dev.servedOf m.src =
              some { x with traces := x.traces ++ [(c.take, partKey c.handle c.index c.part, c.data)] })) ∧
      (c.kind = Ck.end_ → ∀ z, z = (x.slotFor c.take c.base).addEnd c →
        ((x.setWriting (some z)).wholeDigest z = none →
          ∃ t, exec (.stillEnd m) s = .next t ∧ t.dev.servedOf m.src = some (x.setWriting (some z))) ∧
        (∀ found, (x.setWriting (some z)).wholeDigest z = some found →
          (found = slice c.data 0 64 →
            ∃ t, exec (.stillEnd m) s = .next t ∧ t.dev.servedOf m.src = some ((x.setWriting (some z)).complete z)) ∧
          (found ≠ slice c.data 0 64 →
            ∃ t, exec (.stillEnd m) s = .next t ∧
              t.dev.servedOf m.src = some ((x.setWriting (some z)).setWriting (some z.spoiled))))) ∧
      (c.kind = Ck.abort →
        ∃ t, exec (.stillAbort m) s = .next t ∧ t.dev.ms = s.dev.ms ∧
          ∀ z, x.writing = some z → z.take = c.take → z.valid = false →
            t.dev.servedOf m.src = some (x.setWriting (some { take := z.take, base := z.base }))) ∧
      (c.kind = Ck.restore →
        ∃ t, exec (.restoreRequest m) s = .next t ∧ t.dev.ms = s.dev.ms ∧ t.dev.still = { s.dev.still with storeSeen := false } ∧
          (∀ z, x.slotOf (leAt c.data 0 1) = some z →
            ∃ y, Out.message m.src y ∈ t.dev.out ∧ y.take = z.take ∧ (chunkOf y.payload).kind = Ck.end_) ∧
          (x.slotOf (leAt c.data 0 1) = none → ∃ y, Out.message m.src y ∈ t.dev.out ∧
            (chunkOf y.payload).kind = Ck.ack ∧ leAt (chunkOf y.payload).data 0 2 = St.objectLost)))) ∧
  (∀ (s : State) (m : Msg) (c : Chunk) (j : StillJob), c = chunkOf m.payload → s.dev.staleMessage m = false →
    c.bad = false → c.kind = Ck.ack → s.dev.run.arm = none → s.dev.double = some m.src → s.dev.still.job = some j →
    j.take = c.take → j.ended = true →
    (leAt c.data 0 2 = St.ok → slice c.data 8 64 = j.digest →
      ∃ t, exec (.stillAck m) s = .next t ∧ t.dev.still.job = none ∧ t.dev.get Obj.stillLatestTake = j.take ∧
        t.dev.get Obj.stillState = 0 ∧ (j.base = true → t.dev.get Obj.stillBaseTake = j.take) ∧
        t.dev.get Obj.stillsCompleted = (s.dev.get Obj.stillsCompleted + 1) % 2 ^ 64 ∧ t.dev.ms = s.dev.ms) ∧
    (leAt c.data 0 2 = St.objectLost →
      ∃ t, exec (.stillAck m) s = .next t ∧ t.dev.still.job = none ∧
        t.dev.get Obj.stillsFailed = (s.dev.get Obj.stillsFailed + 1) % 2 ^ 64 ∧
        t.dev.get Obj.stillLatestTake = s.dev.get Obj.stillLatestTake ∧ t.dev.ms = s.dev.ms))

/-! ### Clocks, voltage and power (chapter 14) -/

/-- References and clock hold (R403 to R409). A reference passes its window where it agrees with one of the other two: three
passes in a row make it ready, two failures in a row not ready. A monitor that fires clears its input's ready flag at once;
where a running domain other than MGMT and AON uses it the device enters clock hold, its links down and the valve open; MGMT
moves to the first ready source. REF_SELECT moves a domain only to an allowed and, while it runs, a ready reference.
CLOCK_RESUME is refused without a hold or a ready reference and above 95 °C, else the held PLLs qualify anew; the resume ends the hold, and
every link trains, or waits to until the link reference is qualified and the serial rails are in range.
The model's own readings in it: log entries 10, 11, 71. -/
def Obligations.ClocksHoldAndResume : Prop :=
  (∀ (s : State) (present : List Bool) (ab al bl p0 p1 aon : Nat),
    (s.dev.boot.fusesRead = false → exec (.qualificationWindow present ab al bl p0 p1 aon) s = .next s) ∧
    (s.dev.boot.fusesRead = true →
      ∃ t, exec (.qualificationWindow present ab al bl p0 p1 aon) s = .next t ∧
        ∀ r pass, (r, pass) ∈ [
            (0, present.getD 0 false && (present.getD 1 false && within ab 65536 100 100 ||
              present.getD 2 false && within al 409600 100 100)),
            (1, present.getD 1 false && (present.getD 0 false && within ab 65536 100 100 ||
              present.getD 2 false && within bl 409600 100 100)),
            (2, present.getD 2 false && (present.getD 0 false && within al 409600 100 100 ||
              present.getD 1 false && within bl 409600 100 100))] →
          (pass = true → (t.dev.refClock r).pass = (s.dev.refClock r).pass + 1 ∧ (t.dev.refClock r).fail = 0 ∧
            (t.dev.refClock r).ready = ((s.dev.refClock r).ready || decide (3 ≤ (s.dev.refClock r).pass + 1))) ∧
          (pass = false → (t.dev.refClock r).pass = 0 ∧ (t.dev.refClock r).fail = (s.dev.refClock r).fail + 1 ∧
            (t.dev.refClock r).ready = ((s.dev.refClock r).ready && decide ((s.dev.refClock r).fail + 1 < 2))))) ∧
  (∀ (s : State) (ref cause : Nat),
    (5 < ref ∨ 1 < cause → exec (.clockMonitorFire ref cause) s = .next s) ∧
    (ref ≤ 5 → cause ≤ 1 →
      ∃ t, exec (.clockMonitorFire ref cause) s = .next t ∧ t.dev.refReady ref = false ∧ (t.dev.refClock ref).pass = 0 ∧
        (ref ≤ 2 → (∃ n, n ≤ 10 ∧ (s.dev.domain n).running = true ∧ (s.dev.domain n).ref = ref) →
          t.dev.pwr.hold = true ∧ t.dev.get Obj.valveDuty = 1000 ∧ (∀ n, n < 9 → (t.dev.domain n).running = false) ∧
          ∀ l, l < 96 → (t.dev.link l).state = .down) ∧
        (∀ r, (s.dev.domain 11).running = true → (s.dev.domain 11).ref = ref →
          [0, 1, 5].find? (fun r => r != ref && s.dev.refReady r) = some r →
          (t.dev.domain 11).ref = r ∧ (t.dev.domain 11).running = true))) ∧
  (∀ (s : State) (rq : Req) (n v : Nat), n ≤ 12 → accepts s.dev rq (Obj.refSelect + n) v = true →
    ∃ t, exec (.refSelect rq n v) s = .next t ∧
      (refAllowed n v = false → AnsweredWrite t.dev rq (Obj.refSelect + n) St.range ∧ OnlyControl s.dev t.dev) ∧
      (refAllowed n v = true → (s.dev.domain n).running = true → v ≠ (s.dev.domain n).ref → s.dev.refReady v = false →
        AnsweredWrite t.dev rq (Obj.refSelect + n) St.notReady ∧ OnlyControl s.dev t.dev) ∧
      (refAllowed n v = true → (s.dev.domain n).running = false ∨ v = (s.dev.domain n).ref ∨ s.dev.refReady v = true →
        n = 12 → s.dev.roleOf rq ≠ some 2 →
        AnsweredWrite t.dev rq (Obj.refSelect + n) St.role ∧ OnlyControl s.dev t.dev) ∧
      (n ≠ 12 ∨ s.dev.roleOf rq = some 2 →
        (refAllowed n v = true → v ≠ (s.dev.domain n).ref → (s.dev.domain n).running = false ∨ s.dev.refReady v = true →
          AnsweredWrite t.dev rq (Obj.refSelect + n) St.ok ∧ t.dev.get (Obj.refSelect + n) = v ∧
          (n = 9 ∨ n = 10 → (t.dev.domain n).ref = (s.dev.domain n).ref ∧ (t.dev.domain n).next = some v) ∧
          (n ≠ 9 → n ≠ 10 → (t.dev.domain n).ref = v ∧ (t.dev.domain n).pllReady = false ∧
            (t.dev.domain n).running = (s.dev.domain n).running) ∧
          ∀ k, k ≠ n → t.dev.domain k = s.dev.domain k))) ∧
  (∀ (s : State) (rq : Req) (v : Nat), accepts s.dev rq Obj.clockResume v = true →
    ∃ t, exec (.clockResume rq v) s = .next t ∧
      (s.dev.pwr.hold = false → AnsweredWrite t.dev rq Obj.clockResume St.busy ∧ OnlyControl s.dev t.dev) ∧
      (s.dev.pwr.hold = true → (∃ n, n < 9 ∧ s.dev.refReady (s.dev.domain n).ref = false) →
        AnsweredWrite t.dev rq Obj.clockResume St.notReady ∧ OnlyControl s.dev t.dev) ∧
      (s.dev.pwr.hold = true → (∀ n, n < 9 → s.dev.refReady (s.dev.domain n).ref = true) →
        flt 0x42BE_0000 s.dev.gov.hottest = true →
        AnsweredWrite t.dev rq Obj.clockResume St.notReady ∧ OnlyControl s.dev t.dev) ∧
      (s.dev.pwr.hold = true → (∀ n, n < 9 → s.dev.refReady (s.dev.domain n).ref = true) →
        flt 0x42BE_0000 s.dev.gov.hottest = false → s.dev.pwr.resuming = false →
        AnsweredWrite t.dev rq Obj.clockResume St.pending ∧ t.dev.pwr.resuming = true ∧ t.dev.pwr.hold = true ∧
        ∀ n, n < 9 → (s.dev.domain n).held = true →
          (t.dev.domain n).pllReady = false ∧ (t.dev.domain n).pass = 0 ∧ (t.dev.domain n).held = true)) ∧
  (∀ s : State,
    (s.dev.pwr.hold = false ∨ s.dev.pwr.resuming = false ∨
        (∃ n, n < 9 ∧ (s.dev.domain n).held = true ∧ (s.dev.domain n).pllReady = false) →
      exec .clockResumeDone s = .next s) ∧
    (s.dev.pwr.hold = true → s.dev.pwr.resuming = true →
        (∀ n, n < 9 → (s.dev.domain n).held = true → (s.dev.domain n).pllReady = true) →
      ∃ t, exec .clockResumeDone s = .next t ∧ t.dev.pwr.hold = false ∧ t.dev.pwr.resuming = false ∧
        t.dev.pwr.ddrSelf = false ∧ t.dev.gov.trip = false ∧
        (s.dev.serialReady = true → ∀ l, l < 96 → (t.dev.link l).state = .training) ∧
        (s.dev.serialReady = false → ∀ l, l < 96 → l ∈ t.dev.net.trainDue) ∧
        ∀ n, n < 9 → (t.dev.domain n).held = false ∧
          (t.dev.domain n).running = ((s.dev.domain n).running || (s.dev.domain n).held)))

/-- The gate tree (R411, R412, R422, R426). During a clock hold a gate request is refused with BUSY; the root with RANGE; a
HOLD of a node in use with CHILD_IN_USE; an OPEN below a held node with NOT_READY. Else a HOLD drains the node, which is held
once drained, and an OPEN opens it; one against the change under way of its node is latched, PENDING. -/
def Obligations.GatesHoldAndOpen : Prop :=
  (∀ (s : State) (rq : Req) (node : Nat), s.dev.get Obj.gateSelect = node →
    (accepts s.dev rq Obj.gateControl 1 = true →
      ∃ t, exec (.gateHold rq) s = .next t ∧ t.dev.ms = s.dev.ms ∧ t.dev.stages = s.dev.stages ∧
        (s.dev.pwr.hold = true → AnsweredWrite t.dev rq Obj.gateControl St.busy ∧ OnlyControl s.dev t.dev) ∧
        (s.dev.pwr.hold = false → s.dev.pwr.opening.contains node = false →
          (node = 0 → AnsweredWrite t.dev rq Obj.gateControl St.range ∧ OnlyControl s.dev t.dev) ∧
          (node ≠ 0 → s.dev.inUse node = true →
            AnsweredWrite t.dev rq Obj.gateControl St.childInUse ∧ OnlyControl s.dev t.dev) ∧
          (node ≠ 0 → s.dev.inUse node = false → AnsweredWrite t.dev rq Obj.gateControl St.ok ∧
            (t.dev.pwr.heldNodes.contains node || t.dev.pwr.draining.contains node) = true ∧
            t.dev.pwr.heldNodes = s.dev.pwr.heldNodes)) ∧
        (s.dev.pwr.hold = false → s.dev.pwr.opening.contains node = true →
          AnsweredWrite t.dev rq Obj.gateControl St.pending ∧ t.dev.pwr.gateLatch = some (node, 1))) ∧
    (accepts s.dev rq Obj.gateControl 0 = true →
      ∃ t, exec (.gateOpen rq) s = .next t ∧ t.dev.ms = s.dev.ms ∧ t.dev.stages = s.dev.stages ∧
        (s.dev.pwr.hold = true → AnsweredWrite t.dev rq Obj.gateControl St.busy ∧ OnlyControl s.dev t.dev) ∧
        (s.dev.pwr.hold = false → s.dev.pwr.draining.contains node = false →
          (node = 0 → AnsweredWrite t.dev rq Obj.gateControl St.range ∧ OnlyControl s.dev t.dev) ∧
          (node ≠ 0 → s.dev.heldOn (nodesAbove node) = true →
            AnsweredWrite t.dev rq Obj.gateControl St.notReady ∧ OnlyControl s.dev t.dev) ∧
          (node ≠ 0 → s.dev.heldOn (nodesAbove node) = false → AnsweredWrite t.dev rq Obj.gateControl St.ok ∧
            t.dev.pwr.heldNodes.contains node = false ∧
            (s.dev.pwr.heldNodes.contains node = true → t.dev.pwr.opening.contains node = true))) ∧
        (s.dev.pwr.hold = false → s.dev.pwr.draining.contains node = true →
          AnsweredWrite t.dev rq Obj.gateControl St.pending ∧ t.dev.pwr.gateLatch = some (node, 0)))) ∧
  (∀ (s : State) (node : Nat),
    (s.dev.pwr.draining.contains node = false → exec (.gateHeld node) s = .next s) ∧
    (s.dev.pwr.draining.contains node = true → s.dev.pwr.gateLatch = none →
      ∃ t, exec (.gateHeld node) s = .next t ∧ t.dev = { s.dev with pwr := { s.dev.pwr with
        draining := s.dev.pwr.draining.filter (· != node), heldNodes := s.dev.pwr.heldNodes ++ [node] } }) ∧
    (s.dev.pwr.opening.contains node = false → exec (.gateOpeningDone node) s = .next s) ∧
    (s.dev.pwr.opening.contains node = true → s.dev.pwr.gateLatch = none →
      ∃ t, exec (.gateOpeningDone node) s = .next t ∧ t.dev = { s.dev with pwr := { s.dev.pwr with
        opening := s.dev.pwr.opening.filter (· != node) } }) ∧
    (s.dev.pwr.opening.contains node = true → s.dev.pwr.gateLatch = some (node, 1) → node ≠ 0 → s.dev.inUse node = false →
      ∃ t, exec (.gateOpeningDone node) s = .next t ∧ t.dev.pwr.gateLatch = none ∧
        (t.dev.pwr.heldNodes.contains node || t.dev.pwr.draining.contains node) = true))

/-- The levels of a compute die (R413, R414). A DVFS_REQUEST is stored and answered OK. A change begins only where the target
differs and no change is under way: upwards with the AVSBus write of the next level's voltage, downwards with the frequency.
Once AVSBus confirms, the frequency follows. At the end of a slew the level in effect is one higher, or one lower with its
voltage written after it, and the steps are counted. A rise that is not confirmed leaves the level, and a lowering that is
not confirmed the higher voltage; both are regulator faults. -/
def Obligations.LevelsStepOneAtATime : Prop :=
  (∀ (s : State) (rq : Req) (die level : Nat), die ≤ 3 → accepts s.dev rq (Obj.dvfsRequestCd + die) level = true →
    ∃ t, exec (.dvfsRequest rq die level) s = .next t ∧ AnsweredWrite t.dev rq (Obj.dvfsRequestCd + die) St.ok ∧
      t.dev.get (Obj.dvfsRequestCd + die) = level ∧ OnlyControl s.dev t.dev) ∧
  (∀ (s : State) (die : Nat), die ≤ 3 →
    (s.dev.dvfsPhase die ≠ .idle ∨ s.dev.level die = s.dev.targetLevel die →
      exec (.dvfsLevelChange die) s = .next s) ∧
    (s.dev.dvfsPhase die = .idle → (s.dev.domain die).running = true → s.dev.level die < s.dev.targetLevel die →
      ∃ t, exec (.dvfsLevelChange die) s = .next t ∧ t.dev.dvfsPhase die = .raising ∧
        t.dev.out = .avsWrite die (s.dev.voltage die (s.dev.level die + 1)) :: s.dev.out ∧ t.dev.ctl = s.dev.ctl ∧
        t.dev.ms = s.dev.ms) ∧
    (s.dev.dvfsPhase die = .idle → (s.dev.domain die).running = true → s.dev.targetLevel die < s.dev.level die →
      ∃ t, exec (.dvfsLevelChange die) s = .next t ∧ t.dev = s.dev.setPhase die .slewDown) ∧
    (s.dev.dvfsPhase die = .raising →
      ∃ t, exec (.avsbusVoltageReached die) s = .next t ∧ t.dev = s.dev.setPhase die .slewUp) ∧
    (s.dev.dvfsPhase die ≠ .raising →
      ∃ t, exec (.avsbusVoltageReached die) s = .next t ∧ t.dev = { s.dev with pwr := { s.dev.pwr with
        lowering := s.dev.pwr.lowering.filter (· != die) } }) ∧
    (s.dev.dvfsPhase die = .slewUp →
      ∃ t, exec (.arithPllSlewDone die) s = .next t ∧ t.dev.level die = s.dev.level die + 1 ∧
        t.dev.get Obj.dvfsSteps = (s.dev.get Obj.dvfsSteps + 1) % 2 ^ 64 ∧ t.dev.ms = s.dev.ms) ∧
    (s.dev.dvfsPhase die = .slewDown →
      ∃ t, exec (.arithPllSlewDone die) s = .next t ∧ t.dev.level die = s.dev.level die - 1 ∧
        .avsWrite die (s.dev.voltage die (s.dev.level die - 1)) ∈ t.dev.out ∧
        t.dev.get Obj.dvfsSteps = (s.dev.get Obj.dvfsSteps + 1) % 2 ^ 64 ∧ t.dev.ms = s.dev.ms) ∧
    (s.dev.dvfsPhase die ≠ .slewUp → s.dev.dvfsPhase die ≠ .slewDown → exec (.arithPllSlewDone die) s = .next s) ∧
    (s.dev.dvfsPhase die = .raising →
      ∃ t, exec (.avsbusConfirmTimeout die) s = .next t ∧ t.dev.dvfsPhase die = .idle ∧
        t.dev.level die = s.dev.level die ∧
        t.dev.get Obj.regulatorFaults = (s.dev.get Obj.regulatorFaults + 1) % 2 ^ 64) ∧
    (s.dev.dvfsPhase die ≠ .raising → s.dev.pwr.lowering.contains die = true →
      ∃ t, exec (.avsbusConfirmTimeout die) s = .next t ∧
        tget t.dev.pwr.railMv die = some (s.dev.voltage die (s.dev.level die + 1)) ∧
        t.dev.level die = s.dev.level die ∧ t.dev.pwr.lowering.contains die = false ∧
        t.dev.get Obj.regulatorFaults = (s.dev.get Obj.regulatorFaults + 1) % 2 ^ 64) ∧
    (s.dev.dvfsPhase die ≠ .raising → s.dev.pwr.lowering.contains die = false →
      exec (.avsbusConfirmTimeout die) s = .next s))

/-- The supplies (R415, R436). A monitored rail more than 5 % below its target is a counted warning; more than 10 % is a
regulator fault besides, and so is the fall of PWR_GOOD of an enabled rail, counted once; less clears both. A fall on a rail that is off is none.
A rail not good again loses the parts it feeds. A poll stores the draw and the mean of the floor window. -/
def Obligations.SuppliesAreWatched : Prop :=
  (∀ (s : State) (rail below nominal : Nat),
    (rail < 2 ∨ 8 < rail → exec (.supplyUndervoltage rail below nominal) s = .next s) ∧
    (2 ≤ rail → rail ≤ 8 →
      (10 * nominal < 100 * below → bit s.dev.pwr.faulted rail = true →
        ∃ t, exec (.supplyUndervoltage rail below nominal) s = .next t ∧ bit t.dev.pwr.faulted rail = true ∧
          bit t.dev.pwr.warning rail = true ∧
          t.dev.get Obj.supplyWarnings = (s.dev.get Obj.supplyWarnings + 1) % 2 ^ 64 ∧
          t.dev.get Obj.regulatorFaults = s.dev.get Obj.regulatorFaults) ∧
      (10 * nominal < 100 * below → bit s.dev.pwr.faulted rail = false →
        ∃ t, exec (.supplyUndervoltage rail below nominal) s = .next t ∧ bit t.dev.pwr.faulted rail = true ∧
          t.dev.get Obj.regulatorFaults = (s.dev.get Obj.regulatorFaults + 1) % 2 ^ 64 ∧
          bit t.dev.pwr.warning rail = true ∧
          t.dev.get Obj.supplyWarnings = (s.dev.get Obj.supplyWarnings + 1) % 2 ^ 64) ∧
      (100 * below ≤ 10 * nominal → 5 * nominal < 100 * below →
        ∃ t, exec (.supplyUndervoltage rail below nominal) s = .next t ∧ bit t.dev.pwr.warning rail = true ∧
          bit t.dev.pwr.faulted rail = false ∧
          t.dev.get Obj.supplyWarnings = (s.dev.get Obj.supplyWarnings + 1) % 2 ^ 64 ∧
          t.dev.get Obj.regulatorFaults = s.dev.get Obj.regulatorFaults) ∧
      (100 * below ≤ 5 * nominal →
        ∃ t, exec (.supplyUndervoltage rail below nominal) s = .next t ∧ t.dev = { s.dev with pwr := { s.dev.pwr with
          warning := clearBit s.dev.pwr.warning rail, faulted := clearBit s.dev.pwr.faulted rail } }))) ∧
  (∀ (s : State) (b : Nat),
    (8 < b → exec (.pwrGoodFall b) s = .next s) ∧
    (b ≤ 8 → bit s.dev.pwr.pwrGood b = true → bit s.dev.pwr.pwrEn b = true →
      ∃ t, exec (.pwrGoodFall b) s = .next t ∧ bit t.dev.pwr.pwrGood b = false ∧ bit t.dev.pwr.faulted b = true ∧
        t.dev.get Obj.regulatorFaults = (s.dev.get Obj.regulatorFaults + 1) % 2 ^ 64) ∧
    (b ≤ 8 → bit s.dev.pwr.pwrEn b = false →
      ∃ t, exec (.pwrGoodFall b) s = .next t ∧
        t.dev = { s.dev with pwr := { s.dev.pwr with pwrGood := clearBit s.dev.pwr.pwrGood b } })) ∧
  (∀ (s : State) (rail : Nat),
    (bit s.dev.pwr.faulted rail = false → exec (.regulatorRecoveryExpiry rail) s = .next s) ∧
    (bit s.dev.pwr.faulted rail = true →
      ∃ t, exec (.regulatorRecoveryExpiry rail) s = .next t ∧
        (rail = 2 → t.dev.lostUnit 0 = true) ∧ (rail = 3 → t.dev.lostUnit 1 = true) ∧
        (rail = 4 → ∀ die, die ≤ 3 → t.dev.lostUnit (10 + die) = true) ∧
        (5 ≤ rail → rail ≤ 8 → t.dev.lostUnit (10 + (rail - 5)) = true))) ∧
  (∀ (s : State) (uw : Nat),
    ∃ t, exec (.pmbusPoll uw) s = .next t ∧ t.dev.get Obj.drawW = fOfFrac uw 1000000 ∧
      t.dev.gov.draws = (uw :: s.dev.gov.draws).take 60000 ∧
      t.dev.get Obj.trailingMeanW = meanW (t.dev.gov.draws.take (s.dev.get Obj.floorWindowMs)) ∧
      ValuesKept s.dev t.dev [Obj.drawW, Obj.trailingMeanW] ∧ t.dev.ms = s.dev.ms ∧ t.dev.pwr = s.dev.pwr)

/-- The power states (R416 to R422, R471, R473, R496). A request for the state in effect is OK; for P2 or P3 it is refused with
CHILD_IN_USE or BUSY, or begins the entry; for P1 it begins the wake. During a transition the other way it is latched. The
sequences switch the rails in the stated order, each step once its delay or its PWR_GOOD has come; a timeout switches them off
again and leaves the state. POR_N low, and VDD_AON below 0.65 V, reset everything but the fuses and the flash, every PWR_EN
low; its release latches the straps.
The model's own readings in it: log entries 12, 72. -/
def Obligations.PowerStatesFollowTheSequence : Prop :=
  (∀ (s : State) (rq : Req) (target : Nat) (c : Instr),
    (target, c) ∈ [(1, Instr.powerRequestP1 rq), (2, Instr.powerRequestP2 rq), (3, Instr.powerRequestP3 rq)] →
    accepts s.dev rq Obj.powerRequest target = true →
    ∃ t, exec c s = .next t ∧
      (s.dev.pwr.hold = true → AnsweredWrite t.dev rq Obj.powerRequest St.busy ∧ OnlyControl s.dev t.dev) ∧
      (s.dev.pwr.hold = false → ∀ u, s.dev.pwr.step.target = some u → u ≠ target →
        AnsweredWrite t.dev rq Obj.powerRequest St.pending ∧
        t.dev.pwr.latched = some (target, if (portOf rq).isNone then 4 else 0) ∧ t.dev.pwr.step = s.dev.pwr.step) ∧
      (s.dev.pwr.hold = false → s.dev.pwr.step = .steady →
        (s.dev.powerState = target ∨ target = 1 ∧ s.dev.powerState = 0 →
          AnsweredWrite t.dev rq Obj.powerRequest St.ok ∧ OnlyControl s.dev t.dev) ∧
        (2 ≤ target → s.dev.powerState ≠ target → s.dev.powerState ≠ 3 → s.dev.inUse 0 = true →
          AnsweredWrite t.dev rq Obj.powerRequest St.childInUse ∧ OnlyControl s.dev t.dev) ∧
        (2 ≤ target → s.dev.powerState ≠ target → s.dev.powerState ≠ 3 → s.dev.inUse 0 = false →
          (s.dev.ms.dir.any (fun e => e.2.move != .settled) = true ∨ s.dev.get Obj.stillState ≠ 0 ∨ s.dev.dmaBusy = true) →
          AnsweredWrite t.dev rq Obj.powerRequest St.busy ∧ OnlyControl s.dev t.dev) ∧
        (2 ≤ target → s.dev.powerState ≤ 1 → s.dev.inUse 0 = false → s.dev.get Obj.stillState = 0 → s.dev.dmaBusy = false →
          s.dev.ms.dir.any (fun e => e.2.move != .settled) = false →
          AnsweredWrite t.dev rq Obj.powerRequest St.pending ∧ t.dev.get Obj.powerTransition = 1 ∧
          (s.dev.fillerHolds = true → t.dev.pwr.step = (if target = 2 then .p2WaitFiller else .p3WaitFiller)) ∧
          (s.dev.fillerHolds = false → t.dev.pwr.step = .saving target ∧ t.dev.pwr.hbmSelf = true ∧
            ∀ l, l < 96 → (t.dev.link l).state = .down)) ∧
        (target = 1 → s.dev.powerState = 2 → AnsweredWrite t.dev rq Obj.powerRequest St.pending ∧
          t.dev.get Obj.powerTransition = 3 ∧ t.dev.pwr.step = .railDelay 0xC 2) ∧
        (target = 1 → s.dev.powerState = 3 → AnsweredWrite t.dev rq Obj.powerRequest St.pending ∧
          t.dev.get Obj.powerTransition = 3 ∧ t.dev.get Obj.wakeCause = (if (portOf rq).isNone then 4 else 0) ∧
          t.dev.pwr.step = .railWait 1 3 ∧ t.dev.pwr.pwrEn = s.dev.pwr.pwrEn ||| 1))) ∧
  (∀ (s : State) (rq : Req), accepts s.dev rq Obj.powerRequest 1 = true → s.dev.pwr.hold = false →
    s.dev.pwr.step = .steady → s.dev.powerState = 3 →
    ∃ t, exec (.powerRequestP1 rq) s = .next t ∧ AnsweredWrite t.dev rq Obj.powerRequest St.pending ∧
      t.dev.get Obj.powerTransition = 3 ∧ t.dev.pwr.step = .railWait 1 3) ∧
  (∀ (s : State) (rq : Req), accepts s.dev rq Obj.powerRequest 2 = true → s.dev.pwr.hold = false →
    s.dev.pwr.step = .steady → s.dev.powerState ≤ 1 → s.dev.inUse 0 = false → s.dev.get Obj.stillState = 0 →
    s.dev.dmaBusy = false → s.dev.ms.dir.any (fun e => e.2.move != .settled) = false → s.dev.fillerHolds = false →
    ∃ t, exec (.powerRequestP2 rq) s = .next t ∧ AnsweredWrite t.dev rq Obj.powerRequest St.pending ∧
      t.dev.get Obj.powerTransition = 1 ∧ t.dev.pwr.step = .saving 2) ∧
  (∀ (s : State) (rq : Req), accepts s.dev rq Obj.powerRequest 3 = true → s.dev.pwr.hold = false →
    s.dev.pwr.step = .steady → s.dev.powerState ≤ 1 → s.dev.inUse 0 = false → s.dev.get Obj.stillState = 0 →
    s.dev.dmaBusy = false → s.dev.ms.dir.any (fun e => e.2.move != .settled) = false → s.dev.fillerHolds = false →
    ∃ t, exec (.powerRequestP3 rq) s = .next t ∧ AnsweredWrite t.dev rq Obj.powerRequest St.pending ∧
      t.dev.get Obj.powerTransition = 1 ∧ t.dev.pwr.step = .saving 3) ∧
  (∀ (s : State) (samples : Nat),
    (samples < 500 ∨ s.dev.powerState ≠ 3 ∧ s.dev.pwr.step.target ≠ some 3 → exec (.wakeReq samples) s = .next s) ∧
    (500 ≤ samples → s.dev.powerState = 3 → s.dev.pwr.hold = false → s.dev.pwr.step = .steady →
      ∃ t, exec (.wakeReq samples) s = .next t ∧ t.dev.get Obj.powerTransition = 3 ∧ t.dev.get Obj.wakeCause = 1 ∧
        t.dev.pwr.step = .railWait 1 3 ∧ t.dev.pwr.pwrEn = s.dev.pwr.pwrEn ||| 1)) ∧
  (∀ s : State,
    ((∀ u, s.dev.pwr.step ≠ .saving u) → exec .retentionSave s = .next s) ∧
    (s.dev.pwr.step = .saving 2 →
      ∃ t, exec .retentionSave s = .next t ∧ t.dev.pwr.retained = some 2 ∧ t.dev.pwr.step = .railsOff 2 0 ∧
        t.dev.pwr.pwrEn = s.dev.pwr.pwrEn - (s.dev.pwr.pwrEn &&& 0x1E0)) ∧
    (s.dev.pwr.step = .saving 3 →
      ∃ t, exec .retentionSave s = .next t ∧ t.dev.pwr.retained = some 3 ∧ t.dev.pwr.step = .idling ∧
        t.dev.pwr.pwrEn = s.dev.pwr.pwrEn)) ∧
  (∀ s : State,
    (s.dev.pwr.step = .steady → s.dev.boot.partsStarted = true → exec .powerSequenceDelay s = .next s) ∧
    (s.dev.pwr.step = .idling →
      ∃ t, exec .powerSequenceDelay s = .next t ∧ t.dev.pwr.step = .railsOff 3 0 ∧ t.dev.pwr.ddrSelf = true ∧
        t.dev.pwr.pwrEn = s.dev.pwr.pwrEn - (s.dev.pwr.pwrEn &&& 0x1E0) ∧ ∀ p, p ≤ 1 → (t.dev.port p).linkUp = false) ∧
    (∀ k mask, (k, mask) ∈ [(0, 0x10), (1, 0xC), (2, 2)] → s.dev.pwr.step = .railsOff 3 k →
      ∃ t, exec .powerSequenceDelay s = .next t ∧ t.dev.pwr.step = .railsOff 3 (k + 1) ∧
        t.dev.pwr.pwrEn = s.dev.pwr.pwrEn - (s.dev.pwr.pwrEn &&& mask)) ∧
    (∀ target k mask, (target, k, mask) ∈ [(2, 0, 0x10), (3, 3, 1)] → s.dev.pwr.step = .railsOff target k →
      s.dev.pwr.latched = none → s.dev.boot.partsStarted = true →
      ∃ t, exec .powerSequenceDelay s = .next t ∧ t.dev.pwr.step = .steady ∧ t.dev.powerState = target ∧
        t.dev.get Obj.powerTransition = 0 ∧ t.dev.pwr.pwrEn = s.dev.pwr.pwrEn - (s.dev.pwr.pwrEn &&& mask) ∧
        (∀ n, n ∈ [0, 1, 2, 3, 4, 5, 8] → (t.dev.domain n).running = false) ∧ t.dev.ms = s.dev.ms) ∧
    (∀ mask next p, (mask, next) ∈ [(1, 2), (2, 0xC), (0xC, 0x10), (0x10, 0x1E0)] → s.dev.pwr.step = .railDelay mask p →
      (s.dev.pwr.pwrGood &&& next = 0 →
        ∃ t, exec .powerSequenceDelay s = .next t ∧ t.dev.pwr.step = .railWait next p ∧
          t.dev.pwr.pwrEn = s.dev.pwr.pwrEn ||| next ∧
          (mask = 0x10 → ∀ die, die ≤ 3 → tget t.dev.pwr.railMv die = some (s.dev.voltage die 0)))) ∧
    (∀ p, s.dev.pwr.step = .railDelay 0x1E0 p → p ≠ 4 →
      ∃ t, exec .powerSequenceDelay s = .next t ∧ t.dev.pwr.step = .qualifying p ∧
        (∀ die, die ≤ 3 → t.dev.level die = 0) ∧ ∀ n, n < 13 → (t.dev.domain n).running = true)) ∧
  (∀ (s : State) (b : Nat),
    (8 < b → exec (.pwrGoodRise b) s = .next s) ∧
    (b ≤ 8 → ∃ t, exec (.pwrGoodRise b) s = .next t ∧ t.dev.pwr.pwrGood = setBit s.dev.pwr.pwrGood b ∧
      bit t.dev.pwr.faulted b = false ∧ t.dev.pwr.pwrEn = s.dev.pwr.pwrEn ∧
      ∀ mask p, s.dev.pwr.step = .railWait mask p →
        t.dev.pwr.step = if setBit s.dev.pwr.pwrGood b &&& mask = mask then .railDelay mask p else .railWait mask p)) ∧
  (∀ s : State,
    ((∀ mask p, s.dev.pwr.step ≠ .railWait mask p) → exec .pgTimeout s = .next s) ∧
    (∀ mask p off, (p, off) ∈ [(2, 0x1F0), (3, 0x1FF)] → s.dev.pwr.step = .railWait mask p → s.dev.pwr.latched = none →
      ∃ t, exec .pgTimeout s = .next t ∧ t.dev.pwr.step = .steady ∧ t.dev.get Obj.powerTransition = 0 ∧
        t.dev.powerState = s.dev.powerState ∧ t.dev.pwr.pwrEn = s.dev.pwr.pwrEn - (s.dev.pwr.pwrEn &&& off) ∧
        t.dev.get Obj.regulatorFaults = (s.dev.get Obj.regulatorFaults + 1) % 2 ^ 64)) ∧
  (∀ (s : State) (mv node feed : Nat),
    (∃ t, exec .porNAssert s = .next t ∧ t.dev.pwr.pwrEn = 0 ∧ t.dev.ms = {} ∧ t.dev.ctl = {} ∧ t.dev.run = {} ∧
      t.dev.sec.fuseA = s.dev.sec.fuseA ∧ t.dev.sec.spiSlotA = s.dev.sec.spiSlotA ∧ t.dev.sec.spiSlotB = s.dev.sec.spiSlotB ∧
      t.dev.out = s.dev.out) ∧
    (mv < 650 → exec (.vddAonDetect mv) s = exec .porNAssert s ∧
      ∃ t, exec (.vddAonDetect mv) s = .next t ∧ t.dev.pwr.pwrEn = 0 ∧ t.dev.ms = {} ∧ t.dev.ctl = {} ∧ t.dev.run = {}) ∧
    (650 ≤ mv → exec (.vddAonDetect mv) s = .next s) ∧
    (s.dev.boot.porHigh = true → exec (.porNRelease node feed) s = .next s) ∧
    (s.dev.boot.porHigh = false →
      ∃ t, exec (.porNRelease node feed) s = .next t ∧ t.dev.boot.porHigh = true ∧ t.dev.ctl.nodeId = node % 64 ∧
        t.dev.ctl.feedId = feed % 16 ∧ t.dev.get Obj.nodeId = node % 64 ∧ t.dev.get Obj.feedId = feed % 16 ∧
        (t.dev.domain 12).running = true ∧ t.dev.ms = s.dev.ms))

/-! ### Coolant control and facility draw (chapter 15) -/

/-- The governor's inputs (R427 to R430, R437). A part's junction is its highest valid sensor; one at 110 °C or above is a
thermal trip, a clock hold, and none leaves the clocks alone. A thermistor's temperature follows from the mean of its samples,
and its fault bit from the limits; the flow from the pulse span, and its loss reads 0. The envelope's bits follow the readings.
The heat check counts the seconds apart, and the tenth sets its bit.
The model's own readings in it: log entries 13, 73. -/
def Obligations.SensorsFeedTheGovernor : Prop :=
  (∀ (s : State) (parts : List (List Int)) (hbm : List Int),
    ∃ t, exec (.dieSensorSample parts hbm) s = .next t ∧ t.dev.ms = s.dev.ms ∧
      (∀ p v, p < 4 → maxInts ((validSensors (parts.getD p [])).map (·.2)) = some v →
        t.dev.get (Obj.dieTempCd + p) = fMilli v ∧ tget t.dev.gov.junction p = some (fMilli v)) ∧
      ((∃ p, p < 7 ∧ ∃ x ∈ validSensors (parts.getD p []), 110000 ≤ x.2) → s.dev.gov.trip = false →
        t.dev.gov.trip = true ∧ t.dev.pwr.hold = true) ∧
      ((∀ p, p < 7 → ∀ x ∈ validSensors (parts.getD p []), x.2 < 110000) →
        t.dev.gov.trip = s.dev.gov.trip ∧ t.dev.pwr = s.dev.pwr)) ∧
  (∀ (s : State) (i o : Nat),
    ∃ t, exec (.thermistorSample i o) s = .next t ∧ t.dev.ms = s.dev.ms ∧ t.dev.pwr = s.dev.pwr ∧
      ∀ b key raw old, (b, key, raw, old) ∈ [(0, Obj.thInC, i, s.dev.gov.thInOhm), (1, Obj.thOutC, o, s.dev.gov.thOutOhm)] →
        let xs := (raw :: old).take 16
        let bad := decide (400000000 * xs.length < xs.sum) || decide (xs.sum < 200000 * xs.length)
        bit (t.dev.get Obj.sensorStatus) b = bad ∧
          t.dev.get key = if bad then s.dev.get key else s.dev.thermistorC (fOfFrac xs.sum (1000 * xs.length))) ∧
  (∀ s : State,
    ∃ t, exec .coolantEnvelope s = .next t ∧ OnlyControl s.dev t.dev ∧
      bit (t.dev.get Obj.sensorStatus) 3 = (flt (s.dev.get Obj.thInC) 0x41700000 || flt 0x42340000 (s.dev.get Obj.thInC)) ∧
      bit (t.dev.get Obj.sensorStatus) 4 = (flt (s.dev.get Obj.flowLpm) 0x3FC00000 || flt 0x40800000 (s.dev.get Obj.flowLpm)) ∧
      ValuesKept s.dev t.dev [Obj.sensorStatus]) ∧
  (∀ s : State,
    let heat := fmul (fmul (s.dev.get Obj.coolantHeatCap) (fdiv (s.dev.get Obj.flowLpm) (fOfInt 60)))
      (fsub (s.dev.get Obj.thOutC) (s.dev.get Obj.thInC))
    let draw := meanW (s.dev.gov.draws.take 1000)
    (flt (fmul draw 0x3E800000) (fAbs (fsub heat draw)) = true →
      ∃ t, exec .coolantHeatCheck s = .next t ∧ t.dev.gov.mismatchS = s.dev.gov.mismatchS + 1 ∧
        (s.dev.gov.mismatchS = 9 → bit (t.dev.get Obj.sensorStatus) 5 = true ∧
          t.dev.get Obj.eventsRaised = (s.dev.get Obj.eventsRaised + 1) % 2 ^ 64) ∧
        (s.dev.gov.mismatchS ≠ 9 → t.dev.ctl = s.dev.ctl) ∧ t.dev.pwr = s.dev.pwr) ∧
    (flt (fmul draw 0x3E800000) (fAbs (fsub heat draw)) = false →
      ∃ t, exec .coolantHeatCheck s = .next t ∧ t.dev = { s.dev with gov := { s.dev.gov with mismatchS := 0 } })) ∧
  (∀ (s : State) (us : Nat),
    (us = 0 → exec (.flowPulse us) s = .next s) ∧
    (us ≠ 0 →
      ∃ t, exec (.flowPulse us) s = .next t ∧ bit (t.dev.get Obj.sensorStatus) 2 = false ∧
        t.dev.get Obj.flowLpm = fdiv (fOfInt 960) (fmul (fOfFrac us 1000000) (s.dev.get Obj.flowKPerL)) ∧
        ValuesKept s.dev t.dev [Obj.flowLpm, Obj.sensorStatus]) ∧
    (∃ t, exec .flowTimeout s = .next t ∧ t.dev.get Obj.flowLpm = 0 ∧ bit (t.dev.get Obj.sensorStatus) 2 = true ∧
      OnlyControl s.dev t.dev))

/-- One millisecond of the governor (R431, R433, R435, R438, R441, R485). While its component loads it holds its controls
with the valve open. The model temperature follows R431 in FP32, one rounding an operation (log entry 13). The valve takes the
first row of R433 that applies. A die at the junction limit runs at L0 with at most 250 per mille of its issue slots in P0, any
other with at most 1,000. In P1 the state turns to P0 when a stage is bound.
The model's own readings in it: log entries 13, 74. -/
def Obligations.GovernorRunsEachMillisecond : Prop :=
  (∀ s : State, s.dev.sec.liveUpdate.map (fun y => y.1) = some 2 →
    ∃ t, exec .governorTick s = .next t ∧ t.dev = s.dev.put Obj.valveDuty 1000) ∧
  (∀ s : State, s.dev.sec.liveUpdate.map (fun y => y.1) ≠ some 2 →
    ∃ t, exec .governorTick s = .next t ∧
      (s.dev.gov.junction ≠ [] →
        t.dev.get Obj.modelTempC =
          let tm := s.dev.gov.tModel.getD (s.dev.get Obj.junctionMaxC)
          let r := s.dev.plateR (if bit (s.dev.get Obj.sensorStatus) 2 then f0_1 else s.dev.get Obj.flowLpm)
          fadd tm (fdiv (fmul (fsub (s.dev.get Obj.drawW) (fdiv (fsub tm (s.dev.get Obj.thInC)) r)) f0_001)
            (s.dev.get Obj.modelCJPerK))) ∧
      (s.dev.pwr.hold = true ∨ s.dev.gov.trip = true ∨ bits (s.dev.get Obj.sensorStatus) 0 3 ≠ 0 →
        t.dev.get Obj.valveDuty = 1000) ∧
      (s.dev.pwr.hold = false → s.dev.gov.trip = false → bits (s.dev.get Obj.sensorStatus) 0 3 = 0 →
        (s.dev.get Obj.valveOverride ≠ 0xFFFF → t.dev.get Obj.valveDuty = s.dev.get Obj.valveOverride) ∧
        (s.dev.get Obj.valveOverride = 0xFFFF → s.dev.powerState = 2 ∨ s.dev.powerState = 3 →
          t.dev.get Obj.valveDuty = s.dev.get Obj.valveIdlePml)) ∧
      (∀ die, die ≤ 3 → s.dev.gov.junction ≠ [] → fle 0x42D20000 (s.dev.dieMeasured die) = true →
        t.dev.get (Obj.govDvfsLimitCd + die) = 0 ∧
        (s.dev.powerState = 0 → bits (t.dev.get Obj.pacePmlCd) (16 * die) 16 ≤ 250)) ∧
      (∀ die, die ≤ 3 → s.dev.powerState = 0 → bits (t.dev.get Obj.pacePmlCd) (16 * die) 16 ≤ 1000) ∧
      (s.dev.powerState = 1 → t.dev.get Obj.fillerW = 0 ∧ t.dev.powerState = if s.dev.stages = [] then 1 else 0) ∧
      t.dev.stages = s.dev.stages)

/-! ### Fuses, boot trust and attestation (chapter 16), start-up (chapter 17) -/

/-- Images, slots and fuses (R446, R449 to R453, R457). Differing fuse copies stop boot; equal ones give the identity key, the
values in effect and the first rail. Boot takes the preferred slot where it is valid and not worn out, else the other, else it
stops. FW_UPDATE writes its slot only where every check passes. PREFERRED_SLOT names only a valid slot, which begins its trial.
ROLLBACK_COMMIT never lowers the counter and reaches its value in both banks. DEBUG_UNLOCK needs a SERVICE session, no lock
and no work, and erases the identity key.
The model's own readings in it: log entry 75. -/
def Obligations.ImagesAreCheckedBeforeUse : Prop :=
  (∀ s : State,
    (s.dev.boot.porHigh = false ∨ s.dev.boot.fusesRead = true ∨ s.dev.sec.bootFailed = true → exec .fuseDualRead s = .next s) ∧
    (s.dev.boot.porHigh = true → s.dev.boot.fusesRead = false → s.dev.sec.bootFailed = false →
      (s.dev.sec.fuseA ≠ s.dev.sec.fuseB →
        ∃ t, exec .fuseDualRead s = .next t ∧
          t.dev = { s.dev with sec := { s.dev.sec with bootFailed := true, failure := 1 } }) ∧
      (s.dev.sec.fuseA = s.dev.sec.fuseB →
        ∃ t, exec .fuseDualRead s = .next t ∧ t.dev.boot.fusesRead = true ∧ t.dev.sec.fuses = s.dev.sec.fuseA ∧
          t.dev.sec.publicKey = edPublic (identityOf s.dev.sec.fuseA.seed) ∧
          (s.dev.sec.fuseA.debugLock ≠ 0 → s.dev.sec.debugOpen = false →
            t.dev.sec.identity = some (identityOf s.dev.sec.fuseA.seed)) ∧
          (s.dev.sec.fuseA.debugLock = 0 → t.dev.sec.identity = none ∧ t.dev.sec.debugOpen = true) ∧
          (bcrGood s.dev.sec.spiBcr0 = false → bcrGood s.dev.sec.spiBcr1 = false →
            t.dev.sec.preferred = 0 ∧ t.dev.sec.trial = false ∧ t.dev.sec.bootEpoch = 1) ∧
          (bit s.dev.pwr.pwrGood 0 = false → t.dev.pwr.step = .railWait 1 4 ∧ bit t.dev.pwr.pwrEn 0 = true)))) ∧
  (∀ s : State,
    (s.dev.boot.fusesRead = false ∨ s.dev.boot.slotChecked = true ∨ s.dev.sec.bootFailed = true →
      exec .bootSlotChecked s = .next s) ∧
    (s.dev.boot.fusesRead = true → s.dev.boot.slotChecked = false → s.dev.sec.bootFailed = false →
      (s.dev.slotCheck s.dev.sec.preferred = 0 → (s.dev.sec.trial && decide (3 ≤ s.dev.sec.tries)) = false →
        ∃ t, exec .bootSlotChecked s = .next t ∧ t.dev.boot.slotChecked = true ∧
          t.dev.sec.runningSlot = s.dev.sec.preferred ∧ t.dev.sec.fallback = s.dev.sec.fallback) ∧
      (s.dev.slotCheck s.dev.sec.preferred ≠ 0 ∨ (s.dev.sec.trial && decide (3 ≤ s.dev.sec.tries)) = true →
        (s.dev.slotCheck (1 - s.dev.sec.preferred) = 0 →
          ∃ t, exec .bootSlotChecked s = .next t ∧ t.dev.boot.slotChecked = true ∧ t.dev.sec.fallback = true ∧
            t.dev.sec.runningSlot = 1 - s.dev.sec.preferred ∧ t.dev.sec.trial = false) ∧
        (s.dev.slotCheck (1 - s.dev.sec.preferred) ≠ 0 →
          ∃ t, exec .bootSlotChecked s = .next t ∧ t.dev.sec.bootFailed = true ∧ t.dev.boot.slotChecked = false)))) ∧
  (∀ (s : State) (rq : Req) (v : Nat), accepts s.dev rq Obj.fwUpdate v = true →
    ∃ t, exec (.fwUpdate rq v) s = .next t ∧ t.dev.sec.spiSlotA = s.dev.sec.spiSlotA ∧
      t.dev.sec.spiSlotB = s.dev.sec.spiSlotB ∧ t.dev.ms = s.dev.ms ∧
      (∀ st, s.dev.fwUpdateAtOnce v = some st → AnsweredWrite t.dev rq Obj.fwUpdate st ∧
        t.dev.sec.fwUpdate = s.dev.sec.fwUpdate) ∧
      (s.dev.entry (bits v 0 32) = none → AnsweredWrite t.dev rq Obj.fwUpdate St.range) ∧
      (s.dev.fwUpdateAtOnce v = none → AnsweredWrite t.dev rq Obj.fwUpdate St.pending ∧
        t.dev.sec.fwUpdate = some (bits v 0 32, bits v 32 1))) ∧
  (∀ (s : State) (same : Bool),
    (s.dev.sec.fwUpdate = none → exec (.fwUpdateDone same) s = .next s) ∧
    (∀ h slot e, s.dev.sec.fwUpdate = some (h, slot) → s.dev.entry h = some e → e.lost = false → s.dev.readable h = true →
      (imageCheck s.dev.sec.fuses (s.dev.imageIn h) = 0 → Image.bytes (s.dev.imageIn h) ≤ e.size * blockBytes → same = true →
        ∃ t, exec (.fwUpdateDone same) s = .next t ∧ t.dev.slotImage slot = s.dev.imageIn h ∧ t.dev.sec.fwUpdate = none ∧
          ∀ k, k ≠ slot → k ≤ 1 → slot ≤ 1 → t.dev.slotImage k = s.dev.slotImage k) ∧
      (imageCheck s.dev.sec.fuses (s.dev.imageIn h) ≠ 0 ∨ e.size * blockBytes < Image.bytes (s.dev.imageIn h) ∨ same = false →
        ∃ t, exec (.fwUpdateDone same) s = .next t ∧ t.dev.sec.spiSlotA = s.dev.sec.spiSlotA ∧
          t.dev.sec.spiSlotB = s.dev.sec.spiSlotB ∧ t.dev.sec.fwUpdate = none))) ∧
  (∀ (s : State) (rq : Req) (v : Nat), accepts s.dev rq Obj.preferredSlot v = true →
    ∃ t, exec (.preferredSlot rq v) s = .next t ∧
      (1 < v ∨ s.dev.slotCheck v ≠ 0 → AnsweredWrite t.dev rq Obj.preferredSlot St.range ∧ OnlyControl s.dev t.dev) ∧
      (v ≤ 1 → s.dev.slotCheck v = 0 → AnsweredWrite t.dev rq Obj.preferredSlot St.ok ∧ t.dev.sec.preferred = v ∧
        t.dev.sec.trial = true ∧ t.dev.sec.tries = 0)) ∧
  (∀ (s : State) (rq : Req) (v a b : Nat), accepts s.dev rq Obj.rollbackCommit v = true →
    ∃ t, exec (.rollbackCommit rq v a b) s = .next t ∧
      (64 < v ∨ s.dev.runningSvn < v →
        AnsweredWrite t.dev rq Obj.rollbackCommit St.range ∧ OnlyControl s.dev t.dev) ∧
      (v ≤ 64 → v ≤ s.dev.runningSvn →
        (v < antiRollbackOf s.dev.sec.fuses →
          AnsweredWrite t.dev rq Obj.rollbackCommit St.rollback ∧ OnlyControl s.dev t.dev) ∧
        (v = antiRollbackOf s.dev.sec.fuses →
          AnsweredWrite t.dev rq Obj.rollbackCommit St.ok ∧ OnlyControl s.dev t.dev) ∧
        (antiRollbackOf s.dev.sec.fuses < v →
          (a % 2 ^ 64 ||| s.dev.sec.fuseA.rollback = b % 2 ^ 64 ||| s.dev.sec.fuseB.rollback →
            popCount (a % 2 ^ 64 ||| s.dev.sec.fuseA.rollback) 64 = v →
            AnsweredWrite t.dev rq Obj.rollbackCommit St.ok ∧ antiRollbackOf t.dev.sec.fuses = v) ∧
          (a % 2 ^ 64 ||| s.dev.sec.fuseA.rollback ≠ b % 2 ^ 64 ||| s.dev.sec.fuseB.rollback →
            t.dev.sec.failure = 1 ∧ t.dev.sec.fuses = s.dev.sec.fuses)))) ∧
  (∀ (s : State) (rq : Req) (v : Nat), accepts s.dev rq Obj.debugUnlock v = true →
    ∃ t, exec (.debugUnlock rq v) s = .next t ∧
      (v ≠ 1 → AnsweredWrite t.dev rq Obj.debugUnlock St.range ∧ OnlyControl s.dev t.dev) ∧
      (v = 1 → 2 ≤ s.dev.sec.fuses.debugLock ∨ s.dev.roleOf rq ≠ some 2 →
        AnsweredWrite t.dev rq Obj.debugUnlock St.role ∧ OnlyControl s.dev t.dev) ∧
      (v = 1 → s.dev.sec.fuses.debugLock < 2 → s.dev.roleOf rq = some 2 →
        (s.dev.runState ≠ 0 ∨ s.dev.anyStream = true →
          AnsweredWrite t.dev rq Obj.debugUnlock St.busy ∧ OnlyControl s.dev t.dev) ∧
        (s.dev.runState = 0 → s.dev.anyStream = false → s.dev.sec.debugOpen = false →
          AnsweredWrite t.dev rq Obj.debugUnlock St.ok ∧ t.dev.sec.debugOpen = true ∧ t.dev.sec.identity = none ∧
          t.dev.get Obj.debugState = 1)))

/-- SPDM on the DOE mailboxes (R458, R459; the codes are the SPDM standard's, log entry 14). A port whose link is down answers
nothing. GET_VERSION offers 1.2 and 1.3 and begins a connection, which GET_CAPABILITIES and NEGOTIATE_ALGORITHMS carry on; a
request out of that order is UnexpectedRequest. Slot 0 holds the chain, in portions. CHALLENGE and a signed GET_MEASUREMENTS
carry the identity key's signature, and ERROR Unspecified while the debug port is open. An absent block is InvalidRequest, any
other request UnsupportedRequest. -/
def Obligations.AttestationAnswers : Prop :=
  (∀ (s : State) (p : Nat) (c : Instr), 1 < p ∨ (s.dev.port p).linkUp = false →
    (c = .getVersion p ∨ c = .getCapabilities p ∨ (∃ a h, c = .negotiateAlgorithms p a h) ∨ c = .getDigests p ∨
      (∃ a b l, c = .getCertificate p a b l) ∨ (∃ a b, c = .challenge p a b) ∨ (∃ i g b, c = .getMeasurements p i g b) ∨
      ∃ k, c = .spdmUnsupportedRequest p k) → exec c s = .next s) ∧
  (∀ (s : State) (p : Nat), p ≤ 1 → (s.dev.port p).linkUp = true →
    (∃ t, exec (.getVersion p) s = .next t ∧ (t.dev.port p).spdm = .version ∧
      t.dev.out = .doe p Spdm.version [0x12, 0x13] :: s.dev.out) ∧
    ((s.dev.port p).spdm = .version →
      ∃ t, exec (.getCapabilities p) s = .next t ∧ (t.dev.port p).spdm = .capabilities ∧
        t.dev.out = .doe p Spdm.capabilities (leBytes 4 0x36) :: s.dev.out) ∧
    ((s.dev.port p).spdm = .capabilities → ∀ a h,
      ∃ t, exec (.negotiateAlgorithms p a h) s = .next t ∧ (t.dev.port p).spdm = .algorithms ∧
        t.dev.out = .doe p Spdm.algorithms (leBytes 4 (a &&& 0x400) ++ leBytes 4 (h &&& 0x4)) :: s.dev.out) ∧
    (∀ k, ∃ t, exec (.spdmUnsupportedRequest p k) s = .next t ∧
      t.dev = { s.dev with out := .doe p Spdm.error [7, BitVec.ofNat 8 k] :: s.dev.out }) ∧
    ((s.dev.port p).spdm ≠ .algorithms → ∀ (c : Instr),
      (c = .getDigests p ∨ (∃ a b l, c = .getCertificate p a b l) ∨ (∃ a b, c = .challenge p a b) ∨
        ∃ i g b, c = .getMeasurements p i g b) →
      exec c s = .next { s with dev := s.dev.doeError p Spdm.unexpectedRequest }) ∧
    ((s.dev.port p).spdm = .algorithms →
      (∃ t, exec (.getDigests p) s = .next t ∧ t.dev = { s.dev with
        out := .doe p Spdm.digests (if s.dev.sec.certOk then 1 :: sha512 s.dev.spdmChain else [0]) :: s.dev.out }) ∧
      (∀ slot off len, slot ≠ 0 ∨ s.dev.sec.certOk = false ∨ s.dev.spdmChain.length ≤ off →
        exec (.getCertificate p slot off len) s = .next { s with dev := s.dev.doeError p Spdm.invalidRequest }) ∧
      (∀ off len, s.dev.sec.certOk = true → off < s.dev.spdmChain.length →
        ∃ t, exec (.getCertificate p 0 off len) s = .next t ∧ t.dev = { s.dev with
          out := .doe p Spdm.certificate
            (leBytes 2 (min len (s.dev.spdmChain.length - off)) ++
              leBytes 2 (s.dev.spdmChain.length - off - min len (s.dev.spdmChain.length - off)) ++
              (s.dev.spdmChain.drop off).take len) :: s.dev.out }) ∧
      (∀ key m, s.dev.sec.certOk = true → s.dev.ctl.serving = true → s.dev.sec.debugOpen = false →
        s.dev.sec.signFailed = false → s.dev.sec.identity = some key →
        edVerify s.dev.sec.publicKey m (edSign key m) = true →
        (∃ t, exec (.challenge p 0 m) s = .next t ∧
          t.dev.out = .doe p Spdm.challengeAuth (edSign key m) :: s.dev.out ∧
          t.dev.get Obj.signatures = (s.dev.get Obj.signatures + 1) % 2 ^ 64) ∧
        (∀ i b, s.dev.measured i = some b →
          ∃ t, exec (.getMeasurements p i true m) s = .next t ∧
            t.dev.out = .doe p Spdm.measurements (b ++ edSign key m) :: s.dev.out)) ∧
      (∀ i m b, s.dev.measured i = some b →
        (∃ t, exec (.getMeasurements p i false m) s = .next t ∧
          t.dev = { s.dev with out := .doe p Spdm.measurements b :: s.dev.out }) ∧
        (s.dev.ctl.serving = true → s.dev.sec.debugOpen = true →
          exec (.getMeasurements p i true m) s = .next { s with dev := s.dev.doeError p Spdm.unspecified })) ∧
      (∀ i g m, 12 ≤ i → i ≤ 254 →
        exec (.getMeasurements p i g m) s = .next { s with dev := s.dev.doeError p Spdm.invalidRequest }))) ∧
  (∀ d : Device, d.measured 11 = some (leBytes 64 (d.get Obj.logHead)) ∧
    d.measured 10 = some (leBytes 64 (if d.armed then d.get Obj.recipeDigest else 0)) ∧
    d.measured 1 = some (sha512 d.sec.hubRom))

/-- From power-on to readiness (R472 to R477) and at a wake (R421). Each part's training acts only at its own step: D2D, then
HBM and DDR-5; what did not train is lost; the slow tier is zeroed part by part; the self-test retires what failed and says so
in SELFTEST_STATUS; readiness stores the counter and ends a trial. At a wake the last training leads to P1. DEVICE_RESET
accepts only the value 1 on an idle device; the reset keeps the counters since power-on, and held BOOT values take effect and
stay held.
The model's own readings in it: log entry 77. -/
def Obligations.StartUpReachesReadiness : Prop :=
  (∀ (s : State) (trained : Nat), (∀ m, m < 46 → bit trained m = true) →
    ((∀ p a b, s.dev.pwr.step ≠ .training p a b) →
      ((s.dev.ctl.serving = false ∨ s.dev.boot.partsStarted = false ∨ s.dev.boot.trained = true) →
        exec (.d2dTrainingDone trained) s = .next s) ∧
      (s.dev.ctl.serving = true → s.dev.boot.partsStarted = true → s.dev.boot.trained = false →
        ∃ t, exec (.d2dTrainingDone trained) s = .next t ∧
          t.dev = { s.dev with boot := { s.dev.boot with trained := true } })) ∧
    (∀ p a, s.dev.pwr.step = .training p a false →
      ∃ t, exec (.d2dTrainingDone trained) s = .next t ∧ t.dev = s.dev.setStep (.training p true false)) ∧
    (∀ p a, s.dev.pwr.step = .training p a true → s.dev.pwr.latched = none →
      ∃ t, exec (.d2dTrainingDone trained) s = .next t ∧ t.dev.powerState = 1 ∧ t.dev.get Obj.powerTransition = 0 ∧
        t.dev.pwr.step = .steady ∧ t.dev.pwr.hbmSelf = false ∧ t.dev.pwr.ddrSelf = false ∧ t.dev.pwr.retained = none ∧
        (s.dev.serialReady = true → ∀ l, l < 96 → (t.dev.link l).state = .training) ∧
        (s.dev.serialReady = false → ∀ l, l < 96 → l ∈ t.dev.net.trainDue))) ∧
  (∀ (s : State) (trained : Nat),
    (s.dev.boot.trained = false ∨ s.dev.boot.hbmTrained = true → exec (.hbmTrainingDone trained) s = .next s) ∧
    (s.dev.boot.trained = true → s.dev.boot.hbmTrained = false →
      ∃ t, exec (.hbmTrainingDone trained) s = .next t ∧ t.dev.boot.hbmTrained = true ∧ t.dev.get Obj.deviceState = 2 ∧
        ∀ h, h < 8 → bit trained h = false → t.dev.lostUnit (2 + h) = true)) ∧
  (∀ (s : State) (ms : List Module), (∀ p a b, s.dev.pwr.step ≠ .training p a b) →
    (s.dev.boot.trained = false ∨ s.dev.boot.ddrTrained = true → exec (.ddrTrainingDone ms) s = .next s) ∧
    (s.dev.boot.trained = true → s.dev.boot.ddrTrained = false →
      ∃ t, exec (.ddrTrainingDone ms) s = .next t ∧ t.dev.boot.ddrTrained = true ∧
        t.dev.get Obj.ddrSpeedMts = channelSpeed (s.dev.get Obj.ddrSpeedLimitMts)
          ((List.range 24).map (fun ch => ms.getD ch ⟨false, false, 0, 0, false, false⟩)) ∧
        ∀ ch, ch < 24 → moduleAccepted (ms.getD ch ⟨false, false, 0, 0, false, false⟩) = false →
          bit (t.dev.get Obj.channelMap) ch = false)) ∧
  (∀ (s : State) (lap : Nat),
    (s.dev.boot.ddrTrained = false ∨ 1 < lap → exec (.slowTierZeroed lap) s = .next s) ∧
    (s.dev.boot.ddrTrained = true → lap ≤ 1 →
      ∃ t, exec (.slowTierZeroed lap) s = .next t ∧
        t.dev = { s.dev with boot := { s.dev.boot with zeroed := setBit s.dev.boot.zeroed lap } })) ∧
  (∀ (s : State) (cs ds ls : Nat),
    (s.dev.boot.hbmTrained = false ∨ s.dev.boot.ddrTrained = false ∨ s.dev.slowReady = false ∨ s.dev.boot.selfTested = true ∨
        s.dev.get Obj.selftestAtBoot ≠ 1 → exec (.selfTestDone cs ds ls) s = .next s) ∧
    (s.dev.boot.hbmTrained = true → s.dev.boot.ddrTrained = true → s.dev.slowReady = true → s.dev.boot.selfTested = false →
        s.dev.get Obj.selftestAtBoot = 1 →
      ∃ t, exec (.selfTestDone cs ds ls) s = .next t ∧ t.dev.boot.selfTested = true ∧
        t.dev.get Obj.selftestStatus =
          (if bits cs 0 68 = 0 ∧ bits ds 0 4 = 0 ∧ bits ls 0 2 = 0 then 1 else 3) ∧
        (∀ k, k < 68 → bit cs k = true → t.dev.retired (k / 17) (k % 17) = true) ∧
        (∀ die, die < 4 → bit ds die = true → t.dev.lostUnit (10 + die) = true) ∧
        (∀ l, l < 2 → bit ls l = true → t.dev.lostUnit l = true))) ∧
  (∀ s : State,
    let tested := s.dev.boot.selfTested || decide (s.dev.get Obj.selftestAtBoot = 0)
    (s.dev.boot.hbmTrained = false ∨ s.dev.boot.ddrTrained = false ∨ s.dev.slowReady = false ∨ tested = false ∨
        s.dev.boot.ready = true → exec .readiness s = .next s) ∧
    (s.dev.boot.hbmTrained = true → s.dev.boot.ddrTrained = true → s.dev.slowReady = true → tested = true →
        s.dev.boot.ready = false →
      ∃ t, exec .readiness s = .next t ∧ t.dev.boot.ready = true ∧ t.dev.get Obj.deviceState = 3 ∧
        t.dev.get Obj.readyCounter = s.dev.mono ∧ t.dev.sec.trial = false ∧
        t.dev.get Obj.eventsRaised = (s.dev.get Obj.eventsRaised + 1) % 2 ^ 64 ∧ t.dev.ms = s.dev.ms)) ∧
  (∀ (s : State) (rq : Req) (v : Nat), accepts s.dev rq Obj.deviceReset v = true →
    ∃ t, exec (.deviceReset rq v) s = .next t ∧
      (v ≠ 1 → AnsweredWrite t.dev rq Obj.deviceReset St.range ∧ OnlyControl s.dev t.dev) ∧
      (v = 1 → s.dev.isOperator rq = true → s.dev.get Obj.conductorToken ≠ 0xFF →
        portOf rq ≠ some (s.dev.get Obj.conductorToken) →
        AnsweredWrite t.dev rq Obj.deviceReset St.role ∧ OnlyControl s.dev t.dev) ∧
      (v = 1 → s.dev.isOperator rq = false ∨ s.dev.get Obj.conductorToken = 0xFF ∨
          portOf rq = some (s.dev.get Obj.conductorToken) →
        (s.dev.runState ≠ 0 ∨ s.dev.anyStream = true ∨ s.dev.sec.fwUpdate.isSome = true ∨ s.dev.sec.liveUpdate.isSome = true ∨
            s.dev.svc.tv.isSome = true ∨ s.dev.svc.job.isSome = true ∨ s.dev.get Obj.powerTransition ≠ 0 →
          AnsweredWrite t.dev rq Obj.deviceReset St.busy ∧ OnlyControl s.dev t.dev) ∧
        (s.dev.runState = 0 → s.dev.anyStream = false → s.dev.sec.fwUpdate = none → s.dev.sec.liveUpdate = none →
            s.dev.svc.tv = none → s.dev.svc.job = none → s.dev.get Obj.powerTransition = 0 →
          AnsweredWrite t.dev rq Obj.deviceReset St.ok ∧ t.dev.svc.resetDue = true))) ∧
  (∀ (s : State) (node feed : Nat),
    (s.dev.svc.resetDue = false → exec (.warmReset node feed) s = .next s) ∧
    (s.dev.svc.resetDue = true →
      ∃ t, exec (.warmReset node feed) s = .next t ∧ t.dev.boot.porHigh = true ∧ t.dev.boot.fusesRead = false ∧
        t.dev.ms = {} ∧ t.dev.run = {} ∧ t.dev.stages = [] ∧ t.dev.streams = [] ∧ t.dev.ctl.nodeId = node % 64 ∧
        t.dev.ctl.feedId = feed % 16 ∧ t.dev.sec.fuseA = s.dev.sec.fuseA ∧ t.dev.sec.debugOpen = s.dev.sec.debugOpen ∧
        t.dev.ctl.held = s.dev.ctl.held ∧ (s.dev.ctl.held = [] → ∀ k ∈ sincePowerOn, t.dev.get k = s.dev.get k) ∧
        (∀ key v, s.dev.ctl.held = [(key, v)] → key ∉ [Obj.nodeId, Obj.feedId, Obj.fieldMac, Obj.debugState] →
          t.dev.get key = v)))

/-- The management pair and the generators are watched (R235, R335, R487). A lockstep mismatch or a watchdog expiry stops a
pair that runs, or begins its restart again; the mailbox requests and segmented transfers end, and those of the field network
wait on. Its restart counts every one begun, gives
the waiting slots NOT_READY and resumes the heartbeats at 0. A probe that gives the value of its key changes nothing; one that
does not is a detected fault of the open take.
The model's own readings in it: log entry 79. -/
def Obligations.WatchersRestartThePair : Prop :=
  (∀ s : State,
    (s.dev.ctl.serving = false → s.dev.ctl.restart = none →
      exec .lockstepMismatch s = .next s ∧ exec .mgmtWatchdogExpiry s = .next s) ∧
    (s.dev.ctl.serving = true ∨ s.dev.ctl.restart.isSome = true →
      let stopped : State → Nat → Prop := fun t cause => t.dev.ctl.serving = false ∧ t.dev.ctl.restart = some cause ∧
        t.dev.ctl.restartsBegun = s.dev.ctl.restartsBegun + 1 ∧ t.dev.ctl.transfers = [] ∧
        (∀ w ∈ t.dev.ctl.waiting, portOf w.rq = none) ∧
        (s.dev.run.arm = none → t.dev.ms = s.dev.ms ∧
          t.dev.ctl.waiting = s.dev.ctl.waiting.filter (fun w => (portOf w.rq).isNone))
      (∃ t, exec .lockstepMismatch s = .next t ∧ stopped t 1) ∧
      (∃ t, exec .mgmtWatchdogExpiry s = .next t ∧ stopped t 2))) ∧
  (∀ s : State,
    (s.dev.ctl.restart = none → exec .mgmtRestartComplete s = .next s) ∧
    (∀ cause, s.dev.ctl.restart = some cause →
      ∃ t, exec .mgmtRestartComplete s = .next t ∧ t.dev.ctl.serving = true ∧ t.dev.ctl.restart = none ∧
        t.dev.ctl.restartsBegun = 0 ∧ t.dev.ctl.hbCount = 0 ∧
        t.dev.get Obj.mgmtRestarts = (s.dev.get Obj.mgmtRestarts + s.dev.ctl.restartsBegun) % 2 ^ 64 ∧
        t.dev.get Obj.eventsRaised = (s.dev.get Obj.eventsRaised + 1) % 2 ^ 64 ∧
        (∀ p k, k < 8 → (s.dev.slot p k).state = .pending ∨ (s.dev.slot p k).state = .inService →
          (t.dev.slot p k).state = .done ∧ bits (leAt (t.dev.slot p k).response 0 16) 64 16 = St.notReady) ∧
        t.dev.ms = s.dev.ms)) ∧
  (∀ (s : State) (b : GenBinding) (v : Nat), s.dev.bindings = [b] →
    (v = b.probe → exec (.generatorProbe [(0, v)]) s = .next s) ∧
    (v ≠ b.probe →
      ∃ t, exec (.generatorProbe [(0, v)]) s = .next t ∧ (s.dev.versions = [] → t.dev.ms = s.dev.ms) ∧
        ∀ k, s.dev.run.take = some k → k.latched = none →
          t.dev.run.take.map (fun k => bit k.bits Hb.detectedFault) = some true))

/-! ### Lost parts, clusters and service (chapters 11 and 17) -/

/-- Clusters (R30, R331, R479 to R482). DRAIN accepts a PLACED cluster where another is free, TEST a SPARE, DRAINED, TESTED or
RETIRED one, RETURN a TESTED one, which becomes SPARE; else RANGE, BUSY or NO_SPACE, in that order, without effect. A drain
moves the logical cluster and its stages to its target and leaves the cluster DRAINED once no work is left on it; where the
target's path is HELD it ends and moves nothing. A passed test leaves it TESTED and a failed one
retires it; a RETIRED one stays so. A fault retires a cluster, cuts the open take, whose samples run again where a stand-in is
found, and chooses the lowest free cluster of the die as the stand-in, which takes the logical cluster and its stages when the substitution completes, and does not where its
path is HELD. A drain whose target retires takes another, and ends where none is free.
The model's own readings in it: log entries 76, 117. -/
def Obligations.ClustersAreServicedAndReplaced : Prop :=
  (∀ (s : State) (rq : Req) (key : Nat), selectedCluster (s.dev.get Obj.clusterSelect) = key →
    (accepts s.dev rq Obj.clusterCommand 1 = true →
      ∃ t, exec (.clusterDrain rq) s = .next t ∧
        (s.dev.clusterState key ≠ 0 → AnsweredWrite t.dev rq Obj.clusterCommand St.range ∧ OnlyControl s.dev t.dev) ∧
        (s.dev.clusterState key = 0 → s.dev.serviceBusy = true →
          AnsweredWrite t.dev rq Obj.clusterCommand St.busy ∧ OnlyControl s.dev t.dev) ∧
        (s.dev.clusterState key = 0 → s.dev.serviceBusy = false →
          (s.dev.freeCluster (key / 17) = none →
            AnsweredWrite t.dev rq Obj.clusterCommand St.noSpace ∧ OnlyControl s.dev t.dev) ∧
          (∀ c, s.dev.freeCluster (key / 17) = some c →
            AnsweredWrite t.dev rq Obj.clusterCommand St.pending ∧ t.dev.svc.job = some ⟨key, 1, c⟩ ∧
            t.dev.get Obj.placementMap = s.dev.get Obj.placementMap ∧ t.dev.stages = s.dev.stages))) ∧
    (accepts s.dev rq Obj.clusterCommand 2 = true →
      ∃ t, exec (.clusterTest rq) s = .next t ∧
        (s.dev.clusterState key ∉ [1, 3, 5, 6] →
          AnsweredWrite t.dev rq Obj.clusterCommand St.range ∧ OnlyControl s.dev t.dev) ∧
        (s.dev.clusterState key ∈ [1, 3, 5, 6] → s.dev.serviceBusy = true →
          AnsweredWrite t.dev rq Obj.clusterCommand St.busy ∧ OnlyControl s.dev t.dev) ∧
        (s.dev.clusterState key ∈ [1, 3, 5, 6] → s.dev.serviceBusy = false →
          AnsweredWrite t.dev rq Obj.clusterCommand St.pending ∧ t.dev.svc.job.map (fun j => (j.cluster, j.command)) = some (key, 2) ∧
          t.dev.clusterState key = 4)) ∧
    (accepts s.dev rq Obj.clusterCommand 3 = true →
      ∃ t, exec (.clusterReturn rq) s = .next t ∧
        (s.dev.clusterState key ≠ 5 → AnsweredWrite t.dev rq Obj.clusterCommand St.range ∧ OnlyControl s.dev t.dev) ∧
        (s.dev.clusterState key = 5 → s.dev.serviceBusy = true →
          AnsweredWrite t.dev rq Obj.clusterCommand St.busy ∧ OnlyControl s.dev t.dev) ∧
        (s.dev.clusterState key = 5 → s.dev.serviceBusy = false →
          AnsweredWrite t.dev rq Obj.clusterCommand St.ok ∧ t.dev.clusterState key = 1))) ∧
  (∀ s : State,
    (s.dev.svc.job = none ∨ s.dev.run.take.isSome = true → exec .drainComplete s = .next s) ∧
    (∀ k c, s.dev.svc.job = some ⟨k, 1, c⟩ → k < 68 → c < 17 → s.dev.run.take = none → s.dev.stages = [] →
      s.dev.pwr.heldNodes = [] →
      ∃ t, exec .drainComplete s = .next t ∧ t.dev.placement (s.dev.logicalOf k) = c ∧ t.dev.svc.job = none ∧
        tget t.dev.svc.clusters k = some .drained) ∧
    (∀ k c, s.dev.svc.job = some ⟨k, 1, c⟩ → k < 68 → c < 17 → s.dev.run.take = none →
      (s.dev.clusterQuiet k = false → exec .drainComplete s = .next s) ∧
      (s.dev.clusterQuiet k = true → s.dev.pwr.heldNodes = [] →
        ∃ (t : State) (d : Device), exec .drainComplete s = .next t ∧ t.dev = d.settle ∧ d.placement (s.dev.logicalOf k) = c ∧ d.svc.job = none ∧
          tget d.svc.clusters k = some .drained ∧ d.ms = s.dev.ms ∧
          ∀ h x, tget s.dev.stages h = some x →
            (x.core / 8 = 32 * (s.dev.logicalOf k / 16) + s.dev.placement (s.dev.logicalOf k) →
              ∃ p, tget d.stages h = some { x with
                core := (32 * (s.dev.logicalOf k / 16) + c) * 8 + x.core % 8, pos := p, transfers := [], version := none }) ∧
            (x.core / 8 ≠ 32 * (s.dev.logicalOf k / 16) + s.dev.placement (s.dev.logicalOf k) →
              tget d.stages h = some x)) ∧
      (s.dev.clusterQuiet k = true → s.dev.rebindCluster (s.dev.logicalOf k) c = none →
        ∃ t, exec .drainComplete s = .next t ∧ t.dev.svc.job = none ∧ t.dev.stages = s.dev.stages ∧
          t.dev.placement (s.dev.logicalOf k) = s.dev.placement (s.dev.logicalOf k) ∧ t.dev.ms = s.dev.ms))) ∧
  (∀ (s : State) (pass : Bool),
    (s.dev.svc.job = none → exec (.clusterTestDone pass) s = .next s) ∧
    (∀ k c, s.dev.svc.job = some ⟨k, 2, c⟩ → k < 68 →
      ∃ t, exec (.clusterTestDone pass) s = .next t ∧ t.dev.svc.job = none ∧ t.dev.ms = s.dev.ms ∧
        (s.dev.retired (k / 17) (k % 17) = true → t.dev.svc.clusters = s.dev.svc.clusters ∧
          t.dev.retired (k / 17) (k % 17) = true) ∧
        (s.dev.retired (k / 17) (k % 17) = false →
          (pass = true → tget t.dev.svc.clusters k = some .tested ∧ t.dev.retired (k / 17) (k % 17) = false) ∧
          (pass = false → t.dev.retired (k / 17) (k % 17) = true)))) ∧
  (∀ (s : State) (die c cause : Nat),
    (3 < die ∨ 16 < c ∨ s.dev.retired die c = true → exec (.clusterFault die c cause) s = .next s) ∧
    (die ≤ 3 → c ≤ 16 → s.dev.retired die c = false →
      ∃ t, exec (.clusterFault die c cause) s = .next t ∧ t.dev.retired die c = true ∧
        (s.dev.versions = [] → t.dev.ms = s.dev.ms) ∧
        (∀ k, s.dev.run.take = some k → k.latched = none →
          (s.dev.named die c = true → (s.dev.freeCluster die).isSome = true → t.dev.run.rerun = true) ∧
          ((s.dev.named die c = false ∧ s.dev.svc.substs = []) ∨ s.dev.freeCluster die = none →
            t.dev.run.rerun = s.dev.run.rerun) ∧
          t.dev.run.take.map (fun k => k.latched.isSome && bit k.bits Hb.detectedFault) = some true) ∧
        (∀ l x, (rangeFrom (16 * die) 16).filter (fun l => s.dev.placement l == c) = [l] → s.dev.svc.substs = [] →
          s.dev.svc.job = none → s.dev.freeCluster die = some x → t.dev.svc.substs = [(l, x)]) ∧
        (∀ k, s.dev.svc.job = some ⟨k, 1, c⟩ → k / 17 = die → k ≠ 17 * die + c →
          t.dev.svc.job = (s.dev.freeCluster die).map (fun x => ⟨k, 1, x⟩)))) ∧
  (∀ s : State,
    (s.dev.svc.substs = [] → exec .substitutionComplete s = .next s) ∧
    (∀ l c rest, s.dev.svc.substs = (l, c) :: rest → l < 64 → c < 17 → s.dev.pwr.heldNodes = [] →
      ∃ t, exec .substitutionComplete s = .next t ∧ t.dev.placement l = c ∧ t.dev.svc.substs = rest ∧
        t.dev.get Obj.substitutions = (s.dev.get Obj.substitutions + 1) % 2 ^ 32 ∧
        (∀ h x, tget s.dev.stages h = some x → x.core / 8 = 32 * (l / 16) + s.dev.placement l →
          ∃ y, tget t.dev.stages h = some y ∧ y.core = (32 * (l / 16) + c) * 8 + x.core % 8 ∧ y.version = none ∧
            y.desc = x.desc) ∧
        ∀ m, m < 64 → m ≠ l → t.dev.placement m = s.dev.placement m) ∧
    (∀ l c rest, s.dev.svc.substs = (l, c) :: rest → s.dev.heldOn ((corePath (l / 16) c 0).take 3) = true →
      ∃ t, exec .substitutionComplete s = .next t ∧ t.dev.svc.substs = rest ∧ t.dev.ctl = s.dev.ctl ∧
        t.dev.stages = s.dev.stages))

/-- Parts, risk, test vectors and live updates (R20, R21, R329, R332, R483 to R486, R502). A missed heartbeat loses the part,
but not a Lapidary's in the first 500 ms of loading its component. A retired module counts; the last of a connection loses its part. ALERT_N's
pulse ends, and a risk hold ends with the level following the sources. TV_RUN ends with the first status of R483 that applies,
else it runs and TV_RESULT counts its records. LIVE_UPDATE is refused in the order RANGE, BUSY, or is OK from the slot in use;
else the component loads, MGMT by a restart, and runs from the slot.
The model's own readings in it: log entries 78, 79. -/
def Obligations.PartsAreWatchedTestedAndUpdated : Prop :=
  (∀ (s : State) (part : Nat),
    (part ≤ 1 → s.dev.sec.liveUpdate.map (fun x => x.1) = some 1 → s.dev.micros ≤ s.dev.sec.liveSince + 500000 →
      exec (.partHeartbeatMiss part) s = .next s) ∧
    (part ≤ 1 → s.dev.sec.liveUpdate.map (fun x => x.1) ≠ some 1 ∨ s.dev.sec.liveSince + 500000 < s.dev.micros →
      ∃ t, exec (.partHeartbeatMiss part) s = .next t ∧ t.dev.lostUnit part = true) ∧
    (2 ≤ part → part ≤ 5 →
      ∃ t, exec (.partHeartbeatMiss part) s = .next t ∧ t.dev.lostUnit (10 + (part - 2)) = true)) ∧
  (∀ (s : State) (m : Nat),
    (45 < m ∨ bit (s.dev.get Obj.d2dModuleMap) m = false → exec (.d2dModuleRetire m) s = .next s) ∧
    (m ≤ 45 → bit (s.dev.get Obj.d2dModuleMap) m = true →
      ∃ t, exec (.d2dModuleRetire m) s = .next t ∧
        t.dev.get Obj.d2dModuleMap = clearBit (s.dev.get Obj.d2dModuleMap) m ∧
        t.dev.get Obj.d2dRetirements = (s.dev.get Obj.d2dRetirements + 1) % 2 ^ 32 ∧
        ∀ c, d2dConnections.find? (fun c => c.1 ≤ m && m < c.1 + c.2.1) = some c →
          (bits (clearBit (s.dev.get Obj.d2dModuleMap) m) c.1 c.2.1 ≠ 0 →
            t.dev.get Obj.lostUnits = s.dev.get Obj.lostUnits ∧ t.dev.ms = s.dev.ms) ∧
          (bits (clearBit (s.dev.get Obj.d2dModuleMap) m) c.1 c.2.1 = 0 →
            (∀ n, c.2.2 = .die n → t.dev.lostUnit (10 + n) = true) ∧
            (∀ n, c.2.2 = .lapidary n → t.dev.lostUnit n = true)))) ∧
  (∀ s : State, ∃ t, exec .alertPulseEnd s = .next t ∧ t.dev = { s.dev with risk := { s.dev.risk with pulse := false } } ∧
    t.dev.alertLow = (s.dev.pwr.hold || s.dev.gov.trip || s.dev.sec.bootFailed)) ∧
  (∀ (s : State) (src : Nat),
    (8 < src → exec (.riskHoldExpiry src) s = .next s) ∧
    (src ≤ 8 →
      ∃ t, exec (.riskHoldExpiry src) s = .next t ∧
        (2 ≤ src → tget t.dev.risk.held src = some (tgetD s.dev.risk.now src 0)) ∧
        t.dev.get Obj.riskLevel =
          min 7 (max (s.dev.get Obj.riskFloor) ((List.range 9).map (fun k => tgetD t.dev.risk.held k 0)).sum) ∧
        ValuesKept s.dev t.dev [Obj.riskLevel, Obj.riskPoints] ∧ t.dev.ms = s.dev.ms)) ∧
  (∀ (s : State) (rq : Req) (v : Nat), accepts s.dev rq Obj.tvRun v = true →
    ∃ t, exec (.tvRun rq v) s = .next t ∧
      (s.dev.entry (TvReq.handle v) = none ∨ TvReq.wrong v = true → AnsweredWrite t.dev rq Obj.tvRun St.range ∧
        bits (t.dev.get Obj.tvResult) 0 16 = St.range ∧ t.dev.ms = s.dev.ms ∧ t.dev.svc = s.dev.svc) ∧
      (∀ e, s.dev.entry (TvReq.handle v) = some e → TvReq.wrong v = false →
        (e.lost = true → AnsweredWrite t.dev rq Obj.tvRun St.objectLost ∧ t.dev.svc = s.dev.svc) ∧
        (e.lost = false → e.tier ≠ 1 → e.poisoned = false →
          (∀ st, s.dev.tvChecks v (s.dev.tvOthers || s.dev.svc.tv.isSome) = st → st ≠ St.ok →
            AnsweredWrite t.dev rq Obj.tvRun st ∧ t.dev.svc = s.dev.svc) ∧
          (s.dev.tvChecks v (s.dev.tvOthers || s.dev.svc.tv.isSome) = St.ok →
            AnsweredWrite t.dev rq Obj.tvRun St.pending ∧ t.dev.svc.tv = some ⟨v, s.dev.mono, false⟩)))) ∧
  (∀ s : State,
    (s.dev.svc.tv = none → exec .tvRunDone s = .next s) ∧
    (∀ j, s.dev.svc.tv = some j → s.dev.entry (TvReq.handle j.request) = none →
      ∃ t, exec .tvRunDone s = .next t ∧ t.dev.svc.tv = none ∧ bits (t.dev.get Obj.tvResult) 0 16 = St.range) ∧
    (∀ j e, s.dev.svc.tv = some j → s.dev.entry (TvReq.handle j.request) = some e → e.lost = false → e.tier ≠ 1 →
      e.poisoned = false → j.waited = false →
      ∃ t, exec .tvRunDone s = .next t ∧ t.dev.svc.tv = none ∧ bits (t.dev.get Obj.tvResult) 0 16 = St.ok ∧
        bits (t.dev.get Obj.tvResult) 32 32 =
          (let all := Tv.count (s.dev.readNat (TvReq.handle j.request) 0 128) - TvReq.first j.request
           if TvReq.limit j.request = 0 then all else min all (TvReq.limit j.request)) % 2 ^ 32 ∧
        t.dev.ms = s.dev.ms)) ∧
  (∀ (s : State) (rq : Req) (c slot : Nat), c ≤ 4 → slot ≤ 1 → accepts s.dev rq Obj.liveUpdate (fld c 0 + fld slot 8) = true →
    let busy := !s.dev.updatable c || s.dev.sec.liveUpdate.isSome || s.dev.sec.fwUpdate.isSome || s.dev.svc.resetDue ||
      s.dev.pwr.hold || decide (s.dev.get Obj.powerTransition ≠ 0)
    ∃ t, exec (.liveUpdate rq (fld c 0 + fld slot 8)) s = .next t ∧
      (s.dev.slotCheck slot ≠ 0 → AnsweredWrite t.dev rq Obj.liveUpdate St.range ∧ OnlyControl s.dev t.dev) ∧
      (s.dev.slotCheck slot = 0 → busy = true →
        AnsweredWrite t.dev rq Obj.liveUpdate St.busy ∧ OnlyControl s.dev t.dev) ∧
      (s.dev.slotCheck slot = 0 → busy = false →
        (s.dev.slotOf c = slot → AnsweredWrite t.dev rq Obj.liveUpdate St.ok ∧ OnlyControl s.dev t.dev) ∧
        (s.dev.slotOf c ≠ slot → t.dev.sec.liveUpdate = some (c, slot) ∧
          (c ≠ 0 → AnsweredWrite t.dev rq Obj.liveUpdate St.pending) ∧
          (c = 2 → t.dev.get Obj.valveDuty = 1000) ∧
          (c = 0 → t.dev.ctl.serving = false ∧ t.dev.ctl.restart = some 0)))) ∧
  (∀ s : State,
    (s.dev.sec.liveUpdate = none → exec .liveUpdateDone s = .next s) ∧
    (∀ c slot, s.dev.sec.liveUpdate = some (c, slot) → slot ≤ 1 →
      (c = 0 → s.dev.ctl.restart.isSome = true → exec .liveUpdateDone s = .next s) ∧
      (c ≠ 0 ∨ s.dev.ctl.restart = none →
        ∃ t, exec .liveUpdateDone s = .next t ∧ t.dev.sec.liveUpdate = none ∧ t.dev.slotOf c = slot ∧
          t.dev.get Obj.eventsRaised = (s.dev.get Obj.eventsRaised + 1) % 2 ^ 64)))

/-! ### The host interface (chapter 13) -/

/-- EVQ_CONFIG (R392). From the owning port, a value in range enables a disabled queue with CAPACITY free cells as an empty
circle, armed (R395); disabling a queue other than 0 and 128 discards its contents; CLASS_MASK and VECTOR of an enabled
queue change and its contents stay. A write of the other port is refused with ROLE, a new CAPACITY of an enabled queue with
BUSY, too few free cells with NO_SPACE, and ENABLE cleared or a CAPACITY below 64 on queue 0 or 128 with RANGE; a refused
write changes no queue.
The model's own readings in it: log entry 43. -/
def Obligations.EventQueueConfigFollowsR392 : Prop :=
  ∀ (s : State) (rq : Req) (q v : Nat), q < 256 → accepts s.dev rq (Obj.evqConfig + q) v = true →
    4 ≤ bits v 16 16 → bits v 16 16 ≤ 16384 → 8 ≤ bits v 64 11 → bits v 1 15 = 0 → bits v 75 53 = 0 →
    ∃ t, exec (.evqConfig rq q v) s = .next t ∧
      (portOf rq ≠ some (q / 128) →
        AnsweredWrite t.dev rq (Obj.evqConfig + q) St.role ∧ t.dev.evqs = s.dev.evqs) ∧
      (portOf rq = some (q / 128) → (s.dev.evq q).enable = true → bits v 16 16 ≠ (s.dev.evq q).capacity →
        AnsweredWrite t.dev rq (Obj.evqConfig + q) St.busy ∧ t.dev.evqs = s.dev.evqs) ∧
      (portOf rq = some (q / 128) → (s.dev.evq q).enable = true → bits v 16 16 = (s.dev.evq q).capacity →
        (q = 0 ∨ q = 128) → (bit v 0 = false ∨ bits v 16 16 < 64) →
        AnsweredWrite t.dev rq (Obj.evqConfig + q) St.range ∧ t.dev.evqs = s.dev.evqs) ∧
      (portOf rq = some (q / 128) → (s.dev.evq q).enable = true → bits v 16 16 = (s.dev.evq q).capacity → bit v 0 = true →
        (q ≠ 0 ∧ q ≠ 128 ∨ 64 ≤ bits v 16 16) →
        AnsweredWrite t.dev rq (Obj.evqConfig + q) St.ok ∧
        t.dev.evq q = { s.dev.evq q with mask := bits v 32 32, vector := bits v 64 11 }) ∧
      (portOf rq = some (q / 128) → (s.dev.evq q).enable = true → bits v 16 16 = (s.dev.evq q).capacity →
        bit v 0 = false → q ≠ 0 → q ≠ 128 →
        AnsweredWrite t.dev rq (Obj.evqConfig + q) St.ok ∧ (t.dev.evq q).enable = false ∧ (t.dev.evq q).cells = [] ∧
        (t.dev.evq q).w = 0 ∧ (t.dev.evq q).h = 0) ∧
      (portOf rq = some (q / 128) → (s.dev.evq q).enable = false → bit v 0 = true → q ≠ 0 → q ≠ 128 →
        16384 < s.dev.evqCellsHeld + bits v 16 16 →
        AnsweredWrite t.dev rq (Obj.evqConfig + q) St.noSpace ∧ t.dev.evqs = s.dev.evqs) ∧
      (portOf rq = some (q / 128) → (s.dev.evq q).enable = false → bit v 0 = true → q ≠ 0 → q ≠ 128 →
        s.dev.evqCellsHeld + bits v 16 16 ≤ 16384 →
        AnsweredWrite t.dev rq (Obj.evqConfig + q) St.ok ∧
        t.dev.evq q = { enable := true, capacity := bits v 16 16, mask := bits v 32 32, vector := bits v 64 11,
                        armed := true })

/-- The window of a local queue (R393 to R395), after its late copy of W has caught up by a free amount: a pop of a queue that
then holds items takes the item at position H, whose 32 bytes the read returns, and advances H by one; a pop of an empty one
sets UNDERRUN and returns the latch; a disabled queue reads as zeros. Arming a queue that shows an item sends its vector and
leaves it disarmed; one with nothing written stays armed and sends nothing. UNDERRUN is cleared alone. No other queue
changes.
The model's own readings in it: log entry 3. -/
def Obligations.EventQueueWindowPops : Prop :=
  ∀ (s : State) (p j : Nat), p ≤ 1 → j < 128 →
    ((s.dev.evq (128 * p + j)).enable = true →
      ∃ t e, exec (.evqPop p j) s = .next t ∧ e = (s.dev.evqSee (128 * p + j)).evq (128 * p + j) ∧
        (∀ item, e.h < e.wLate → tget e.cells (e.h % e.capacity) = some ⟨e.h, item⟩ →
          t.dev.evq (128 * p + j) = { e with h := e.h + 1, latch := item } ∧
          t.dev.out.head? = some (.readData p (leBytes 32 item))) ∧
        (e.wLate ≤ e.h →
          t.dev.evq (128 * p + j) = { e with underrun := true } ∧
          t.dev.out.head? = some (.readData p (leBytes 32 e.latch))) ∧
        (∀ q, q ≠ 128 * p + j → t.dev.evq q = s.dev.evq q)) ∧
    ((s.dev.evq (128 * p + j)).enable = false →
      ∃ t, exec (.evqPop p j) s = .next t ∧ (∀ q, t.dev.evq q = s.dev.evq q) ∧
        t.dev.out = .readData p (leBytes 32 0) :: s.dev.out) ∧
    ((s.dev.evq (128 * p + j)).enable = true →
      ∃ t, exec (.evqArm p j) s = .next t ∧
        ((s.dev.evq (128 * p + j)).h < (s.dev.evq (128 * p + j)).wLate →
          (t.dev.evq (128 * p + j)).armed = false ∧
          t.dev.out = .msix p (s.dev.evq (128 * p + j)).vector :: s.dev.out) ∧
        ((s.dev.evq (128 * p + j)).w = (s.dev.evq (128 * p + j)).h →
          (s.dev.evq (128 * p + j)).wLate ≤ (s.dev.evq (128 * p + j)).w →
          (t.dev.evq (128 * p + j)).armed = true ∧ t.dev.out = s.dev.out) ∧
        (∀ q, q ≠ 128 * p + j → t.dev.evq q = s.dev.evq q)) ∧
    ((s.dev.evq (128 * p + j)).enable = true →
      ∃ t, exec (.evqClearUnderrun p j) s = .next t ∧
        t.dev.evq (128 * p + j) = { s.dev.evq (128 * p + j) with underrun := false } ∧
        (∀ q, q ≠ 128 * p + j → t.dev.evq q = s.dev.evq q))

/-- An action on one event queue: a record written, the consumer's copy of W catching up, a pop; each with its free value. -/
inductive QueueAction where
  | push (seen rec : Nat)
  | see (seen : Nat)
  | pop
deriving DecidableEq, Repr

/-- The queue after an action. -/
def queueAct (e : Evq) : QueueAction → Evq
  | .push seen rec => evqPush seen rec e
  | .see seen => (evqSee seen e).1
  | .pop => evqPop e

/-- The queue after actions in order, and what its pops returned, newest first: the position of each item and the item. -/
def queueRun : Evq → List QueueAction → Evq × List (Nat × Nat)
  | e, [] => (e, [])
  | e, a :: as =>
    let e' := queueAct e a
    let got := if a = .pop ∧ e.h < e'.h then [(e'.h - 1, e'.latch)] else []
    let r := queueRun e' as
    (r.1, r.2 ++ got)

/-- The records written by actions, in order: the k-th of them is at position k. -/
def queueWrites (as : List QueueAction) : List Nat :=
  as.filterMap (fun a => match a with
    | .push _ rec => some rec
    | _ => none)

/-- R393's promise for an enabled queue that starts empty: whatever is written, seen and popped, in whatever order and
however late the two sides see each other's counts, the host receives no item twice, out of order or torn (the positions it
receives only rise, and each item is the record written at that position with the position in its POSITION field), and LOST
counts exactly the items it passed and never received.
The model's own readings in it: log entries 3, 29. -/
def Obligations.HostReceivesNoItemTwice : Prop :=
  ∀ (cap : Nat) (as : List QueueAction), 1 ≤ cap →
    let r := queueRun { enable := true, capacity := cap, armed := true } as
    ((r.2.reverse.map (·.1)).Pairwise (· < ·)) ∧
    (∀ x ∈ r.2, ∃ rec, (queueWrites as)[x.1]? = some rec ∧ x.2 = putBits rec 16 16 x.1) ∧
    r.1.h = r.1.lost + r.2.length ∧ r.1.h ≤ r.1.w ∧ r.1.w = (queueWrites as).length

/-- CONTROL of a DMA queue (R379). A value in range with ENABLE set starts a queue that does not run, its indices 0 and its
PHASE 1; one written to a running queue changes VECTOR alone. With ENABLE clear a running queue drops what it has not started
and is DISABLED at once where nothing is in progress, else once that has completed. A value out of range is ignored. The
doorbells of a running queue (R379, R383): an SQ_TAIL below 2^SIZE_LOG2 posts the descriptors from the old tail on, behind
those posted before; a CQ_HEAD below it frees the completions the host has read; a value not below it, or a queue that does not
run, changes nothing. -/
def Obligations.DmaQueuesStartPostAndStop : Prop :=
  (∀ (s : State) (p n v : Nat), p ≤ 1 → n < 64 →
    (∃ t, exec (.dmaQueueEnable p n v) s = .next t ∧
      (dmaControlOk (setBit v 0) = true → (s.dev.dmaq p n).state ≠ .running →
        (t.dev.dmaq p n).state = .running ∧ (t.dev.dmaq p n).sizeLog2 = bits (setBit v 0) 1 5 ∧
        (t.dev.dmaq p n).vector = bits (setBit v 0) 16 11 ∧ (t.dev.dmaq p n).sqHead = 0 ∧ (t.dev.dmaq p n).sqTail = 0 ∧
        (t.dev.dmaq p n).cqHead = 0 ∧ (t.dev.dmaq p n).phase = true ∧ (t.dev.dmaq p n).stopCause = 0 ∧
        (t.dev.dmaq p n).sqBase = (s.dev.dmaq p n).sqBase ∧ (t.dev.dmaq p n).cqBase = (s.dev.dmaq p n).cqBase) ∧
      (dmaControlOk (setBit v 0) = true → (s.dev.dmaq p n).state = .running →
        t.dev.dmaq p n = { s.dev.dmaq p n with vector := bits (setBit v 0) 16 11 }) ∧
      (dmaControlOk (setBit v 0) = false → t.dev.dmaq p n = s.dev.dmaq p n)) ∧
    (∃ t, exec (.dmaQueueDisable p n v) s = .next t ∧
      (dmaControlOk (clearBit v 0) = true → (s.dev.dmaq p n).state = .running → (s.dev.dmaq p n).taken = [] →
        (t.dev.dmaq p n).state = .disabled ∧ (t.dev.dmaq p n).posted = []) ∧
      (dmaControlOk (clearBit v 0) = true → (s.dev.dmaq p n).state = .running → (s.dev.dmaq p n).taken ≠ [] →
        (t.dev.dmaq p n).state = .running ∧ (t.dev.dmaq p n).posted = [] ∧ (t.dev.dmaq p n).draining = true ∧
        (t.dev.dmaq p n).taken = (s.dev.dmaq p n).taken) ∧
      (dmaControlOk (clearBit v 0) = true → (s.dev.dmaq p n).state = .stopped → (s.dev.dmaq p n).stopCause = 3 →
        (t.dev.dmaq p n).state = .stopped ∧ (t.dev.dmaq p n).stopCause = 3))) ∧
  (∀ (s : State) (p n : Nat), p ≤ 1 → n < 64 →
    (∀ (tail : Nat) (ds : List Nat), (s.dev.dmaq p n).state = .running → (s.dev.dmaq p n).draining = false →
      tail < 2 ^ (s.dev.dmaq p n).sizeLog2 →
      ds.length = (tail + 2 ^ (s.dev.dmaq p n).sizeLog2 - (s.dev.dmaq p n).sqTail) % 2 ^ (s.dev.dmaq p n).sizeLog2 →
      ∃ t, exec (.sqTail p n tail ds) s = .next t ∧
        t.dev.dmaq p n = { s.dev.dmaq p n with sqTail := tail, posted := (s.dev.dmaq p n).posted ++ ds }) ∧
    (∀ (tail : Nat) (ds : List Nat), ((s.dev.dmaq p n).state ≠ .running ∨ 2 ^ (s.dev.dmaq p n).sizeLog2 ≤ tail) →
      exec (.sqTail p n tail ds) s = .next s) ∧
    (∀ head, (s.dev.dmaq p n).state = .running → head < 2 ^ (s.dev.dmaq p n).sizeLog2 →
      ∃ t, exec (.cqHead p n head) s = .next t ∧ (t.dev.dmaq p n).cqHead = head ∧
        (t.dev.dmaq p n).cqUsed = (s.dev.dmaq p n).cqUsed -
          (head + 2 ^ (s.dev.dmaq p n).sizeLog2 - (s.dev.dmaq p n).cqHead) % 2 ^ (s.dev.dmaq p n).sizeLog2 ∧
        (t.dev.dmaq p n).posted = (s.dev.dmaq p n).posted ∧ (t.dev.dmaq p n).taken = (s.dev.dmaq p n).taken) ∧
    (∀ head, ((s.dev.dmaq p n).state ≠ .running ∨ 2 ^ (s.dev.dmaq p n).sizeLog2 ≤ head) →
      exec (.cqHead p n head) s = .next s))

/-- A running DMA queue with nothing in progress and room in its completion ring whose next descriptor is `x` of an OP. -/
def nextDescriptor (d : Device) (p n op x : Nat) (rest : List Nat) : Prop :=
  p ≤ 1 ∧ n < 64 ∧ (d.dmaq p n).state = .running ∧ (d.dmaq p n).draining = false ∧ (d.dmaq p n).taken = [] ∧
  (d.dmaq p n).cqUsed < 2 ^ (d.dmaq p n).sizeLog2 ∧ (d.dmaq p n).posted = x :: rest ∧ descOp x = op

/-- The descriptors (R380 to R383). A NOP whose handle names an object ends OK and carries nothing. A TO_OBJECT or a ZERO that passes
R382, to a settled object that needs no supply, writes the bytes host memory gives, or zeros, at OBJECT_OFFSET, and no other byte
of memory changes; where they are a count of a ring, R386 says whether they land. A TO_HOST sends the object's bytes to HOST_ADDRESS,
in writes of relaxed order, and changes no memory. TO_OBJECT takes all the bytes given, TO_HOST and ZERO go on by a granule of 4 KiB
a command; the last byte ends the descriptor with OK. An object whose memory is in self-refresh is waited for. A descriptor that R382 refuses ends with that status and carries nothing. Each takes the queue's SQ_HEAD on by one.
The model's own readings in it: log entry 42. -/
def Obligations.DescriptorsCarryTheirBytes : Prop :=
  ∀ (s : State) (p n x : Nat) (rest : List Nat),
    (nextDescriptor s.dev p n 0 x rest → descReserved x = false →
      ∃ t, exec (.nop p n) s = .next t ∧ (t.dev.dmaq p n).posted = rest ∧
        (t.dev.dmaq p n).taken = [{
          index := (s.dev.dmaq p n).sqHead, desc := x
          status := some (if (s.dev.entry (descHandle x)).isSome then St.ok else St.range) }] ∧
        (t.dev.dmaq p n).sqHead = ((s.dev.dmaq p n).sqHead + 1) % 2 ^ (s.dev.dmaq p n).sizeLog2 ∧ t.dev.ms = s.dev.ms) ∧
    (∀ (e : DirEntry) (bs : Bytes), s.dev.entry (descHandle x) = some e → s.dev.descCheck p x = none →
      e.needsSupply = false → e.move = .settled →
      (s.dev.answers e.tier = false → nextDescriptor s.dev p n 1 x rest →
        ∃ t, exec (.toObject p n bs) s = .next t ∧ t.dev.ms = s.dev.ms ∧ (t.dev.dmaq p n).posted = rest ∧
          (t.dev.dmaq p n).taken.map (fun y => (y.status, y.bytes)) = [(none, 0)]) ∧
      (s.dev.answers e.tier = true → nextDescriptor s.dev p n 1 x rest → bs.length = descLength x →
        s.dev.isCount (descHandle x) (descOffset x) (descLength x) = false →
        ∃ t, exec (.toObject p n bs) s = .next t ∧
          t.dev.ms.mem = memWrite s.dev.ms.mem (addrOf (descHandle x) (descOffset x)) bs ∧
          (∀ a, a < addrOf (descHandle x) (descOffset x) ∨ addrOf (descHandle x) (descOffset x) + descLength x ≤ a →
            memGet t.dev.ms.mem a = memGet s.dev.ms.mem a) ∧
          (t.dev.dmaq p n).posted = rest ∧
          (t.dev.dmaq p n).taken.map (fun y => (y.status, y.bytes)) = [(some St.ok, descLength x)]) ∧
      (s.dev.answers e.tier = true → nextDescriptor s.dev p n 1 x rest → bs.length = descLength x →
        s.dev.isCount (descHandle x) (descOffset x) (descLength x) = true →
        ∃ t, exec (.toObject p n bs) s = .next t ∧
          (s.dev.countFits (descHandle x) (leNat bs) = true →
            t.dev.ms.mem = memWrite s.dev.ms.mem (addrOf (descHandle x) (descOffset x)) bs) ∧
          (s.dev.countFits (descHandle x) (leNat bs) = false →
            t.dev.ms.mem = s.dev.ms.mem ∧
              (e.tier = 2 → t.dev.evqs = (s.dev.raise 0x0D04 [a4 (descHandle x), a8 (leNat bs)]).evqs)) ∧
          (t.dev.dmaq p n).taken.map (fun y => (y.status, y.bytes)) = [(some St.ok, descLength x)]) ∧
      (∀ m, m = min (descLength x) (4096 - descOffset x % 4096) → s.dev.answers e.tier = true →
        (nextDescriptor s.dev p n 3 x rest → s.dev.isCount (descHandle x) (descOffset x) m = false →
          ∃ t, exec (.zero p n) s = .next t ∧
            t.dev.ms.mem = memWrite s.dev.ms.mem (addrOf (descHandle x) (descOffset x)) (List.replicate m 0) ∧
            (∀ a, a < addrOf (descHandle x) (descOffset x) ∨ addrOf (descHandle x) (descOffset x) + m ≤ a →
              memGet t.dev.ms.mem a = memGet s.dev.ms.mem a) ∧
            (t.dev.dmaq p n).taken.map (fun y => (y.status, y.bytes)) =
              [(if m = descLength x then some St.ok else none, m)]) ∧
        (nextDescriptor s.dev p n 2 x rest →
          ∃ t, exec (.toHost p n) s = .next t ∧ t.dev.ms = s.dev.ms ∧
            t.dev.out = .hostWrite p (descAddress x) true (s.dev.readBytes (descHandle x) (descOffset x) m) :: s.dev.out ∧
            (t.dev.dmaq p n).taken.map (fun y => (y.status, y.bytes)) =
              [(if m = descLength x then some St.ok else none, m)]))) ∧
    (∀ (st : Nat) (bs : Bytes), s.dev.descCheck p x = some st →
      (nextDescriptor s.dev p n 1 x rest →
        ∃ t, exec (.toObject p n bs) s = .next t ∧ t.dev.ms = s.dev.ms ∧
          (t.dev.dmaq p n).taken = [{ index := (s.dev.dmaq p n).sqHead, desc := x, status := some st }]) ∧
      (nextDescriptor s.dev p n 2 x rest →
        ∃ t, exec (.toHost p n) s = .next t ∧ t.dev.ms = s.dev.ms ∧ t.dev.out = s.dev.out ∧
          (t.dev.dmaq p n).taken = [{ index := (s.dev.dmaq p n).sqHead, desc := x, status := some st }]) ∧
      (nextDescriptor s.dev p n 3 x rest →
        ∃ t, exec (.zero p n) s = .next t ∧ t.dev.ms = s.dev.ms ∧
          (t.dev.dmaq p n).taken = [{ index := (s.dev.dmaq p n).sqHead, desc := x, status := some st }]))

/-- The completion of the oldest descriptor in progress (R381 to R383): its 16-byte record, laid out as R381 says, goes to the
completion ring's next entry. Its PHASE is 1 on the first pass of the ring, as enabling leaves it, and turns at the ring's end;
the vector is signalled where INTERRUPT is set; a queue being disabled is DISABLED after its last. -/
def Obligations.CompletionIsWrittenInRingOrder : Prop :=
  (∀ (s : State) (p n v : Nat), p ≤ 1 → n < 64 → dmaControlOk (setBit v 0) = true → (s.dev.dmaq p n).state ≠ .running →
    ∃ t, exec (.dmaQueueEnable p n v) s = .next t ∧ (t.dev.dmaq p n).phase = true ∧ (t.dev.dmaq p n).cqTail = 0 ∧
      (t.dev.dmaq p n).taken = []) ∧
  ∀ (s : State) (p n st : Nat) (y : Taken) (more : List Taken), p ≤ 1 → n < 64 →
    (s.dev.dmaq p n).taken = y :: more → y.status = some st → (∀ x ∈ (s.dev.dmaq p n).posted, descOp x ≤ 3) →
    ∃ t, exec (.descriptorComplete p n) s = .next t ∧
      (t.dev.dmaq p n).taken = more ∧
      (t.dev.dmaq p n).cqTail = ((s.dev.dmaq p n).cqTail + 1) % 2 ^ (s.dev.dmaq p n).sizeLog2 ∧
      (t.dev.dmaq p n).phase = (if (s.dev.dmaq p n).cqTail + 1 = 2 ^ (s.dev.dmaq p n).sizeLog2
        then !(s.dev.dmaq p n).phase else (s.dev.dmaq p n).phase) ∧
      ((s.dev.dmaq p n).draining = true → more = [] → (t.dev.dmaq p n).state = .disabled) ∧
      ((s.dev.dmaq p n).draining = false → (t.dev.dmaq p n).state = (s.dev.dmaq p n).state) ∧
      t.dev.out = (if bit y.desc 5 then [.msix p (s.dev.dmaq p n).vector] else []) ++
        (.hostWrite p ((s.dev.dmaq p n).cqBase + 16 * (s.dev.dmaq p n).cqTail) false
          (leBytes 16 (fld (bits y.desc 16 16) 0 + fld st 16 + fld (s.dev.dmaq p n).phase.toNat 32 + fld y.index 64 +
            fld y.bytes 96)) :: s.dev.out) ∧
      t.dev.ms = s.dev.ms

/-- The BAR2 window (R377, R378). A read of a settled, whole object returns its bytes and changes nothing else; a write through
an aperture that accepts writes, to such an object that no rule guards, lands its bytes and no others. An access that
reaches no byte of an object counts in BAR2_FAILED, a read of it ends as an unsupported request and raises
BAR2_ACCESS_FAILED; a read of a LOST object is aborted. An access to an object that moves, is supplied anew or lies in self-refresh is held; the
oldest access held fails once it has waited the limit.
The model's own readings in it: log entry 39. -/
def Obligations.Bar2ReadsAndWritesObjects : Prop :=
  ∀ (s : State) (p a off : Nat), p ≤ 1 → a < 64 →
    (∀ len e, s.dev.bar2Bad p a off len false = false → s.dev.entry (bits (s.dev.aperture p a) 0 32) = some e →
      e.lost = false → e.poisoned = false → e.tier ≠ 1 →
      (e.move = .settled → s.dev.answers e.tier = false →
        ∃ t, exec (.bar2Read p a off len) s = .next t ∧ t.dev.out = s.dev.out ∧ t.dev.ms = s.dev.ms ∧
          (t.dev.port p).heldAccess = (s.dev.port p).heldAccess ++
            [⟨a, bits (s.dev.aperture p a) 0 32, bits (s.dev.aperture p a) 64 64 + off, len, none⟩]) ∧
      (e.move = .settled → s.dev.answers e.tier = true →
        ∃ t, exec (.bar2Read p a off len) s = .next t ∧
          t.dev = { s.dev with out := .readData p (s.dev.readBytes (bits (s.dev.aperture p a) 0 32)
            (bits (s.dev.aperture p a) 64 64 + off) len) :: s.dev.out }) ∧
      (e.move ≠ .settled →
        ∃ t, exec (.bar2Read p a off len) s = .next t ∧ t.dev.out = s.dev.out ∧
          (t.dev.port p).heldAccess = (s.dev.port p).heldAccess ++
            [⟨a, bits (s.dev.aperture p a) 0 32, bits (s.dev.aperture p a) 64 64 + off, len, none⟩])) ∧
    (∀ len e, s.dev.bar2Bad p a off len false = false → s.dev.entry (bits (s.dev.aperture p a) 0 32) = some e →
      e.lost = true →
      (e.move ≠ .resupply →
        ∃ t, exec (.bar2Read p a off len) s = .next t ∧ t.dev.out.head? = some (.completerAbort p) ∧ t.dev.ms = s.dev.ms ∧
          (t.dev.port p).bar2Failed = ((s.dev.port p).bar2Failed + 1) % 2 ^ 64) ∧
      (e.move = .resupply →
        ∃ t, exec (.bar2Read p a off len) s = .next t ∧ t.dev.out = s.dev.out ∧
          (t.dev.port p).bar2Failed = (s.dev.port p).bar2Failed)) ∧
    (∀ len, s.dev.bar2Bad p a off len false = true →
      ∃ t, exec (.bar2Read p a off len) s = .next t ∧ t.dev.out.head? = some (.unsupported p) ∧
        (t.dev.port p).bar2Failed = ((s.dev.port p).bar2Failed + 1) % 2 ^ 64 ∧
        t.dev.get Obj.eventsRaised = (s.dev.get Obj.eventsRaised + 1) % 2 ^ 64 ∧ t.dev.ms = s.dev.ms) ∧
    (∀ (bs : Bytes) (e : DirEntry), s.dev.bar2Bad p a off bs.length true = false →
      s.dev.entry (bits (s.dev.aperture p a) 0 32) = some e → e.hostRo = false →
      s.dev.ringDenied p (bits (s.dev.aperture p a) 0 32) = false →
      s.dev.guardedObject (bits (s.dev.aperture p a) 0 32) = false → e.needsSupply = false → e.move = .settled →
      s.dev.isCount (bits (s.dev.aperture p a) 0 32) (bits (s.dev.aperture p a) 64 64 + off) bs.length = false →
      (s.dev.answers e.tier = true →
        ∃ t, exec (.bar2Write p a off bs) s = .next t ∧
          t.dev.ms.mem = memWrite s.dev.ms.mem (addrOf (bits (s.dev.aperture p a) 0 32)
            (bits (s.dev.aperture p a) 64 64 + off)) bs) ∧
      (s.dev.answers e.tier = false →
        ∃ t, exec (.bar2Write p a off bs) s = .next t ∧ t.dev.ms = s.dev.ms ∧
          (t.dev.port p).heldAccess = (s.dev.port p).heldAccess ++
            [⟨a, bits (s.dev.aperture p a) 0 32, bits (s.dev.aperture p a) 64 64 + off, bs.length, some bs⟩])) ∧
    (∀ (bs : Bytes), s.dev.bar2Bad p a off bs.length true = true →
      ∃ t, exec (.bar2Write p a off bs) s = .next t ∧ t.dev.ms = s.dev.ms ∧
        (t.dev.port p).bar2Failed = ((s.dev.port p).bar2Failed + 1) % 2 ^ 64) ∧
    (∀ x more, (s.dev.port p).heldAccess = x :: more →
      ∃ t, exec (.bar2WaitExpiry p) s = .next t ∧ (t.dev.port p).heldAccess = more ∧
        (t.dev.port p).bar2Failed = ((s.dev.port p).bar2Failed + 1) % 2 ^ 64 ∧
        (x.write = none → t.dev.out.head? = some (.completerAbort p)) ∧ t.dev.ms.mem = s.dev.ms.mem)

/-- What happens to a port (R373, R418): a link that trains at a supported rate and width is up and shows them in
PORT_INFO, one that goes down is down. A link up or down, a hot reset and an FLR raise PCIE_LINK, that event alone where no
queue of the port runs. A link down, a hot reset and an FLR stop the port's running queues; the resets set its queues' cause to 3, its registers, apertures and slots back to reset, and an FLR leaves the link
up. The other port keeps all of it. PERST_N high is seen by the port.
The model's own readings in it: log entry 40. -/
def Obligations.PortEventsActOnTheirPort : Prop :=
  ∀ (s : State) (p : Nat), p ≤ 1 →
    (∀ rate width flit, 1 ≤ rate → rate ≤ 3 → (width = 16 ∨ width = 8 ∨ width = 4) → (rate ≠ 3 ∨ flit = true) →
      ∃ t, exec (.pcieLinkUp p rate width flit) s = .next t ∧
        t.dev.port p = { s.dev.port p with
          linkUp := true, training := false, rate := rate, width := width, flit := flit, downSince := none } ∧
        t.dev.get Obj.eventsRaised = (s.dev.get Obj.eventsRaised + 1) % 2 ^ 64 ∧
        t.dev.port (1 - p) = s.dev.port (1 - p)) ∧
    ((s.dev.port p).linkUp = true →
      ∃ t, exec (.pcieLinkDown p) s = .next t ∧ (t.dev.port p).linkUp = false ∧
        ((∀ n, n < 64 → (s.dev.dmaq p n).state ≠ .running) →
          t.dev.get Obj.eventsRaised = (s.dev.get Obj.eventsRaised + 1) % 2 ^ 64) ∧
        (∀ n, n < 64 → (s.dev.dmaq p n).state = .running →
          (t.dev.dmaq p n).state = .stopped ∧ (t.dev.dmaq p n).stopCause = 2) ∧
        t.dev.port (1 - p) = s.dev.port (1 - p)) ∧
    (∃ t, exec (.pcieHotReset p) s = .next t ∧ (t.dev.port p).linkUp = false ∧
      ((∀ n, n < 64 → (s.dev.dmaq p n).state ≠ .running) →
        t.dev.get Obj.eventsRaised = (s.dev.get Obj.eventsRaised + 1) % 2 ^ 64) ∧
      (t.dev.port p).waitLimit = 10000 ∧ (t.dev.port p).bar2Failed = 0 ∧ (t.dev.port p).apertures = [] ∧
      (∀ n, n < 64 → (s.dev.dmaq p n).state = .running →
        (t.dev.dmaq p n).state = .stopped ∧ (t.dev.dmaq p n).stopCause = 3) ∧
      (∀ n, n ≤ 7 → (t.dev.slot p n).state = .free) ∧ t.dev.port (1 - p) = s.dev.port (1 - p)) ∧
    (∃ t, exec (.pcieFlr p) s = .next t ∧ (t.dev.port p).linkUp = (s.dev.port p).linkUp ∧
      ((∀ n, n < 64 → (s.dev.dmaq p n).state ≠ .running) →
        t.dev.get Obj.eventsRaised = (s.dev.get Obj.eventsRaised + 1) % 2 ^ 64) ∧
      (t.dev.port p).waitLimit = 10000 ∧ (t.dev.port p).bar2Failed = 0 ∧ (t.dev.port p).apertures = [] ∧
      (∀ n, n < 64 → (s.dev.dmaq p n).state = .running →
        (t.dev.dmaq p n).state = .stopped ∧ (t.dev.dmaq p n).stopCause = 3) ∧
      (∀ n, n ≤ 7 → (t.dev.slot p n).state = .free) ∧ t.dev.port (1 - p) = s.dev.port (1 - p)) ∧
    (∃ t, exec (.perstNDeassert p) s = .next t ∧ (t.dev.port p).perstHigh = true)

/-- The counts of the rings (R386). A PRODUCER count that neither moves backward nor passes CONSUMER + N, and a CONSUMER count
that neither moves backward nor passes PRODUCER, is the ring header's new count, and no byte outside its eight changes; any
other is ignored and raises RING_ERROR (0x0D04) with the ring's handle and the count. It holds for input, output and BATCH
rings alike, and for a count that comes through a BAR2 aperture. An entry is not read before the count covers it: a serving admission that finds none changes nothing.
The model's own readings in it: log entry 41. -/
def Obligations.RingCountsMoveForward : Prop :=
  (∀ (s : State) (p h count : Nat), s.dev.countReaches p h = true →
    (s.dev.ringKind h ≤ 1 → s.dev.ringProducer h ≤ count → count ≤ s.dev.ringConsumer h + s.dev.ringEntries h →
      count < 2 ^ 64 →
      ∃ t, exec (.ringProducer p h count) s = .next t ∧
        t.dev.ms.mem = memWrite s.dev.ms.mem (addrOf h 16) (leBytes 8 count) ∧
        ∀ a, a < addrOf h 16 ∨ addrOf h 16 + 8 ≤ a → memGet t.dev.ms.mem a = memGet s.dev.ms.mem a) ∧
    (s.dev.ringKind h ≤ 1 → count < s.dev.ringProducer h ∨ s.dev.ringConsumer h + s.dev.ringEntries h < count →
      ∃ t, exec (.ringProducer p h count) s = .next t ∧ t.dev.ms = s.dev.ms ∧
        t.dev.evqs = (s.dev.raise 0x0D04 [a4 h, a8 count]).evqs ∧
        t.dev.get Obj.eventsRaised = (s.dev.get Obj.eventsRaised + 1) % 2 ^ 64) ∧
    (s.dev.ringKind h = 2 ∨ s.dev.ringKind h = 3 → s.dev.ringConsumer h ≤ count → count ≤ s.dev.ringProducer h →
      ∃ t, exec (.ringConsumer p h count) s = .next t ∧
        t.dev.ms.mem = memWrite s.dev.ms.mem (addrOf h 24) (leBytes 8 count) ∧
        ∀ a, a < addrOf h 24 ∨ addrOf h 24 + 8 ≤ a → memGet t.dev.ms.mem a = memGet s.dev.ms.mem a) ∧
    (s.dev.ringKind h = 2 ∨ s.dev.ringKind h = 3 → count < s.dev.ringConsumer h ∨ s.dev.ringProducer h < count →
      ∃ t, exec (.ringConsumer p h count) s = .next t ∧ t.dev.ms = s.dev.ms ∧
        t.dev.evqs = (s.dev.raise 0x0D04 [a4 h, a8 count]).evqs ∧
        t.dev.get Obj.eventsRaised = (s.dev.get Obj.eventsRaised + 1) % 2 ^ 64)) ∧
  (∀ (s : State) (p a off : Nat) (bs : Bytes) (e : DirEntry), p ≤ 1 → a < 64 →
    let h := bits (s.dev.aperture p a) 0 32
    let at_ := bits (s.dev.aperture p a) 64 64 + off
    s.dev.bar2Bad p a off bs.length true = false → s.dev.entry h = some e → e.hostRo = false → s.dev.ringDenied p h = false →
    s.dev.guardedObject h = false → e.needsSupply = false → e.move = .settled → s.dev.answers e.tier = true →
    s.dev.isCount h at_ bs.length = true →
      ∃ t, exec (.bar2Write p a off bs) s = .next t ∧
        (s.dev.countFits h (leNat bs) = true → t.dev.ms.mem = memWrite s.dev.ms.mem (addrOf h at_) bs) ∧
        (s.dev.countFits h (leNat bs) = false →
          t.dev.ms.mem = s.dev.ms.mem ∧ (e.tier = 2 → t.dev.evqs = (s.dev.raise 0x0D04 [a4 h, a8 (leNat bs)]).evqs))) ∧
  (∀ (s : State) (n : Nat) (x : Stream), tget s.dev.streams n = some x →
    s.dev.ringProducer x.inRing ≤ s.dev.ringConsumer x.inRing + x.samples.length →
    exec (.servingSampleAdmission n) s = .next s)

/-- Bytes that no row of the forward changes where no version is held: those outside the statistics object and the stash objects. -/
def KeepsBytes (d e : Device) : Prop :=
  d.versions = [] → 0 < d.get Obj.statsSlots → d.get Obj.statsSlots * d.slotBytes ≤ 2 ^ 32 →
  (∀ h x, d.entry h = some x → x.size * blockBytes ≤ 2 ^ 32) →
  ∀ a, a / 2 ^ 32 ≠ d.get Obj.statsObject → (∀ p ∈ d.stages, a / 2 ^ 32 ≠ Desc.stash p.2.desc) →
    memGet e.ms.mem a = memGet d.ms.mem a

/-- Three frames. READ_STAGED, the segmented reads, SEG_WRITE_INIT, SEG_ABORT, SEG_TRANSFER_TIMEOUT, the AUTH rows, the
session's end, the doorbells, SLOT_STATE, the heartbeats, the token and STAGE_HOLD leave the run, the memory with every byte of
it, the ports, the clocks, the links and every other part of the device alone. The DMA rows, the event-queue windows and the
link rows leave the run's stages, the streams, the versions, the governor, the links, the log, the stills, the trust state, the
start-up, the directory and every byte of memory alone. The rows of the forward, where their checked reads find nothing, leave the power, the governor, the trust state,
the start-up, the deferred queues, the ports, the log and the stills alone; and where no version is held, the versions and every
byte of memory outside the statistics object and the stash objects. -/
def Obligations.CommandsLeaveOtherPartsAlone : Prop :=
  (∀ (s t : State) (c : Instr), exec c s = .next t →
    (match c with
     | .readStaged .. | .segReadInit .. | .segReadNext .. | .segWriteInit .. | .segAbort .. | .segTransferTimeout ..
     | .authChallenge .. | .authResponse .. | .authEnd .. | .serviceIdleExpiry .. | .doorbell .. | .slotStateFree ..
     | .heartbeat | .fieldHeartbeatRx .. | .conductorToken .. | .conductorLapse | .stageHold .. => True
     | _ => False) →
    OnlyControl s.dev t.dev ∧ t.pending = s.pending ∧ ∀ a, memGet t.dev.ms.mem a = memGet s.dev.ms.mem a) ∧
  (∀ (s t : State) (c : Instr), exec c s = .next t →
    (match c with
     | .dmaQueueEnable .. | .dmaQueueDisable .. | .sqTail .. | .cqHead .. | .nop .. | .evqPop .. | .evqArm ..
     | .evqClearUnderrun .. | .pcieLinkDown .. | .pcieLinkUp .. | .pcieHotReset .. | .pcieFlr .. | .descriptorComplete .. =>
       True
     | _ => False) →
    t.dev.stages = s.dev.stages ∧ t.dev.run = s.dev.run ∧ t.dev.streams = s.dev.streams ∧
    t.dev.versions = s.dev.versions ∧ t.dev.gov = s.dev.gov ∧ t.dev.net = s.dev.net ∧ t.dev.log = s.dev.log ∧
    t.dev.still = s.dev.still ∧ t.dev.sec = s.dev.sec ∧ t.dev.boot = s.dev.boot ∧ t.dev.svc = s.dev.svc ∧
    t.dev.risk = s.dev.risk ∧ t.dev.micros = s.dev.micros ∧ t.dev.batches = s.dev.batches ∧
    (∀ a, memGet t.dev.ms.mem a = memGet s.dev.ms.mem a) ∧ t.dev.ms.dir = s.dev.ms.dir) ∧
  (∀ (s t : State) (c : Instr), exec c s = .next t →
    (match c with
     | .inputSampleTake .. | .vectorProgramRow .. | .quantiseRow .. | .clipBlockQuantise .. | .fwdTileOpIssue ..
     | .fwdTileOpComplete ⟨_, []⟩ | .sideTileOpComplete .. | .dailiesReferenceComplete .. => True
     | _ => False) →
    t.dev.pwr = s.dev.pwr ∧ t.dev.gov = s.dev.gov ∧ t.dev.sec = s.dev.sec ∧ t.dev.boot = s.dev.boot ∧
    t.dev.svc = s.dev.svc ∧ t.dev.bindings = s.dev.bindings ∧ t.dev.deferred = s.dev.deferred ∧
    t.dev.batches = s.dev.batches ∧ t.dev.ports = s.dev.ports ∧
    t.dev.log = s.dev.log ∧ t.dev.still = s.dev.still ∧ t.dev.risk = s.dev.risk ∧ t.dev.micros = s.dev.micros ∧
    (s.dev.versions = [] → t.dev.versions = []) ∧ KeepsBytes s.dev t.dev)

/-! ### The engines (chapters 03 to 08) -/

/-- What a stage holds of the forward and the backward of a sample. -/
def fwdOf (d : Device) (h : Nat) : Option Fwd := (tget d.stages h).bind (·.fwd)
def bwdOf (d : Device) (h : Nat) : Option Bwd := (tget d.stages h).bind (·.bwd)

/-- Conversions that end no AUDIT sample: training, another class, or none of them non-finite (R173). -/
def Unhalted (d : Device) (w : Fwd) (cs : List Conv) : Prop :=
  w.stream = 0 ∨ d.classOf w.stream ≠ clsAudit ∨ ∀ c ∈ cs, c.outcome ≠ .nonFinite

/-- A sample that no other stage can end: a training one, or no serving stage takes a loss, whose target object could be LOST
(R217), or stands on a core that runs no more (R331, R332). -/
def Unlosing (d : Device) (stream : Nat) : Prop :=
  stream = 0 ∨ ∀ p ∈ d.stages, Desc.serving p.2.desc = true → Desc.lossStage p.2.desc = false ∧ d.deadCore p.2.core = false

/-- Rows that end no AUDIT sample: training, another class, or finite (R173). -/
def Untrapped (d : Device) (w : Fwd) (row : List Nat) : Prop :=
  w.stream = 0 ∨ d.classOf w.stream ≠ clsAudit ∨ ∀ v ∈ row, fIsFinite v = true

/-- Another operation of the sample is still to complete. -/
def moreOps (x : Nat) (w : Fwd) (u b : Nat) : Prop :=
  ∃ u' b', u' < outTiles x ∧ b' < tokenBlocks x w.tokens ∧ (u', b') ≠ (u, b) ∧ (u', b') ∉ w.done

/-- The output codes of one token and output tile from the values of order 5 (order 6 of R108). -/
def outCodes (d : Device) (h : Nat) (x : Stage) (w : Fwd) (u t : Nat) (y : Nat → Nat) : List Nat :=
  (List.range (min 128 (Desc.outChannels x.desc - 128 * u))).map (fun o =>
    (outConv x.desc (rounding (Desc.outRounding x.desc) (d.purposeKey h x w.stream Pur.out) w.turn
      (elementIx x.desc w.index t (128 * u + o) (Desc.outChannels x.desc))) (y o)).code)

/-- What a stage reads of its version: the working copy, where the vein unit is used the vein weights, and where the weights are
in CB16 the codebook. -/
def weightObjects (d : Device) (x : Stage) (w : Fwd) : List Nat :=
  (d.weightsFor x w).1 :: (if x.veinsUsed = [] then [] else [(d.weightsFor x w).2.1]) ++ d.codebookObject x

/-- A sample's way forward through a stage (R388, R216, R111, R130, R100, R26, R29, R44, R107 to R109, R113, R175 to R177, R221). A
LANE_FIRST stage takes its next input entry where it keeps R387, and its rows become the stage's input; one that does not is
refused. The vector program runs on a row and leaves its flags with the stage's core; the quantiser scales a row by its amax over
Qmax, or a clip block, past the version gate, at the least k that meets CLIP_LIMIT, and writes codes and scale words with the row
count as tag. An operation is issued once its version is published, a wait counted once, by the stage that holds its core's issue
unit; where the holder has nothing ready the unit passes to the next holder. Its completion writes order 6 of every output, or none
where a tag differs, and nothing at all while its core stands still. The side unit takes its cores in turn; a reference compares a
tile, skipped where its masters are poisoned. An object that engines cannot read parks the stage.
The model's own readings in it: log entries 56, 57, 58, 61, 109. -/
def Obligations.ForwardWorkFollowsItsRules : Prop :=
  (∀ (s : State) (h n m : Nat), fwdOf s.dev h = none →
    exec (.vectorProgramRow h n) s = .next s ∧ exec (.quantiseRow h n) s = .next s ∧
    exec (.clipBlockQuantise h n) s = .next s ∧ exec (.fwdTileOpIssue h n m) s = .next s ∧
    exec (.fwdTileOpComplete ⟨h, []⟩) s = .next s ∧ exec (.sideTileOpComplete h n m) s = .next s) ∧
  (∀ (s : State) (h : Nat) (x : Stage), tget s.dev.stages h = some x →
    (x.free = false ∨ Desc.laneFirst x.desc = false ∨ s.dev.nextSample x = none →
      exec (.inputSampleTake h) s = .next s) ∧
    (∀ q k, x.free = true → Desc.laneFirst x.desc = true → s.dev.nextSample x = some (0, q) → s.dev.run.take = some k →
      let ring := Desc.inputObject x.desc
      let e := s.dev.ringEntry ring (s.dev.ringConsumer ring + q)
      (∀ o, s.dev.ready ring = false → s.dev.entry ring = some o → o.forbids 0 false true = false → s.dev.failsAtOnce ring o = false →
        ∃ t, exec (.inputSampleTake h) s = .next t ∧ (tget t.dev.stages h).map (·.state) = some .parked ∧
          (ring, .stage h) ∈ t.dev.ms.waiters) ∧
      (s.dev.ready ring = true →
      (s.dev.runState ≠ 3 ∨ s.dev.ringProducer ring ≤ s.dev.ringConsumer ring + q ∨ s.dev.takeEnds ring q = true →
        exec (.inputSampleTake h) s = .next s) ∧
      (s.dev.runState = 3 → s.dev.ringConsumer ring + q < s.dev.ringProducer ring → s.dev.takeEnds ring q = false →
        q ∉ k.refused →
        (s.dev.entryOk x.desc e = false ∨ s.dev.ringsAgree e q = false →
          ∃ t, exec (.inputSampleTake h) s = .next t ∧ t.dev.run.take.map (·.refused) = some (q :: k.refused) ∧
            (tget t.dev.stages h).map (·.nextIx) = some (s.dev.stepIx x) ∧ fwdOf t.dev h = none ∧ t.dev.ms = s.dev.ms) ∧
        (s.dev.entryOk x.desc e = true → s.dev.ringsAgree e q = true →
          s.dev.unreadable (bits e 64 32 :: targetObject x.desc e) = none →
          s.dev.replayHolds q = false → s.dev.replayRefuses q = false →
          ∃ t, exec (.inputSampleTake h) s = .next t ∧ KeepsBytes s.dev t.dev ∧
            (Desc.vector x.desc = true ∨ 0 < Desc.outChannels x.desc →
              (fwdOf t.dev h).map (fun w => (w.stream, w.seq, w.take, w.input)) =
                some (0, q, k.number, (s.dev.loadRows x.desc e).1)) ∧
            (tget k.entries q = none → (t.dev.run.take.bind (fun k => tget k.entries q)) = some e) ∧
            (t.dev.run.take.bind (fun k => tget k.digests (q * 2 ^ 33 + Desc.layer x.desc))) = some (s.dev.sampleData e))))) ∧
    (∀ st q, st ≠ 0 → x.free = true → Desc.laneFirst x.desc = true → s.dev.nextSample x = some (st, q) →
      let e := s.dev.entryOf st q
      (s.dev.entryOk x.desc e = false → (s.dev.sampleOf st q).isSome = true →
        ∃ t, exec (.inputSampleTake h) s = .next t ∧
          (t.dev.sampleOf st q).bind (·.ending) = some ⟨St.range, 0, 0xFF⟩ ∧
          (s.dev.versions = [] → t.dev.ms = s.dev.ms)) ∧
      (s.dev.entryOk x.desc e = true → s.dev.unreadable (bits e 64 32 :: targetObject x.desc e) = none →
        Desc.vector x.desc = true ∨ 0 < Desc.outChannels x.desc → Unlosing s.dev st →
        ∃ t, exec (.inputSampleTake h) s = .next t ∧ KeepsBytes s.dev t.dev ∧
          (fwdOf t.dev h).map (fun w => (w.stream, w.seq, w.input)) = some (st, q, (s.dev.loadRows x.desc e).1)))) ∧
  (∀ (s : State) (h : Nat) (x : Stage) (w : Fwd), tget s.dev.stages h = some x → x.fwd = some w →
    (∀ n, w.tokens ≤ n ∨ (tget w.rows n).isSome = true ∨ s.dev.halts x = true →
      exec (.vectorProgramRow h n) s = .next s) ∧
    (∀ n o e, n < w.tokens → tget w.rows n = none → s.dev.halts x = false →
      s.dev.unreadable (programObject x.desc) = some o → s.dev.entry o = some e → e.forbids 0 false true = false →
      s.dev.failsAtOnce o e = false →
      ∃ t, exec (.vectorProgramRow h n) s = .next t ∧ (tget t.dev.stages h).map (·.state) = some .parked ∧
        (o, .stage h) ∈ t.dev.ms.waiters) ∧
    (∀ n, n < w.tokens → tget w.rows n = none → s.dev.halts x = false → s.dev.unreadable (programObject x.desc) = none →
      let r := progRow x.desc (s.dev.progEnv h x w.stream w.turn w.index n (w.targets.getD n 0xFFFF_FFFF)) (w.input.getD n [])
      Untrapped s.dev w r.1 →
      (Desc.vector x.desc = false →
        ∃ t, exec (.vectorProgramRow h n) s = .next t ∧ t.dev.ms = s.dev.ms ∧ t.dev.run = s.dev.run ∧
          (fwdOf t.dev h).map (·.rows) = some (tset w.rows n r.1) ∧
          tgetD t.dev.engineFlags x.unit 0 = tgetD s.dev.engineFlags x.unit 0 ||| flagWord 3 r.2) ∧
      (Desc.vector x.desc = true → (tset w.rows n r.1).length ≠ w.tokens → Unlosing s.dev w.stream →
        let cs := (List.range r.1.length).map (fun c => outConv x.desc (rounding (Desc.outRounding x.desc)
          (s.dev.purposeKey h x w.stream Pur.out) w.turn (elementIx x.desc w.index n c r.1.length)) (r.1.getD c 0))
        Unhalted s.dev w cs →
        ∃ t, exec (.vectorProgramRow h n) s = .next t ∧
          (fwdOf t.dev h).map (fun w => tget w.out (64 * n)) = some (some (cs.map (·.code))))) ∧
    (∀ n row, tget w.rows n = some row → quantised x.desc = true → Desc.learned x.desc = false → tget w.codes n = none →
      s.dev.halts x = false → w.codes.length = n →
      let a := (tokenScale (Desc.aFormat x.desc) (rowAmax x.veinsUsed row).1).1
      let m := s.dev.actModes h x w n
      let q := quantElems (Desc.aFormat x.desc) x.veinsUsed row a m.1
      let vs := veinElems x.veinsUsed row m.2
      Unhalted s.dev w (q.2 ++ vs) →
      ∃ t, exec (.quantiseRow h n) s = .next t ∧ (tget t.dev.stages h).map (·.rowCount) = some (x.rowCount + 1) ∧
        (fwdOf t.dev h).map (fun w => (tget w.codes n, tget w.scales n, tget w.veinX n)) = some (some q.1,
          some (ScaleWord.mk a 0 (x.rowCount % 64) (Desc.aFormat x.desc) 0).toNat, some (vs.map (·.code)))) ∧
    (∀ b, quantised x.desc = true → Desc.learned x.desc = true → s.dev.halts x = false →
      clipTokens x.desc w.tokens b ≠ [] →
      (∀ n ∈ clipTokens x.desc w.tokens b, (tget w.rows n).isSome = true ∧ tget w.codes n = none) →
      (s.dev.atGate h x w).1 = true →
      let d := (s.dev.atGate h x w).2
      let rows := (clipTokens x.desc w.tokens b).map (fun n => (n, tgetD w.rows n []))
      let valid := scaleOk (d.learnedScale x 0)
      let k := if valid then (clipK (Desc.clipLimit x.desc) (d.clipCounts x rows (fun n => (d.actModes h x w n).1))).1 else 0
      let q := fun (r : Nat × List Nat) => quantElems (Desc.aFormat x.desc) x.veinsUsed r.2 (d.learnedScale x k)
        (d.actModes h x w r.1).1
      (∀ r ∈ rows, Unhalted s.dev w ((q r).2 ++ veinElems x.veinsUsed r.2 (d.actModes h x w r.1).2)) →
      ∃ t, exec (.clipBlockQuantise h b) s = .next t ∧
        (tget t.dev.stages h).map (·.rowCount) = some (x.rowCount + rows.length) ∧
        (1 ≤ k → k ≤ 3 → w.recompute = none →
          t.dev.get (Obj.clipRescaleK1 + (k - 1)) = (s.dev.get (Obj.clipRescaleK1 + (k - 1)) + 1) % 2 ^ 64) ∧
        (valid = false → t.dev.get Obj.invalidScaleCount = (s.dev.get Obj.invalidScaleCount + 1) % 2 ^ 64) ∧
        ∀ r ∈ rows, (fwdOf t.dev h).map (fun w => (tget w.codes r.1,
          (tget w.scales r.1).map (fun v => (ScaleWord.ofNat v).scale))) =
            some (some (q r).1, some (d.learnedScale x k % 2 ^ 32))) ∧
    (∀ u b, let v := s.dev.weightsFor x w
      (quantised x.desc = false ∨ outTiles x.desc ≤ u ∨ blockTokens x.desc w.tokens b = [] ∨ (u, b) ∈ w.done ∨
          s.dev.arrayBusy x.core = true ∨ s.dev.halts x = true ∨ s.dev.coreHeld x.core = true ∨
          (∃ n ∈ blockTokens x.desc w.tokens b, tget w.codes n = none) →
        exec (.fwdTileOpIssue h u b) s = .next s) ∧
      (quantised x.desc = true → u < outTiles x.desc → blockTokens x.desc w.tokens b ≠ [] → (u, b) ∉ w.done →
        s.dev.arrayBusy x.core = false → s.dev.halts x = false → s.dev.coreHeld x.core = false →
        (∀ n ∈ blockTokens x.desc w.tokens b, (tget w.codes n).isSome = true) →
        (w.stream = 0 → s.dev.gatePasses (Desc.layer x.desc) = false →
          (w.gateWait = true → exec (.fwdTileOpIssue h u b) s = .next s) ∧
          (w.gateWait = false →
            ∃ t, exec (.fwdTileOpIssue h u b) s = .next t ∧ t.dev.ms = s.dev.ms ∧
              t.dev.get Obj.versionGateWaits = (s.dev.get Obj.versionGateWaits + 1) % 2 ^ 64 ∧
              fwdOf t.dev h = some { w with gateWait := true })) ∧
        (w.stream ≠ 0 ∨ s.dev.gatePasses (Desc.layer x.desc) = true →
          (∀ o ∈ weightObjects s.dev x w, s.dev.canRead o = true) → x.fetching = false →
          let d := (s.dev.atGate h x w).2
          ((s.dev.unitOf x.core).holder = some h →
            ∃ t, exec (.fwdTileOpIssue h u b) s = .next t ∧ fwdOf t.dev h = some w ∧
              (tget t.dev.stages h).map (fun y => (y.op, y.version, y.state)) =
                some (some (u, b), some v.2.2, if x.state = .ready then .running else x.state)) ∧
          ((s.dev.unitOf x.core).holder ≠ some h →
            ((d.readyOn x.core).any (fun r => (s.dev.unitOf x.core).holder == some r.1) = true →
              ∃ t, exec (.fwdTileOpIssue h u b) s = .next t ∧ fwdOf t.dev h = some w ∧
                (tget t.dev.stages h).map (·.op) = some x.op ∧ t.dev.issue = s.dev.issue) ∧
            ((d.readyOn x.core).any (fun r => (s.dev.unitOf x.core).holder == some r.1) = false →
              d.nextHolder x.core = some h →
              ∃ t, exec (.fwdTileOpIssue h u b) s = .next t ∧ fwdOf t.dev h = some w ∧
                (tget t.dev.stages h).map (·.op) = some (some (u, b)) ∧ (t.dev.unitOf x.core).holder = some h ∧
                ∀ r ∈ d.readyOn x.core, r.1 ≠ h →
                  tget (t.dev.unitOf x.core).passed r.1 = some (tgetD (s.dev.unitOf x.core).passed r.1 0 + 1)))))) ∧
    (x.op = none ∨ s.dev.coreStopped x.core = true → exec (.fwdTileOpComplete ⟨h, []⟩) s = .next s) ∧
    (∀ u b, x.op = some (u, b) → s.dev.coreStopped x.core = false →
      let v := s.dev.weightsFor x w
      let tiles := (List.range (inTiles x.desc)).map (fun j => s.dev.wTile x v.1 u j)
      ∃ t, exec (.fwdTileOpComplete ⟨h, []⟩) s = .next t ∧ (tget t.dev.stages h).map (·.op) = some none ∧
        ((s.dev.marked (weightObjects s.dev x w)).isSome = true →
          (tget t.dev.stages h).map (·.state) = some .parked ∧ fwdOf t.dev h = some w ∧
          t.dev.get Obj.fwdOperations = s.dev.get Obj.fwdOperations) ∧
        (s.dev.marked (weightObjects s.dev x w) = none →
          ((s.dev.tagFault x v.2.1 u tiles).isSome = true →
            t.dev.get Obj.scaleSkewCount = (s.dev.get Obj.scaleSkewCount + 1) % 2 ^ 64 ∧
            t.dev.get Obj.fwdOperations = s.dev.get Obj.fwdOperations) ∧
          (s.dev.tagFault x v.2.1 u tiles = none →
            t.dev.get Obj.fwdOperations = (s.dev.get Obj.fwdOperations + 1) % 2 ^ 64 ∧
            t.dev.get Obj.fwdPlanesSkipped = (s.dev.get Obj.fwdPlanesSkipped +
              s.dev.planesSkipped x u (blockTokens x.desc w.tokens b).length tiles) % 2 ^ 64 ∧
            (w.stream = 0 → Desc.vector x.desc = false → moreOps x.desc w u b →
              ∀ n ∈ blockTokens x.desc w.tokens b, (fwdOf t.dev h).map (fun w => tget w.out (64 * n + u)) =
                some (some (outCodes s.dev h x w u n (fun o =>
                  (s.dev.forwardValue x w v.2.1 u n o tiles (s.dev.book x)).1))))))) ∧
    (∀ u b, let v := s.dev.weightsFor x w
      (Desc.vector x.desc = true ∨ Desc.side x.desc = false ∨ outTiles x.desc ≤ u ∨ (u, b) ∈ w.done ∨ s.dev.halts x = true ∨
          blockTokens x.desc w.tokens b = [] ∨ (∃ n ∈ blockTokens x.desc w.tokens b, tget w.rows n = none) →
        exec (.sideTileOpComplete h u b) s = .next s) ∧
      (Desc.vector x.desc = false → Desc.side x.desc = true → u < outTiles x.desc → (u, b) ∉ w.done → s.dev.halts x = false →
        blockTokens x.desc w.tokens b ≠ [] → (∀ n ∈ blockTokens x.desc w.tokens b, (tget w.rows n).isSome = true) →
        (Desc.linear x.desc = true → (s.dev.atGate h x w).1 = true) → (Desc.linear x.desc = false → x.fetching = false) →
        let d := if Desc.linear x.desc then (s.dev.atGate h x w).2 else s.dev
        (d.sideTurn (x.core / 8) ≠ some (x.core % 8) →
          ∃ t, exec (.sideTileOpComplete h u b) s = .next t ∧ (fwdOf t.dev h).map (·.done) = some w.done ∧
            t.dev.get Obj.fwdOperations = s.dev.get Obj.fwdOperations) ∧
        (d.sideTurn (x.core / 8) = some (x.core % 8) → (s.dev.unitOf x.core).holder = some h →
          ∃ t, exec (.sideTileOpComplete h u b) s = .next t ∧
            t.dev.get Obj.fwdOperations = (s.dev.get Obj.fwdOperations + 1) % 2 ^ 64 ∧
            tget t.dev.sideLast (x.core / 8) = some (x.core % 8) ∧
            (w.stream = 0 → moreOps x.desc w u b →
              (fwdOf t.dev h).map (·.done) = some (w.done ++ [(u, b)]) ∧
              ∀ n ∈ blockTokens x.desc w.tokens b, (fwdOf t.dev h).map (fun w => tget w.out (64 * n + u)) =
                some (some (outCodes s.dev h x w u n (fun o =>
                  (blockDot 64 (List.zip (bf16Row (tgetD w.rows n [])) (d.sideColumn x w v.1 (128 * u + o)))).1))))))) ∧
    (x.dailies = [] → exec (.dailiesReferenceComplete h) s = .next s) ∧
    (∀ u row ys rest, x.dailies = (u, row, ys) :: rest →
      let master := s.dev.masterOf (Desc.layer x.desc)
      let refs := (List.range ys.length).map (fun o => (s.dev.reference master x.desc row (128 * u + o)).1)
      let beyond := dailyOver (s.dev.get Obj.dailiesThreshold) ys refs
      (s.dev.sideTurn (x.core / 8) ≠ some (x.core % 8) ∨ s.dev.coreWants x.core = true ∨ s.dev.dailyWants x = false →
        exec (.dailiesReferenceComplete h) s = .next s) ∧
      (s.dev.sideTurn (x.core / 8) = some (x.core % 8) → s.dev.coreWants x.core = false → s.dev.dailyWants x = true →
        ∃ t, exec (.dailiesReferenceComplete h) s = .next t ∧ KeepsBytes s.dev t.dev ∧
          (tget t.dev.stages h).map (·.dailies) = some rest ∧
          (s.dev.masterBad master = true ∨ s.dev.names master = false ∨ (∃ r ∈ refs, fIsFinite r = false) →
            t.dev.get Obj.dailiesTilesTotal = s.dev.get Obj.dailiesTilesTotal ∧
            t.dev.run.take.map (fun k => (k.tiles, k.skipped)) = s.dev.run.take.map (fun k => (k.tiles, k.skipped + 1))) ∧
          (s.dev.masterBad master = false → s.dev.names master = true → (∀ r ∈ refs, fIsFinite r = true) →
            t.dev.get Obj.dailiesTilesTotal = (s.dev.get Obj.dailiesTilesTotal + 1) % 2 ^ 64 ∧
            t.dev.run.take.map (fun k => (k.tiles, k.overTol, k.skipped)) =
              s.dev.run.take.map (fun k => (k.tiles + 1, k.overTol + beyond.toNat, k.skipped))))))

/-- Another input-gradient operation of the sample is still to complete. -/
def moreGrads (x : Nat) (w : Bwd) (j b : Nat) : Prop :=
  ∃ j' b', j' < inTiles x ∧ b' < tokenBlocks x w.tokens ∧ (j', b') ≠ (j, b) ∧ (j', b') ∉ w.done

/-- The items a sample of a stage pushes, in the order of R155: stage, kind, sample and input tile. -/
def itemsOf (h : Nat) (x : Stage) (seq : Nat) : List (Nat × Nat × Nat × Nat) :=
  if Desc.wgrad x.desc then
    (List.range (inTiles x.desc)).map (fun j => (h, 0, seq, j)) ++ (if x.veinsUsed = [] then [] else [(h, 1, seq, 0)])
  else []

/-- No stage of a core has an item left to push or a backward that only waits for its end. -/
def Unpushing (d : Device) (core : Nat) : Prop :=
  ∀ p ∈ d.stages, p.2.core = core → ∀ w, p.2.bwd = some w → p.2.itemCount ≤ w.pushed ∧ w.sent = false

/-- The backward of a training sample (R27, R141 to R143, R147, R155 to R157, R159 to R161, R214, R223). A stage at rest receives the
gradients of its next sample, in ascending index, pushes its weight-gradient items in their order, and takes its input from its
stash where that is there; a line whose tag is not the sender's count is refused. One without its input waits for a recompute
pass; an anchor whose stash misses a deadline takes the cheaper path from the anchor below, and the first anchor stalls. An item
the array may issue adds its partial to each accumulator element; an input-gradient operation, issued by the holder of the issue
unit, leaves the block sums over 128 outputs, and the last one sends the sample's gradient below under its tag.
The model's own readings in it: log entries 16, 59, 108, 109. -/
def Obligations.BackwardWorkFollowsItsRules : Prop :=
  (∀ (s : State) (h : Nat) (x : Stage), tget s.dev.stages h = some x → x.bwd = none →
    (s.dev.halts x = true ∨ x.fwd.isSome = true ∨ s.dev.nextGrad h x = none →
      ∃ t, exec (.gradientLineReceive h) s = .next t ∧ t.dev.stages = s.dev.stages ∧ t.dev.deferred = s.dev.deferred) ∧
    (∀ g gs, s.dev.nextGrad h x = some (g :: gs) → s.dev.halts x = false → x.fwd = none →
      x.stashLost.contains g.seq = false →
      (∀ a, s.dev.anchorBelow x g.seq = some a → s.dev.ready (Desc.stash a.2.desc) = true) →
      ((∀ l ∈ g :: gs, l.refused = []) →
        (x.anchor = false ∨ s.dev.stashReady x = false →
          ∃ t, exec (.gradientLineReceive h) s = .next t ∧
            (tget t.dev.stages h).map (·.gradIn) = some (x.gradIn.filter (fun y => y.seq != g.seq)) ∧
            (bwdOf t.dev h).map (fun w => (w.seq, w.take, w.input, w.grads)) =
              some (g.seq, g.take, none, if Desc.lossStage x.desc then [] else (g :: gs).map (·.rows))) ∧
        (∀ rows, x.anchor = true → s.dev.stashReady x = true → tget x.stash g.seq = some rows → Desc.vector x.desc = false →
          sendsBack x = true →
          s.dev.unreadable (programObject x.desc ++ targetObject x.desc (s.dev.entryOf 0 g.seq)) = none →
          ∃ t, exec (.gradientLineReceive h) s = .next t ∧
            (bwdOf t.dev h).map (fun w => (w.seq, w.take, w.input)) = some (g.seq, g.take, some rows) ∧
            ((∀ it ∈ s.dev.queueOf x.core, it.stage ≠ h) →
              (s.dev.queueOf x.core).length + x.itemCount ≤ s.dev.get Obj.deferredDepth →
              x.gBytes rows.length + inTiles x.desc * x.xBytes 0 rows.length + x.xBytes 1 rows.length ≤
                65536 * Desc.cstorePages x.desc →
              (t.dev.queueOf x.core).take (s.dev.queueOf x.core).length = s.dev.queueOf x.core ∧
              ((t.dev.queueOf x.core).drop (s.dev.queueOf x.core).length).map (fun it => (it.stage, it.kind, it.sample, it.tile)) =
                itemsOf h x g.seq))) ∧
      (gs = [] →
        ∃ t, exec (.gradientLineReceive h) s = .next t ∧
          t.dev.get Obj.scaleSkewCount = (s.dev.get Obj.scaleSkewCount + g.refused.length) % 2 ^ 64))) ∧
  (∀ (s : State) (core : Nat),
    (s.dev.coreStopped core = true ∨ s.dev.nextItem core = none →
      ∃ t, exec (.wgradItemComplete core) s = .next t ∧ t.dev.stages = s.dev.stages ∧ t.dev.deferred = s.dev.deferred) ∧
    (∀ i it x, s.dev.coreStopped core = false → s.dev.nextItem core = some i → (s.dev.queueOf core)[i]? = some it →
      tget s.dev.stages it.stage = some x → Unpushing s.dev core → s.dev.dataRo (Desc.wgradAcc x.desc) = false →
      ∃ t, exec (.wgradItemComplete core) s = .next t ∧ t.dev.queueOf core = (s.dev.queueOf core).eraseIdx i ∧
        t.dev.stages = s.dev.stages ∧ t.dev.get Obj.deferredItems = (s.dev.get Obj.deferredItems + 1) % 2 ^ 64 ∧
        (it.kind ≠ 1 → quantised x.desc = false → s.dev.net.colls = [] → Memory.wf s.dev.ms.mem = true →
          ∀ c o, c < 256 → 256 * it.tile + c < Desc.inChannels x.desc → o < Desc.outChannels x.desc →
            let at_ := (o / 128 * inTiles x.desc + it.tile) * 131072 + 4 * (o % 128 * 256 + c)
            let xs := (List.range it.tokens).map (fun n =>
              ((s.dev.sideX it.stage x it.work n)[256 * it.tile + c]?).getD (.fin false 0 1))
            t.dev.readNat (Desc.wgradAcc x.desc) at_ 4 = (f32bin Val.add (s.dev.readNat (Desc.wgradAcc x.desc) at_ 4)
              (partialOf xs ((List.range it.tokens).map (fun n => it.work.grad n o))).1).1 % 2 ^ 32))) ∧
  (∀ (s : State) (h : Nat) (x : Stage), tget s.dev.stages h = some x →
    (s.dev.stashAsked h x = none ∨ Desc.stashDeadline x.desc = 0 ∨ s.dev.stashReady x = true →
      exec (.stashDeadlineMiss h) s = .next s) ∧
    (∀ seq take, s.dev.stashAsked h x = some (seq, take) → Desc.stashDeadline x.desc ≠ 0 → s.dev.stashReady x = false →
      (s.dev.lowerAnchor x seq = none →
        ∃ t, exec (.stashDeadlineMiss h) s = .next t ∧ t.dev.stages = s.dev.stages ∧
          t.dev.get Obj.firstAnchorStalls = (s.dev.get Obj.firstAnchorStalls + 1) % 2 ^ 64) ∧
      ((s.dev.lowerAnchor x seq).isSome = true →
        ∃ t, exec (.stashDeadlineMiss h) s = .next t ∧ (tget t.dev.stages h).map (·.stashLate) = some true ∧
          (∀ w, x.bwd = some w → w.seq = seq → bwdOf t.dev h = some { w with late := true }) ∧
          (x.bwd.map (·.seq) ≠ some seq → (tget t.dev.stages h).map (·.missed) = some (seq :: x.missed)) ∧
          t.dev.get Obj.stashLate = (s.dev.get Obj.stashLate + 1) % 2 ^ 64))) ∧
  (∀ (s : State) (h : Nat) (x : Stage) (w : Bwd), tget s.dev.stages h = some x → x.bwd = some w →
    (s.dev.halts x = true ∨ s.dev.recomputeReady h x = false →
      ∃ t, exec (.recomputePass h) s = .next t ∧ t.dev.stages = s.dev.stages ∧
        t.dev.get Obj.recomputePasses = s.dev.get Obj.recomputePasses) ∧
    (s.dev.halts x = false → s.dev.recomputeReady h x = true → s.dev.unreadable (s.dev.bwdObjects x w) = none →
      (s.dev.takeUnits w.seq h).1 = false →
      ∃ t, exec (.recomputePass h) s = .next t ∧ bwdOf t.dev h = some w ∧
        t.dev.get Obj.recomputePasses = s.dev.get Obj.recomputePasses) ∧
    (s.dev.halts x = false → s.dev.recomputeReady h x = true → s.dev.unreadable (s.dev.bwdObjects x w) = none →
      (s.dev.takeUnits w.seq h).1 = true → w.sent = false → Desc.vector x.desc = false → sendsBack x = true →
      ∃ t, exec (.recomputePass h) s = .next t ∧
        t.dev.get Obj.recomputePasses = (s.dev.get Obj.recomputePasses +
          (s.dev.rerun w.seq s.dev.stages.length h).eraseDups.length) % 2 ^ 64 ∧
        (bwdOf t.dev h).map (fun w => (w.seq, w.input)) = some (w.seq, tget x.stash w.seq)) ∧
    (∀ j b,
      (w.input = none ∨ w.sent = true ∨ sendsBack x = false ∨ Desc.vector x.desc = true ∨ inTiles x.desc ≤ j ∨ (j, b) ∈ w.done ∨
          s.dev.halts x = true ∨ blockTokens x.desc w.tokens b = [] ∨ s.dev.itemsFirst x.core = true ∨ x.fetching = true →
        ∃ t, exec (.igradTileOpComplete h j b) s = .next t ∧ t.dev.stages = s.dev.stages ∧
          t.dev.get Obj.bwdOperations = s.dev.get Obj.bwdOperations) ∧
      (w.input.isSome = true → w.sent = false → sendsBack x = true → Desc.vector x.desc = false → j < inTiles x.desc →
        (j, b) ∉ w.done → s.dev.halts x = false → blockTokens x.desc w.tokens b ≠ [] → s.dev.itemsFirst x.core = false →
        x.fetching = false →
        s.dev.unreadable ((if Desc.linear x.desc then
            x.weights :: (if x.veinsUsed = [] then [] else [Desc.veinWeight x.desc]) else []) ++
          (if Desc.lossStage x.desc then [] else programObject x.desc)) = none →
        (s.dev.unitOf x.core).holder = some h →
        (Desc.pairwise x.desc = true →
          ∃ t, exec (.igradTileOpComplete h j b) s = .next t ∧
            t.dev.get Obj.bwdOperations = (s.dev.get Obj.bwdOperations + 1) % 2 ^ 64 ∧
            (moreGrads x.desc w j b → (bwdOf t.dev h).map (·.done) = some (w.done ++ [(j, b)])) ∧
            (¬ moreGrads x.desc w j b → x.itemCount ≤ w.pushed → bwdOf t.dev h = none)) ∧
        (let tiles := (List.range (outTiles x.desc)).map (fun u => s.dev.wTile x x.weights u j)
         let skew := (List.range (outTiles x.desc)).findSome? (fun u =>
           s.dev.tagFault x (Desc.veinWeight x.desc) u [tiles.getD u []])
         let ws := ((List.range 256).filter (fun i => 256 * j + i < Desc.inChannels x.desc)).map (fun i =>
           (List.range (Desc.outChannels x.desc)).map (fun o =>
             (s.dev.expandW h x w (tiles.getD (o / 128) []) i (o % 128) o (256 * j + i)).1))
         Desc.pairwise x.desc = false →
          (Desc.side x.desc = false → skew.isSome = true →
            ∃ t, exec (.igradTileOpComplete h j b) s = .next t ∧
              t.dev.get Obj.scaleSkewCount = (s.dev.get Obj.scaleSkewCount + 1) % 2 ^ 64 ∧
              t.dev.get Obj.bwdOperations = s.dev.get Obj.bwdOperations) ∧
          (Desc.side x.desc = true ∨ skew = none →
            ∃ t, exec (.igradTileOpComplete h j b) s = .next t ∧
              t.dev.get Obj.bwdOperations = (s.dev.get Obj.bwdOperations + 1) % 2 ^ 64 ∧
              (moreGrads x.desc w j b →
                (bwdOf t.dev h).map (·.done) = some (w.done ++ [(j, b)]) ∧
                (x.veinsUsed = [] → ∀ n ∈ blockTokens x.desc w.tokens b,
                  (bwdOf t.dev h).map (fun w => tget w.out (64 * n + j)) =
                    some (some (ws.map (fun row => (blockDot 128 ((List.range (Desc.outChannels x.desc)).map (fun o =>
                      (w.grad n o, row.getD o (.fin false 0 1))))).1))))) ∧
              (¬ moreGrads x.desc w j b →
                (x.itemCount ≤ w.pushed → bwdOf t.dev h = none) ∧
                ∀ g y, g ≠ h → tgetD x.origins w.seq [] = [g] → tget s.dev.stages g = some y →
                  (tget t.dev.stages g).map (fun z => z.gradIn.map (fun l => (l.sender, l.seq, l.take, l.tag))) =
                    some (y.gradIn.map (fun l => (l.sender, l.seq, l.take, l.tag)) ++
                      [(h, w.seq, w.take, x.bwdCount % 64)])))))))

/-- The end of a take and the update (R42, R178, R179, R180, R194, R201, R202, R231, R258, R265, R299). The local word is latched once all
local work is done, with the engine flags and the device's rank where a discard bit is set, and LOCAL_HEALTH shows the next take's
bits from then on; a root without reporters forms the verdict at once, and the take is over. A child's word is kept until all are
here, a verdict that comes down ends the take, and a stale one of either is only counted. A Lapidary takes its next layer, stops at
poison, waits once counted where space must be freed, and holds its reservation until the layer ends; a layer that makes a version
is published as a whole with the print's take; a version it must wait for counts once.
The model's own readings in it: log entries 50, 55. -/
def Obligations.TakesEndAndLayersUpdate : Prop :=
  (∀ s : State,
    (s.dev.run.take = none → exec .localHealthLatch s = .next s) ∧
    (∀ k, s.dev.run.take = some k → k.latched = none → s.dev.net.colls = [] →
      (s.dev.takeDone = false ∨ s.dev.pwr.hold = true → exec .localHealthLatch s = .next s) ∧
      (s.dev.takeDone = true → s.dev.pwr.hold = false →
        (∀ p, s.dev.verdictTarget = some p → s.dev.run.formed = none →
          ∃ t w, exec .localHealthLatch s = .next t ∧ t.dev.run.take.map (·.latched) = some (some w) ∧
            bits (t.dev.get Obj.localHealth) 0 32 = bits s.dev.run.nextBits 0 32 ∧ bits w 0 16 = bits k.bits 0 16 ∧
            bits w 48 16 = (if bits k.bits 0 16 = 0 then 0xFFFF else s.dev.get Obj.jobRank % 2 ^ 16) ∧
            bits w 18 4 = bits k.bits 18 4 ||| bits (flagBits (s.dev.runFlags k)) 18 4) ∧
        (s.dev.verdictTarget = none → s.dev.myReporters.1 = [] → s.dev.run.upSent = false → s.dev.run.formed = none →
          ∃ t, exec .localHealthLatch s = .next t ∧ t.dev.run.take = none)))) ∧
  (∀ (s : State) (m : Msg) (early : Bool),
    let stale := m.reserved || s.dev.isLost m.src || decide (16384 < m.payload.length)
    let late := ∀ k, s.dev.run.take = some k → k.number ≠ m.take ∨ s.dev.run.formed.isSome = true
    (stale = true →
      (∃ t, exec (.verdictUp m early) s = .next t ∧ t.dev.run = s.dev.run ∧
        t.dev.get Obj.msgStaleDrops = (s.dev.get Obj.msgStaleDrops + 1) % 2 ^ 64) ∧
      (∃ t, exec (.verdictDown m) s = .next t ∧ t.dev.run = s.dev.run ∧
        t.dev.get Obj.msgStaleDrops = (s.dev.get Obj.msgStaleDrops + 1) % 2 ^ 64)) ∧
    (stale = false → (m.src, m.msgId) ∈ s.dev.net.accepted →
      (∃ t, exec (.verdictUp m early) s = .next t ∧ t.dev.run = s.dev.run ∧
        t.dev.get Obj.msgDuplicates = (s.dev.get Obj.msgDuplicates + 1) % 2 ^ 64) ∧
      ∃ t, exec (.verdictDown m) s = .next t ∧ t.dev.run = s.dev.run ∧
        t.dev.get Obj.msgDuplicates = (s.dev.get Obj.msgDuplicates + 1) % 2 ^ 64) ∧
    (stale = false → (m.src, m.msgId) ∉ s.dev.net.accepted →
      (late ∨ s.dev.mayReport m.src = false →
        ∃ t, exec (.verdictUp m early) s = .next t ∧ t.dev.run = s.dev.run ∧
          t.dev.get Obj.verdictStaleDrops = (s.dev.get Obj.verdictStaleDrops + 1) % 2 ^ 64) ∧
      (late →
        ∃ t, exec (.verdictDown m) s = .next t ∧ t.dev.run = s.dev.run ∧
          t.dev.get Obj.verdictStaleDrops = (s.dev.get Obj.verdictStaleDrops + 1) % 2 ^ 64) ∧
      (∀ k, s.dev.run.take = some k → k.number = m.take → s.dev.run.formed = none →
        (s.dev.mayReport m.src = true → early = false → k.latched = none →
          ∃ t, exec (.verdictUp m early) s = .next t ∧ t.dev.run.take = some k ∧
            t.dev.run.reports = tset s.dev.run.reports m.src (leAt m.payload 0 8) ∧
            (m.src, m.msgId) ∈ t.dev.net.accepted) ∧
        (s.dev.mayReport m.src = true → early = true → s.dev.verdictTarget.isSome = true →
          ∃ t, exec (.verdictUp m early) s = .next t ∧ t.dev.run.take = some k ∧ t.dev.run.upSent = true ∧
            tget t.dev.run.reports m.src = some (leAt m.payload 0 8)) ∧
        (s.dev.mayReport m.src = true → early = true → s.dev.verdictTarget = none →
          ∃ t, exec (.verdictUp m early) s = .next t ∧ t.dev.run.take = none) ∧
        ∃ t, exec (.verdictDown m) s = .next t ∧ t.dev.run.take = none))) ∧
  (∀ (s : State) (lap : Nat),
    (s.dev.dueEntry lap = none → exec (.layerUpdate ⟨lap, []⟩) s = .next s ∧ exec (.workingCopyPublish lap) s = .next s) ∧
    (∀ e take, s.dev.dueEntry lap = some (e, take) →
      let done := fun (t : State) => t.dev.run.updates = s.dev.run.updates.filter (· != (lap, Le.layer e, take)) ∧
        t.dev.get (if lap = 0 then Obj.layerUpdatesA else Obj.layerUpdatesB) =
          (s.dev.get (if lap = 0 then Obj.layerUpdatesA else Obj.layerUpdatesB) + 1) % 2 ^ 64 ∧
        tget t.dev.ms.reserved lap = none
      let stops := fun (c : Instr) => ∀ h, s.dev.layerMarked e = some h →
        ((h, .lapidary lap) ∈ s.dev.ms.waiters → exec c s = .next s) ∧
        (∀ o, s.dev.entry h = some o → o.lost = true → exec c s = .next s) ∧
        (∀ o, s.dev.entry h = some o → o.lost = false → (h, .lapidary lap) ∉ s.dev.ms.waiters →
          ∃ t, exec c s = .next t ∧ t.dev.ms.waiters = s.dev.ms.waiters ++ [(h, .lapidary lap)] ∧ t.dev.run = s.dev.run ∧
            t.dev.get Obj.faultsPoisoned = (s.dev.get Obj.faultsPoisoned + 1) % 2 ^ 64)
      (Le.layer e ∈ s.dev.run.writing ∨ s.dev.lapidaryLives lap = false ∨ s.dev.layerBlocked e = true ∨
          s.dev.lapidaryPaused lap take = true ∨ s.dev.lapidaryOff lap = true ∨ s.dev.pwr.hold = true →
        exec (.layerUpdate ⟨lap, []⟩) s = .next s) ∧
      (Le.layer e ∉ s.dev.run.writing → s.dev.lapidaryLives lap = true → s.dev.layerBlocked e = false →
        s.dev.lapidaryPaused lap take = false → s.dev.lapidaryOff lap = false → s.dev.pwr.hold = false →
        stops (.layerUpdate ⟨lap, []⟩) ∧
        (∀ ctx, s.dev.layerMarked e = none → s.dev.run.contexts.find? (fun c => c.take == take) = some ctx →
          (s.dev.slowFree lap < s.dev.layerGrowth e →
            (lap ∈ s.dev.ms.spaceHold → exec (.layerUpdate ⟨lap, []⟩) s = .next s) ∧
            (lap ∉ s.dev.ms.spaceHold →
              ∃ t, exec (.layerUpdate ⟨lap, []⟩) s = .next t ∧ lap ∈ t.dev.ms.spaceHold ∧ t.dev.run = s.dev.run ∧
                t.dev.get Obj.spaceWaits = (s.dev.get Obj.spaceWaits + 1) % 2 ^ 64)) ∧
          (s.dev.layerGrowth e ≤ s.dev.slowFree lap →
            (Ge.frozen (s.dev.groupOf (Le.group e)) = false →
              ∃ t, exec (.layerUpdate ⟨lap, []⟩) s = .next t ∧ t.dev.run.writing = s.dev.run.writing ++ [Le.layer e] ∧
                t.dev.run.updates = s.dev.run.updates ∧ tget t.dev.ms.reserved lap = some (t.dev.layerGrowth e)) ∧
            (Ge.frozen (s.dev.groupOf (Le.group e)) = true → s.dev.scalesMove e = false →
              Le.learned e = false ∨ tget s.dev.run.residuals (Le.layer e) = none →
              ∃ t, exec (.layerUpdate ⟨lap, []⟩) s = .next t ∧ done t)))) ∧
      (Le.layer e ∉ s.dev.run.writing ∨ s.dev.lapidaryLives lap = false ∨ s.dev.lapidaryOff lap = true ∨ s.dev.pwr.hold = true →
        exec (.workingCopyPublish lap) s = .next s) ∧
      (Le.layer e ∈ s.dev.run.writing → s.dev.lapidaryLives lap = true → s.dev.lapidaryOff lap = false → s.dev.pwr.hold = false →
        stops (.workingCopyPublish lap) ∧
        (s.dev.layerMarked e = none → s.dev.makeWay e = none →
          ((Le.layer e, take) ∈ s.dev.run.pinWait → exec (.workingCopyPublish lap) s = .next s) ∧
          ((Le.layer e, take) ∉ s.dev.run.pinWait →
            ∃ t, exec (.workingCopyPublish lap) s = .next t ∧ t.dev.versions = s.dev.versions ∧
              t.dev.get Obj.pinnedVersionWaits = (s.dev.get Obj.pinnedVersionWaits + 1) % 2 ^ 64)) ∧
        (s.dev.layerMarked e = none → (s.dev.makeWay e).isSome = true →
          ∃ t, exec (.workingCopyPublish lap) s = .next t ∧
            (tgetD t.dev.versions (Le.layer e) []).head?.map (·.take) = some take ∧ done t))))
end

