-- ==== Sys2Proof/Laws/State.lean ====
section
/-!
SUPPORT. One lemma per field of the device and per named update of `Machine/Ops.lean`, each true by definition, so that no
proof unfolds a record update.
-/
namespace Sys2Proof.Machine

variable (d : Device)

@[simp] theorem Device.put_ctl (key v : Nat) : (d.put key v).ctl = { d.ctl with dict := tset d.ctl.dict key v } := rfl
@[simp] theorem Device.put_evqs (key v : Nat) : (d.put key v).evqs = d.evqs := rfl
@[simp] theorem Device.put_ports (key v : Nat) : (d.put key v).ports = d.ports := rfl
@[simp] theorem Device.put_pwr (key v : Nat) : (d.put key v).pwr = d.pwr := rfl
@[simp] theorem Device.put_gov (key v : Nat) : (d.put key v).gov = d.gov := rfl
@[simp] theorem Device.put_sec (key v : Nat) : (d.put key v).sec = d.sec := rfl
@[simp] theorem Device.put_boot (key v : Nat) : (d.put key v).boot = d.boot := rfl
@[simp] theorem Device.put_svc (key v : Nat) : (d.put key v).svc = d.svc := rfl
@[simp] theorem Device.put_ms (key v : Nat) : (d.put key v).ms = d.ms := rfl
@[simp] theorem Device.put_stages (key v : Nat) : (d.put key v).stages = d.stages := rfl
@[simp] theorem Device.put_bindings (key v : Nat) : (d.put key v).bindings = d.bindings := rfl
@[simp] theorem Device.put_scaleRegs (key v : Nat) : (d.put key v).scaleRegs = d.scaleRegs := rfl
@[simp] theorem Device.put_issue (key v : Nat) : (d.put key v).issue = d.issue := rfl
@[simp] theorem Device.put_saveArea (key v : Nat) : (d.put key v).saveArea = d.saveArea := rfl
@[simp] theorem Device.put_sideLast (key v : Nat) : (d.put key v).sideLast = d.sideLast := rfl
@[simp] theorem Device.put_engineFlags (key v : Nat) : (d.put key v).engineFlags = d.engineFlags := rfl
@[simp] theorem Device.put_deferred (key v : Nat) : (d.put key v).deferred = d.deferred := rfl
@[simp] theorem Device.put_run (key v : Nat) : (d.put key v).run = d.run := rfl
@[simp] theorem Device.put_streams (key v : Nat) : (d.put key v).streams = d.streams := rfl
@[simp] theorem Device.put_versions (key v : Nat) : (d.put key v).versions = d.versions := rfl
@[simp] theorem Device.put_batches (key v : Nat) : (d.put key v).batches = d.batches := rfl
@[simp] theorem Device.put_publications (key v : Nat) : (d.put key v).publications = d.publications := rfl
@[simp] theorem Device.put_net (key v : Nat) : (d.put key v).net = d.net := rfl
@[simp] theorem Device.put_log (key v : Nat) : (d.put key v).log = d.log := rfl
@[simp] theorem Device.put_still (key v : Nat) : (d.put key v).still = d.still := rfl
@[simp] theorem Device.put_risk (key v : Nat) : (d.put key v).risk = d.risk := rfl
@[simp] theorem Device.put_out (key v : Nat) : (d.put key v).out = d.out := rfl
@[simp] theorem Device.put_micros (key v : Nat) : (d.put key v).micros = d.micros := rfl
@[simp] theorem Device.put_free (key v : Nat) : (d.put key v).free = d.free := rfl

@[simp] theorem Device.addTo_ctl (key n : Nat) : (d.addTo key n).ctl = { d.ctl with dict := tset d.ctl.dict key ((d.get key + n) % 2 ^ 64) } := rfl
@[simp] theorem Device.addTo_evqs (key n : Nat) : (d.addTo key n).evqs = d.evqs := rfl
@[simp] theorem Device.addTo_ports (key n : Nat) : (d.addTo key n).ports = d.ports := rfl
@[simp] theorem Device.addTo_pwr (key n : Nat) : (d.addTo key n).pwr = d.pwr := rfl
@[simp] theorem Device.addTo_gov (key n : Nat) : (d.addTo key n).gov = d.gov := rfl
@[simp] theorem Device.addTo_sec (key n : Nat) : (d.addTo key n).sec = d.sec := rfl
@[simp] theorem Device.addTo_boot (key n : Nat) : (d.addTo key n).boot = d.boot := rfl
@[simp] theorem Device.addTo_svc (key n : Nat) : (d.addTo key n).svc = d.svc := rfl
@[simp] theorem Device.addTo_ms (key n : Nat) : (d.addTo key n).ms = d.ms := rfl
@[simp] theorem Device.addTo_stages (key n : Nat) : (d.addTo key n).stages = d.stages := rfl
@[simp] theorem Device.addTo_bindings (key n : Nat) : (d.addTo key n).bindings = d.bindings := rfl
@[simp] theorem Device.addTo_scaleRegs (key n : Nat) : (d.addTo key n).scaleRegs = d.scaleRegs := rfl
@[simp] theorem Device.addTo_issue (key n : Nat) : (d.addTo key n).issue = d.issue := rfl
@[simp] theorem Device.addTo_saveArea (key n : Nat) : (d.addTo key n).saveArea = d.saveArea := rfl
@[simp] theorem Device.addTo_sideLast (key n : Nat) : (d.addTo key n).sideLast = d.sideLast := rfl
@[simp] theorem Device.addTo_engineFlags (key n : Nat) : (d.addTo key n).engineFlags = d.engineFlags := rfl
@[simp] theorem Device.addTo_deferred (key n : Nat) : (d.addTo key n).deferred = d.deferred := rfl
@[simp] theorem Device.addTo_run (key n : Nat) : (d.addTo key n).run = d.run := rfl
@[simp] theorem Device.addTo_streams (key n : Nat) : (d.addTo key n).streams = d.streams := rfl
@[simp] theorem Device.addTo_versions (key n : Nat) : (d.addTo key n).versions = d.versions := rfl
@[simp] theorem Device.addTo_batches (key n : Nat) : (d.addTo key n).batches = d.batches := rfl
@[simp] theorem Device.addTo_publications (key n : Nat) : (d.addTo key n).publications = d.publications := rfl
@[simp] theorem Device.addTo_net (key n : Nat) : (d.addTo key n).net = d.net := rfl
@[simp] theorem Device.addTo_log (key n : Nat) : (d.addTo key n).log = d.log := rfl
@[simp] theorem Device.addTo_still (key n : Nat) : (d.addTo key n).still = d.still := rfl
@[simp] theorem Device.addTo_risk (key n : Nat) : (d.addTo key n).risk = d.risk := rfl
@[simp] theorem Device.addTo_out (key n : Nat) : (d.addTo key n).out = d.out := rfl
@[simp] theorem Device.addTo_micros (key n : Nat) : (d.addTo key n).micros = d.micros := rfl
@[simp] theorem Device.addTo_free (key n : Nat) : (d.addTo key n).free = d.free := rfl

@[simp] theorem Device.bump_ctl (key : Nat) : (d.bump key).ctl = { d.ctl with dict := tset d.ctl.dict key ((d.get key + 1) % 2 ^ 64) } := rfl
@[simp] theorem Device.bump_evqs (key : Nat) : (d.bump key).evqs = d.evqs := rfl
@[simp] theorem Device.bump_ports (key : Nat) : (d.bump key).ports = d.ports := rfl
@[simp] theorem Device.bump_pwr (key : Nat) : (d.bump key).pwr = d.pwr := rfl
@[simp] theorem Device.bump_gov (key : Nat) : (d.bump key).gov = d.gov := rfl
@[simp] theorem Device.bump_sec (key : Nat) : (d.bump key).sec = d.sec := rfl
@[simp] theorem Device.bump_boot (key : Nat) : (d.bump key).boot = d.boot := rfl
@[simp] theorem Device.bump_svc (key : Nat) : (d.bump key).svc = d.svc := rfl
@[simp] theorem Device.bump_ms (key : Nat) : (d.bump key).ms = d.ms := rfl
@[simp] theorem Device.bump_stages (key : Nat) : (d.bump key).stages = d.stages := rfl
@[simp] theorem Device.bump_bindings (key : Nat) : (d.bump key).bindings = d.bindings := rfl
@[simp] theorem Device.bump_scaleRegs (key : Nat) : (d.bump key).scaleRegs = d.scaleRegs := rfl
@[simp] theorem Device.bump_issue (key : Nat) : (d.bump key).issue = d.issue := rfl
@[simp] theorem Device.bump_saveArea (key : Nat) : (d.bump key).saveArea = d.saveArea := rfl
@[simp] theorem Device.bump_sideLast (key : Nat) : (d.bump key).sideLast = d.sideLast := rfl
@[simp] theorem Device.bump_engineFlags (key : Nat) : (d.bump key).engineFlags = d.engineFlags := rfl
@[simp] theorem Device.bump_deferred (key : Nat) : (d.bump key).deferred = d.deferred := rfl
@[simp] theorem Device.bump_run (key : Nat) : (d.bump key).run = d.run := rfl
@[simp] theorem Device.bump_streams (key : Nat) : (d.bump key).streams = d.streams := rfl
@[simp] theorem Device.bump_versions (key : Nat) : (d.bump key).versions = d.versions := rfl
@[simp] theorem Device.bump_batches (key : Nat) : (d.bump key).batches = d.batches := rfl
@[simp] theorem Device.bump_publications (key : Nat) : (d.bump key).publications = d.publications := rfl
@[simp] theorem Device.bump_net (key : Nat) : (d.bump key).net = d.net := rfl
@[simp] theorem Device.bump_log (key : Nat) : (d.bump key).log = d.log := rfl
@[simp] theorem Device.bump_still (key : Nat) : (d.bump key).still = d.still := rfl
@[simp] theorem Device.bump_risk (key : Nat) : (d.bump key).risk = d.risk := rfl
@[simp] theorem Device.bump_out (key : Nat) : (d.bump key).out = d.out := rfl
@[simp] theorem Device.bump_micros (key : Nat) : (d.bump key).micros = d.micros := rfl
@[simp] theorem Device.bump_free (key : Nat) : (d.bump key).free = d.free := rfl

@[simp] theorem Device.emit_ctl (o : Out) : (d.emit o).ctl = d.ctl := rfl
@[simp] theorem Device.emit_evqs (o : Out) : (d.emit o).evqs = d.evqs := rfl
@[simp] theorem Device.emit_ports (o : Out) : (d.emit o).ports = d.ports := rfl
@[simp] theorem Device.emit_pwr (o : Out) : (d.emit o).pwr = d.pwr := rfl
@[simp] theorem Device.emit_gov (o : Out) : (d.emit o).gov = d.gov := rfl
@[simp] theorem Device.emit_sec (o : Out) : (d.emit o).sec = d.sec := rfl
@[simp] theorem Device.emit_boot (o : Out) : (d.emit o).boot = d.boot := rfl
@[simp] theorem Device.emit_svc (o : Out) : (d.emit o).svc = d.svc := rfl
@[simp] theorem Device.emit_ms (o : Out) : (d.emit o).ms = d.ms := rfl
@[simp] theorem Device.emit_stages (o : Out) : (d.emit o).stages = d.stages := rfl
@[simp] theorem Device.emit_bindings (o : Out) : (d.emit o).bindings = d.bindings := rfl
@[simp] theorem Device.emit_scaleRegs (o : Out) : (d.emit o).scaleRegs = d.scaleRegs := rfl
@[simp] theorem Device.emit_issue (o : Out) : (d.emit o).issue = d.issue := rfl
@[simp] theorem Device.emit_saveArea (o : Out) : (d.emit o).saveArea = d.saveArea := rfl
@[simp] theorem Device.emit_sideLast (o : Out) : (d.emit o).sideLast = d.sideLast := rfl
@[simp] theorem Device.emit_engineFlags (o : Out) : (d.emit o).engineFlags = d.engineFlags := rfl
@[simp] theorem Device.emit_deferred (o : Out) : (d.emit o).deferred = d.deferred := rfl
@[simp] theorem Device.emit_run (o : Out) : (d.emit o).run = d.run := rfl
@[simp] theorem Device.emit_streams (o : Out) : (d.emit o).streams = d.streams := rfl
@[simp] theorem Device.emit_versions (o : Out) : (d.emit o).versions = d.versions := rfl
@[simp] theorem Device.emit_batches (o : Out) : (d.emit o).batches = d.batches := rfl
@[simp] theorem Device.emit_publications (o : Out) : (d.emit o).publications = d.publications := rfl
@[simp] theorem Device.emit_net (o : Out) : (d.emit o).net = d.net := rfl
@[simp] theorem Device.emit_log (o : Out) : (d.emit o).log = d.log := rfl
@[simp] theorem Device.emit_still (o : Out) : (d.emit o).still = d.still := rfl
@[simp] theorem Device.emit_risk (o : Out) : (d.emit o).risk = d.risk := rfl
@[simp] theorem Device.emit_out (o : Out) : (d.emit o).out = o :: d.out := rfl
@[simp] theorem Device.emit_micros (o : Out) : (d.emit o).micros = d.micros := rfl
@[simp] theorem Device.emit_free (o : Out) : (d.emit o).free = d.free := rfl

@[simp] theorem Device.onCtl_ctl (f : Ctl → Ctl) : (d.onCtl f).ctl = f d.ctl := rfl
@[simp] theorem Device.onCtl_evqs (f : Ctl → Ctl) : (d.onCtl f).evqs = d.evqs := rfl
@[simp] theorem Device.onCtl_ports (f : Ctl → Ctl) : (d.onCtl f).ports = d.ports := rfl
@[simp] theorem Device.onCtl_pwr (f : Ctl → Ctl) : (d.onCtl f).pwr = d.pwr := rfl
@[simp] theorem Device.onCtl_gov (f : Ctl → Ctl) : (d.onCtl f).gov = d.gov := rfl
@[simp] theorem Device.onCtl_sec (f : Ctl → Ctl) : (d.onCtl f).sec = d.sec := rfl
@[simp] theorem Device.onCtl_boot (f : Ctl → Ctl) : (d.onCtl f).boot = d.boot := rfl
@[simp] theorem Device.onCtl_svc (f : Ctl → Ctl) : (d.onCtl f).svc = d.svc := rfl
@[simp] theorem Device.onCtl_ms (f : Ctl → Ctl) : (d.onCtl f).ms = d.ms := rfl
@[simp] theorem Device.onCtl_stages (f : Ctl → Ctl) : (d.onCtl f).stages = d.stages := rfl
@[simp] theorem Device.onCtl_bindings (f : Ctl → Ctl) : (d.onCtl f).bindings = d.bindings := rfl
@[simp] theorem Device.onCtl_scaleRegs (f : Ctl → Ctl) : (d.onCtl f).scaleRegs = d.scaleRegs := rfl
@[simp] theorem Device.onCtl_issue (f : Ctl → Ctl) : (d.onCtl f).issue = d.issue := rfl
@[simp] theorem Device.onCtl_saveArea (f : Ctl → Ctl) : (d.onCtl f).saveArea = d.saveArea := rfl
@[simp] theorem Device.onCtl_sideLast (f : Ctl → Ctl) : (d.onCtl f).sideLast = d.sideLast := rfl
@[simp] theorem Device.onCtl_engineFlags (f : Ctl → Ctl) : (d.onCtl f).engineFlags = d.engineFlags := rfl
@[simp] theorem Device.onCtl_deferred (f : Ctl → Ctl) : (d.onCtl f).deferred = d.deferred := rfl
@[simp] theorem Device.onCtl_run (f : Ctl → Ctl) : (d.onCtl f).run = d.run := rfl
@[simp] theorem Device.onCtl_streams (f : Ctl → Ctl) : (d.onCtl f).streams = d.streams := rfl
@[simp] theorem Device.onCtl_versions (f : Ctl → Ctl) : (d.onCtl f).versions = d.versions := rfl
@[simp] theorem Device.onCtl_batches (f : Ctl → Ctl) : (d.onCtl f).batches = d.batches := rfl
@[simp] theorem Device.onCtl_publications (f : Ctl → Ctl) : (d.onCtl f).publications = d.publications := rfl
@[simp] theorem Device.onCtl_net (f : Ctl → Ctl) : (d.onCtl f).net = d.net := rfl
@[simp] theorem Device.onCtl_log (f : Ctl → Ctl) : (d.onCtl f).log = d.log := rfl
@[simp] theorem Device.onCtl_still (f : Ctl → Ctl) : (d.onCtl f).still = d.still := rfl
@[simp] theorem Device.onCtl_risk (f : Ctl → Ctl) : (d.onCtl f).risk = d.risk := rfl
@[simp] theorem Device.onCtl_out (f : Ctl → Ctl) : (d.onCtl f).out = d.out := rfl
@[simp] theorem Device.onCtl_micros (f : Ctl → Ctl) : (d.onCtl f).micros = d.micros := rfl
@[simp] theorem Device.onCtl_free (f : Ctl → Ctl) : (d.onCtl f).free = d.free := rfl

@[simp] theorem Device.onPwr_ctl (f : Pwr → Pwr) : (d.onPwr f).ctl = d.ctl := rfl
@[simp] theorem Device.onPwr_evqs (f : Pwr → Pwr) : (d.onPwr f).evqs = d.evqs := rfl
@[simp] theorem Device.onPwr_ports (f : Pwr → Pwr) : (d.onPwr f).ports = d.ports := rfl
@[simp] theorem Device.onPwr_pwr (f : Pwr → Pwr) : (d.onPwr f).pwr = f d.pwr := rfl
@[simp] theorem Device.onPwr_gov (f : Pwr → Pwr) : (d.onPwr f).gov = d.gov := rfl
@[simp] theorem Device.onPwr_sec (f : Pwr → Pwr) : (d.onPwr f).sec = d.sec := rfl
@[simp] theorem Device.onPwr_boot (f : Pwr → Pwr) : (d.onPwr f).boot = d.boot := rfl
@[simp] theorem Device.onPwr_svc (f : Pwr → Pwr) : (d.onPwr f).svc = d.svc := rfl
@[simp] theorem Device.onPwr_ms (f : Pwr → Pwr) : (d.onPwr f).ms = d.ms := rfl
@[simp] theorem Device.onPwr_stages (f : Pwr → Pwr) : (d.onPwr f).stages = d.stages := rfl
@[simp] theorem Device.onPwr_bindings (f : Pwr → Pwr) : (d.onPwr f).bindings = d.bindings := rfl
@[simp] theorem Device.onPwr_scaleRegs (f : Pwr → Pwr) : (d.onPwr f).scaleRegs = d.scaleRegs := rfl
@[simp] theorem Device.onPwr_issue (f : Pwr → Pwr) : (d.onPwr f).issue = d.issue := rfl
@[simp] theorem Device.onPwr_saveArea (f : Pwr → Pwr) : (d.onPwr f).saveArea = d.saveArea := rfl
@[simp] theorem Device.onPwr_sideLast (f : Pwr → Pwr) : (d.onPwr f).sideLast = d.sideLast := rfl
@[simp] theorem Device.onPwr_engineFlags (f : Pwr → Pwr) : (d.onPwr f).engineFlags = d.engineFlags := rfl
@[simp] theorem Device.onPwr_deferred (f : Pwr → Pwr) : (d.onPwr f).deferred = d.deferred := rfl
@[simp] theorem Device.onPwr_run (f : Pwr → Pwr) : (d.onPwr f).run = d.run := rfl
@[simp] theorem Device.onPwr_streams (f : Pwr → Pwr) : (d.onPwr f).streams = d.streams := rfl
@[simp] theorem Device.onPwr_versions (f : Pwr → Pwr) : (d.onPwr f).versions = d.versions := rfl
@[simp] theorem Device.onPwr_batches (f : Pwr → Pwr) : (d.onPwr f).batches = d.batches := rfl
@[simp] theorem Device.onPwr_publications (f : Pwr → Pwr) : (d.onPwr f).publications = d.publications := rfl
@[simp] theorem Device.onPwr_net (f : Pwr → Pwr) : (d.onPwr f).net = d.net := rfl
@[simp] theorem Device.onPwr_log (f : Pwr → Pwr) : (d.onPwr f).log = d.log := rfl
@[simp] theorem Device.onPwr_still (f : Pwr → Pwr) : (d.onPwr f).still = d.still := rfl
@[simp] theorem Device.onPwr_risk (f : Pwr → Pwr) : (d.onPwr f).risk = d.risk := rfl
@[simp] theorem Device.onPwr_out (f : Pwr → Pwr) : (d.onPwr f).out = d.out := rfl
@[simp] theorem Device.onPwr_micros (f : Pwr → Pwr) : (d.onPwr f).micros = d.micros := rfl
@[simp] theorem Device.onPwr_free (f : Pwr → Pwr) : (d.onPwr f).free = d.free := rfl

@[simp] theorem Device.onMs_ctl (f : MemState → MemState) : (d.onMs f).ctl = d.ctl := rfl
@[simp] theorem Device.onMs_evqs (f : MemState → MemState) : (d.onMs f).evqs = d.evqs := rfl
@[simp] theorem Device.onMs_ports (f : MemState → MemState) : (d.onMs f).ports = d.ports := rfl
@[simp] theorem Device.onMs_pwr (f : MemState → MemState) : (d.onMs f).pwr = d.pwr := rfl
@[simp] theorem Device.onMs_gov (f : MemState → MemState) : (d.onMs f).gov = d.gov := rfl
@[simp] theorem Device.onMs_sec (f : MemState → MemState) : (d.onMs f).sec = d.sec := rfl
@[simp] theorem Device.onMs_boot (f : MemState → MemState) : (d.onMs f).boot = d.boot := rfl
@[simp] theorem Device.onMs_svc (f : MemState → MemState) : (d.onMs f).svc = d.svc := rfl
@[simp] theorem Device.onMs_ms (f : MemState → MemState) : (d.onMs f).ms = f d.ms := rfl
@[simp] theorem Device.onMs_stages (f : MemState → MemState) : (d.onMs f).stages = d.stages := rfl
@[simp] theorem Device.onMs_bindings (f : MemState → MemState) : (d.onMs f).bindings = d.bindings := rfl
@[simp] theorem Device.onMs_scaleRegs (f : MemState → MemState) : (d.onMs f).scaleRegs = d.scaleRegs := rfl
@[simp] theorem Device.onMs_issue (f : MemState → MemState) : (d.onMs f).issue = d.issue := rfl
@[simp] theorem Device.onMs_saveArea (f : MemState → MemState) : (d.onMs f).saveArea = d.saveArea := rfl
@[simp] theorem Device.onMs_sideLast (f : MemState → MemState) : (d.onMs f).sideLast = d.sideLast := rfl
@[simp] theorem Device.onMs_engineFlags (f : MemState → MemState) : (d.onMs f).engineFlags = d.engineFlags := rfl
@[simp] theorem Device.onMs_deferred (f : MemState → MemState) : (d.onMs f).deferred = d.deferred := rfl
@[simp] theorem Device.onMs_run (f : MemState → MemState) : (d.onMs f).run = d.run := rfl
@[simp] theorem Device.onMs_streams (f : MemState → MemState) : (d.onMs f).streams = d.streams := rfl
@[simp] theorem Device.onMs_versions (f : MemState → MemState) : (d.onMs f).versions = d.versions := rfl
@[simp] theorem Device.onMs_batches (f : MemState → MemState) : (d.onMs f).batches = d.batches := rfl
@[simp] theorem Device.onMs_publications (f : MemState → MemState) : (d.onMs f).publications = d.publications := rfl
@[simp] theorem Device.onMs_net (f : MemState → MemState) : (d.onMs f).net = d.net := rfl
@[simp] theorem Device.onMs_log (f : MemState → MemState) : (d.onMs f).log = d.log := rfl
@[simp] theorem Device.onMs_still (f : MemState → MemState) : (d.onMs f).still = d.still := rfl
@[simp] theorem Device.onMs_risk (f : MemState → MemState) : (d.onMs f).risk = d.risk := rfl
@[simp] theorem Device.onMs_out (f : MemState → MemState) : (d.onMs f).out = d.out := rfl
@[simp] theorem Device.onMs_micros (f : MemState → MemState) : (d.onMs f).micros = d.micros := rfl
@[simp] theorem Device.onMs_free (f : MemState → MemState) : (d.onMs f).free = d.free := rfl

@[simp] theorem Device.onSec_ctl (f : Sec → Sec) : (d.onSec f).ctl = d.ctl := rfl
@[simp] theorem Device.onSec_evqs (f : Sec → Sec) : (d.onSec f).evqs = d.evqs := rfl
@[simp] theorem Device.onSec_ports (f : Sec → Sec) : (d.onSec f).ports = d.ports := rfl
@[simp] theorem Device.onSec_pwr (f : Sec → Sec) : (d.onSec f).pwr = d.pwr := rfl
@[simp] theorem Device.onSec_gov (f : Sec → Sec) : (d.onSec f).gov = d.gov := rfl
@[simp] theorem Device.onSec_sec (f : Sec → Sec) : (d.onSec f).sec = f d.sec := rfl
@[simp] theorem Device.onSec_boot (f : Sec → Sec) : (d.onSec f).boot = d.boot := rfl
@[simp] theorem Device.onSec_svc (f : Sec → Sec) : (d.onSec f).svc = d.svc := rfl
@[simp] theorem Device.onSec_ms (f : Sec → Sec) : (d.onSec f).ms = d.ms := rfl
@[simp] theorem Device.onSec_stages (f : Sec → Sec) : (d.onSec f).stages = d.stages := rfl
@[simp] theorem Device.onSec_bindings (f : Sec → Sec) : (d.onSec f).bindings = d.bindings := rfl
@[simp] theorem Device.onSec_scaleRegs (f : Sec → Sec) : (d.onSec f).scaleRegs = d.scaleRegs := rfl
@[simp] theorem Device.onSec_issue (f : Sec → Sec) : (d.onSec f).issue = d.issue := rfl
@[simp] theorem Device.onSec_saveArea (f : Sec → Sec) : (d.onSec f).saveArea = d.saveArea := rfl
@[simp] theorem Device.onSec_sideLast (f : Sec → Sec) : (d.onSec f).sideLast = d.sideLast := rfl
@[simp] theorem Device.onSec_engineFlags (f : Sec → Sec) : (d.onSec f).engineFlags = d.engineFlags := rfl
@[simp] theorem Device.onSec_deferred (f : Sec → Sec) : (d.onSec f).deferred = d.deferred := rfl
@[simp] theorem Device.onSec_run (f : Sec → Sec) : (d.onSec f).run = d.run := rfl
@[simp] theorem Device.onSec_streams (f : Sec → Sec) : (d.onSec f).streams = d.streams := rfl
@[simp] theorem Device.onSec_versions (f : Sec → Sec) : (d.onSec f).versions = d.versions := rfl
@[simp] theorem Device.onSec_batches (f : Sec → Sec) : (d.onSec f).batches = d.batches := rfl
@[simp] theorem Device.onSec_publications (f : Sec → Sec) : (d.onSec f).publications = d.publications := rfl
@[simp] theorem Device.onSec_net (f : Sec → Sec) : (d.onSec f).net = d.net := rfl
@[simp] theorem Device.onSec_log (f : Sec → Sec) : (d.onSec f).log = d.log := rfl
@[simp] theorem Device.onSec_still (f : Sec → Sec) : (d.onSec f).still = d.still := rfl
@[simp] theorem Device.onSec_risk (f : Sec → Sec) : (d.onSec f).risk = d.risk := rfl
@[simp] theorem Device.onSec_out (f : Sec → Sec) : (d.onSec f).out = d.out := rfl
@[simp] theorem Device.onSec_micros (f : Sec → Sec) : (d.onSec f).micros = d.micros := rfl
@[simp] theorem Device.onSec_free (f : Sec → Sec) : (d.onSec f).free = d.free := rfl

@[simp] theorem Device.onSvc_ctl (f : Svc → Svc) : (d.onSvc f).ctl = d.ctl := rfl
@[simp] theorem Device.onSvc_evqs (f : Svc → Svc) : (d.onSvc f).evqs = d.evqs := rfl
@[simp] theorem Device.onSvc_ports (f : Svc → Svc) : (d.onSvc f).ports = d.ports := rfl
@[simp] theorem Device.onSvc_pwr (f : Svc → Svc) : (d.onSvc f).pwr = d.pwr := rfl
@[simp] theorem Device.onSvc_gov (f : Svc → Svc) : (d.onSvc f).gov = d.gov := rfl
@[simp] theorem Device.onSvc_sec (f : Svc → Svc) : (d.onSvc f).sec = d.sec := rfl
@[simp] theorem Device.onSvc_boot (f : Svc → Svc) : (d.onSvc f).boot = d.boot := rfl
@[simp] theorem Device.onSvc_svc (f : Svc → Svc) : (d.onSvc f).svc = f d.svc := rfl
@[simp] theorem Device.onSvc_ms (f : Svc → Svc) : (d.onSvc f).ms = d.ms := rfl
@[simp] theorem Device.onSvc_stages (f : Svc → Svc) : (d.onSvc f).stages = d.stages := rfl
@[simp] theorem Device.onSvc_bindings (f : Svc → Svc) : (d.onSvc f).bindings = d.bindings := rfl
@[simp] theorem Device.onSvc_scaleRegs (f : Svc → Svc) : (d.onSvc f).scaleRegs = d.scaleRegs := rfl
@[simp] theorem Device.onSvc_issue (f : Svc → Svc) : (d.onSvc f).issue = d.issue := rfl
@[simp] theorem Device.onSvc_saveArea (f : Svc → Svc) : (d.onSvc f).saveArea = d.saveArea := rfl
@[simp] theorem Device.onSvc_sideLast (f : Svc → Svc) : (d.onSvc f).sideLast = d.sideLast := rfl
@[simp] theorem Device.onSvc_engineFlags (f : Svc → Svc) : (d.onSvc f).engineFlags = d.engineFlags := rfl
@[simp] theorem Device.onSvc_deferred (f : Svc → Svc) : (d.onSvc f).deferred = d.deferred := rfl
@[simp] theorem Device.onSvc_run (f : Svc → Svc) : (d.onSvc f).run = d.run := rfl
@[simp] theorem Device.onSvc_streams (f : Svc → Svc) : (d.onSvc f).streams = d.streams := rfl
@[simp] theorem Device.onSvc_versions (f : Svc → Svc) : (d.onSvc f).versions = d.versions := rfl
@[simp] theorem Device.onSvc_batches (f : Svc → Svc) : (d.onSvc f).batches = d.batches := rfl
@[simp] theorem Device.onSvc_publications (f : Svc → Svc) : (d.onSvc f).publications = d.publications := rfl
@[simp] theorem Device.onSvc_net (f : Svc → Svc) : (d.onSvc f).net = d.net := rfl
@[simp] theorem Device.onSvc_log (f : Svc → Svc) : (d.onSvc f).log = d.log := rfl
@[simp] theorem Device.onSvc_still (f : Svc → Svc) : (d.onSvc f).still = d.still := rfl
@[simp] theorem Device.onSvc_risk (f : Svc → Svc) : (d.onSvc f).risk = d.risk := rfl
@[simp] theorem Device.onSvc_out (f : Svc → Svc) : (d.onSvc f).out = d.out := rfl
@[simp] theorem Device.onSvc_micros (f : Svc → Svc) : (d.onSvc f).micros = d.micros := rfl
@[simp] theorem Device.onSvc_free (f : Svc → Svc) : (d.onSvc f).free = d.free := rfl

@[simp] theorem Device.onRun_ctl (f : Run → Run) : (d.onRun f).ctl = d.ctl := rfl
@[simp] theorem Device.onRun_evqs (f : Run → Run) : (d.onRun f).evqs = d.evqs := rfl
@[simp] theorem Device.onRun_ports (f : Run → Run) : (d.onRun f).ports = d.ports := rfl
@[simp] theorem Device.onRun_pwr (f : Run → Run) : (d.onRun f).pwr = d.pwr := rfl
@[simp] theorem Device.onRun_gov (f : Run → Run) : (d.onRun f).gov = d.gov := rfl
@[simp] theorem Device.onRun_sec (f : Run → Run) : (d.onRun f).sec = d.sec := rfl
@[simp] theorem Device.onRun_boot (f : Run → Run) : (d.onRun f).boot = d.boot := rfl
@[simp] theorem Device.onRun_svc (f : Run → Run) : (d.onRun f).svc = d.svc := rfl
@[simp] theorem Device.onRun_ms (f : Run → Run) : (d.onRun f).ms = d.ms := rfl
@[simp] theorem Device.onRun_stages (f : Run → Run) : (d.onRun f).stages = d.stages := rfl
@[simp] theorem Device.onRun_bindings (f : Run → Run) : (d.onRun f).bindings = d.bindings := rfl
@[simp] theorem Device.onRun_scaleRegs (f : Run → Run) : (d.onRun f).scaleRegs = d.scaleRegs := rfl
@[simp] theorem Device.onRun_issue (f : Run → Run) : (d.onRun f).issue = d.issue := rfl
@[simp] theorem Device.onRun_saveArea (f : Run → Run) : (d.onRun f).saveArea = d.saveArea := rfl
@[simp] theorem Device.onRun_sideLast (f : Run → Run) : (d.onRun f).sideLast = d.sideLast := rfl
@[simp] theorem Device.onRun_engineFlags (f : Run → Run) : (d.onRun f).engineFlags = d.engineFlags := rfl
@[simp] theorem Device.onRun_deferred (f : Run → Run) : (d.onRun f).deferred = d.deferred := rfl
@[simp] theorem Device.onRun_run (f : Run → Run) : (d.onRun f).run = f d.run := rfl
@[simp] theorem Device.onRun_streams (f : Run → Run) : (d.onRun f).streams = d.streams := rfl
@[simp] theorem Device.onRun_versions (f : Run → Run) : (d.onRun f).versions = d.versions := rfl
@[simp] theorem Device.onRun_batches (f : Run → Run) : (d.onRun f).batches = d.batches := rfl
@[simp] theorem Device.onRun_publications (f : Run → Run) : (d.onRun f).publications = d.publications := rfl
@[simp] theorem Device.onRun_net (f : Run → Run) : (d.onRun f).net = d.net := rfl
@[simp] theorem Device.onRun_log (f : Run → Run) : (d.onRun f).log = d.log := rfl
@[simp] theorem Device.onRun_still (f : Run → Run) : (d.onRun f).still = d.still := rfl
@[simp] theorem Device.onRun_risk (f : Run → Run) : (d.onRun f).risk = d.risk := rfl
@[simp] theorem Device.onRun_out (f : Run → Run) : (d.onRun f).out = d.out := rfl
@[simp] theorem Device.onRun_micros (f : Run → Run) : (d.onRun f).micros = d.micros := rfl
@[simp] theorem Device.onRun_free (f : Run → Run) : (d.onRun f).free = d.free := rfl

@[simp] theorem Device.onNet_ctl (f : LinkSys → LinkSys) : (d.onNet f).ctl = d.ctl := rfl
@[simp] theorem Device.onNet_evqs (f : LinkSys → LinkSys) : (d.onNet f).evqs = d.evqs := rfl
@[simp] theorem Device.onNet_ports (f : LinkSys → LinkSys) : (d.onNet f).ports = d.ports := rfl
@[simp] theorem Device.onNet_pwr (f : LinkSys → LinkSys) : (d.onNet f).pwr = d.pwr := rfl
@[simp] theorem Device.onNet_gov (f : LinkSys → LinkSys) : (d.onNet f).gov = d.gov := rfl
@[simp] theorem Device.onNet_sec (f : LinkSys → LinkSys) : (d.onNet f).sec = d.sec := rfl
@[simp] theorem Device.onNet_boot (f : LinkSys → LinkSys) : (d.onNet f).boot = d.boot := rfl
@[simp] theorem Device.onNet_svc (f : LinkSys → LinkSys) : (d.onNet f).svc = d.svc := rfl
@[simp] theorem Device.onNet_ms (f : LinkSys → LinkSys) : (d.onNet f).ms = d.ms := rfl
@[simp] theorem Device.onNet_stages (f : LinkSys → LinkSys) : (d.onNet f).stages = d.stages := rfl
@[simp] theorem Device.onNet_bindings (f : LinkSys → LinkSys) : (d.onNet f).bindings = d.bindings := rfl
@[simp] theorem Device.onNet_scaleRegs (f : LinkSys → LinkSys) : (d.onNet f).scaleRegs = d.scaleRegs := rfl
@[simp] theorem Device.onNet_issue (f : LinkSys → LinkSys) : (d.onNet f).issue = d.issue := rfl
@[simp] theorem Device.onNet_saveArea (f : LinkSys → LinkSys) : (d.onNet f).saveArea = d.saveArea := rfl
@[simp] theorem Device.onNet_sideLast (f : LinkSys → LinkSys) : (d.onNet f).sideLast = d.sideLast := rfl
@[simp] theorem Device.onNet_engineFlags (f : LinkSys → LinkSys) : (d.onNet f).engineFlags = d.engineFlags := rfl
@[simp] theorem Device.onNet_deferred (f : LinkSys → LinkSys) : (d.onNet f).deferred = d.deferred := rfl
@[simp] theorem Device.onNet_run (f : LinkSys → LinkSys) : (d.onNet f).run = d.run := rfl
@[simp] theorem Device.onNet_streams (f : LinkSys → LinkSys) : (d.onNet f).streams = d.streams := rfl
@[simp] theorem Device.onNet_versions (f : LinkSys → LinkSys) : (d.onNet f).versions = d.versions := rfl
@[simp] theorem Device.onNet_batches (f : LinkSys → LinkSys) : (d.onNet f).batches = d.batches := rfl
@[simp] theorem Device.onNet_publications (f : LinkSys → LinkSys) : (d.onNet f).publications = d.publications := rfl
@[simp] theorem Device.onNet_net (f : LinkSys → LinkSys) : (d.onNet f).net = f d.net := rfl
@[simp] theorem Device.onNet_log (f : LinkSys → LinkSys) : (d.onNet f).log = d.log := rfl
@[simp] theorem Device.onNet_still (f : LinkSys → LinkSys) : (d.onNet f).still = d.still := rfl
@[simp] theorem Device.onNet_risk (f : LinkSys → LinkSys) : (d.onNet f).risk = d.risk := rfl
@[simp] theorem Device.onNet_out (f : LinkSys → LinkSys) : (d.onNet f).out = d.out := rfl
@[simp] theorem Device.onNet_micros (f : LinkSys → LinkSys) : (d.onNet f).micros = d.micros := rfl
@[simp] theorem Device.onNet_free (f : LinkSys → LinkSys) : (d.onNet f).free = d.free := rfl

@[simp] theorem Device.onGov_ctl (f : Gov → Gov) : (d.onGov f).ctl = d.ctl := rfl
@[simp] theorem Device.onGov_evqs (f : Gov → Gov) : (d.onGov f).evqs = d.evqs := rfl
@[simp] theorem Device.onGov_ports (f : Gov → Gov) : (d.onGov f).ports = d.ports := rfl
@[simp] theorem Device.onGov_pwr (f : Gov → Gov) : (d.onGov f).pwr = d.pwr := rfl
@[simp] theorem Device.onGov_gov (f : Gov → Gov) : (d.onGov f).gov = f d.gov := rfl
@[simp] theorem Device.onGov_sec (f : Gov → Gov) : (d.onGov f).sec = d.sec := rfl
@[simp] theorem Device.onGov_boot (f : Gov → Gov) : (d.onGov f).boot = d.boot := rfl
@[simp] theorem Device.onGov_svc (f : Gov → Gov) : (d.onGov f).svc = d.svc := rfl
@[simp] theorem Device.onGov_ms (f : Gov → Gov) : (d.onGov f).ms = d.ms := rfl
@[simp] theorem Device.onGov_stages (f : Gov → Gov) : (d.onGov f).stages = d.stages := rfl
@[simp] theorem Device.onGov_bindings (f : Gov → Gov) : (d.onGov f).bindings = d.bindings := rfl
@[simp] theorem Device.onGov_scaleRegs (f : Gov → Gov) : (d.onGov f).scaleRegs = d.scaleRegs := rfl
@[simp] theorem Device.onGov_issue (f : Gov → Gov) : (d.onGov f).issue = d.issue := rfl
@[simp] theorem Device.onGov_saveArea (f : Gov → Gov) : (d.onGov f).saveArea = d.saveArea := rfl
@[simp] theorem Device.onGov_sideLast (f : Gov → Gov) : (d.onGov f).sideLast = d.sideLast := rfl
@[simp] theorem Device.onGov_engineFlags (f : Gov → Gov) : (d.onGov f).engineFlags = d.engineFlags := rfl
@[simp] theorem Device.onGov_deferred (f : Gov → Gov) : (d.onGov f).deferred = d.deferred := rfl
@[simp] theorem Device.onGov_run (f : Gov → Gov) : (d.onGov f).run = d.run := rfl
@[simp] theorem Device.onGov_streams (f : Gov → Gov) : (d.onGov f).streams = d.streams := rfl
@[simp] theorem Device.onGov_versions (f : Gov → Gov) : (d.onGov f).versions = d.versions := rfl
@[simp] theorem Device.onGov_batches (f : Gov → Gov) : (d.onGov f).batches = d.batches := rfl
@[simp] theorem Device.onGov_publications (f : Gov → Gov) : (d.onGov f).publications = d.publications := rfl
@[simp] theorem Device.onGov_net (f : Gov → Gov) : (d.onGov f).net = d.net := rfl
@[simp] theorem Device.onGov_log (f : Gov → Gov) : (d.onGov f).log = d.log := rfl
@[simp] theorem Device.onGov_still (f : Gov → Gov) : (d.onGov f).still = d.still := rfl
@[simp] theorem Device.onGov_risk (f : Gov → Gov) : (d.onGov f).risk = d.risk := rfl
@[simp] theorem Device.onGov_out (f : Gov → Gov) : (d.onGov f).out = d.out := rfl
@[simp] theorem Device.onGov_micros (f : Gov → Gov) : (d.onGov f).micros = d.micros := rfl
@[simp] theorem Device.onGov_free (f : Gov → Gov) : (d.onGov f).free = d.free := rfl

@[simp] theorem Device.onBoot_ctl (f : Boot → Boot) : (d.onBoot f).ctl = d.ctl := rfl
@[simp] theorem Device.onBoot_evqs (f : Boot → Boot) : (d.onBoot f).evqs = d.evqs := rfl
@[simp] theorem Device.onBoot_ports (f : Boot → Boot) : (d.onBoot f).ports = d.ports := rfl
@[simp] theorem Device.onBoot_pwr (f : Boot → Boot) : (d.onBoot f).pwr = d.pwr := rfl
@[simp] theorem Device.onBoot_gov (f : Boot → Boot) : (d.onBoot f).gov = d.gov := rfl
@[simp] theorem Device.onBoot_sec (f : Boot → Boot) : (d.onBoot f).sec = d.sec := rfl
@[simp] theorem Device.onBoot_boot (f : Boot → Boot) : (d.onBoot f).boot = f d.boot := rfl
@[simp] theorem Device.onBoot_svc (f : Boot → Boot) : (d.onBoot f).svc = d.svc := rfl
@[simp] theorem Device.onBoot_ms (f : Boot → Boot) : (d.onBoot f).ms = d.ms := rfl
@[simp] theorem Device.onBoot_stages (f : Boot → Boot) : (d.onBoot f).stages = d.stages := rfl
@[simp] theorem Device.onBoot_bindings (f : Boot → Boot) : (d.onBoot f).bindings = d.bindings := rfl
@[simp] theorem Device.onBoot_scaleRegs (f : Boot → Boot) : (d.onBoot f).scaleRegs = d.scaleRegs := rfl
@[simp] theorem Device.onBoot_issue (f : Boot → Boot) : (d.onBoot f).issue = d.issue := rfl
@[simp] theorem Device.onBoot_saveArea (f : Boot → Boot) : (d.onBoot f).saveArea = d.saveArea := rfl
@[simp] theorem Device.onBoot_sideLast (f : Boot → Boot) : (d.onBoot f).sideLast = d.sideLast := rfl
@[simp] theorem Device.onBoot_engineFlags (f : Boot → Boot) : (d.onBoot f).engineFlags = d.engineFlags := rfl
@[simp] theorem Device.onBoot_deferred (f : Boot → Boot) : (d.onBoot f).deferred = d.deferred := rfl
@[simp] theorem Device.onBoot_run (f : Boot → Boot) : (d.onBoot f).run = d.run := rfl
@[simp] theorem Device.onBoot_streams (f : Boot → Boot) : (d.onBoot f).streams = d.streams := rfl
@[simp] theorem Device.onBoot_versions (f : Boot → Boot) : (d.onBoot f).versions = d.versions := rfl
@[simp] theorem Device.onBoot_batches (f : Boot → Boot) : (d.onBoot f).batches = d.batches := rfl
@[simp] theorem Device.onBoot_publications (f : Boot → Boot) : (d.onBoot f).publications = d.publications := rfl
@[simp] theorem Device.onBoot_net (f : Boot → Boot) : (d.onBoot f).net = d.net := rfl
@[simp] theorem Device.onBoot_log (f : Boot → Boot) : (d.onBoot f).log = d.log := rfl
@[simp] theorem Device.onBoot_still (f : Boot → Boot) : (d.onBoot f).still = d.still := rfl
@[simp] theorem Device.onBoot_risk (f : Boot → Boot) : (d.onBoot f).risk = d.risk := rfl
@[simp] theorem Device.onBoot_out (f : Boot → Boot) : (d.onBoot f).out = d.out := rfl
@[simp] theorem Device.onBoot_micros (f : Boot → Boot) : (d.onBoot f).micros = d.micros := rfl
@[simp] theorem Device.onBoot_free (f : Boot → Boot) : (d.onBoot f).free = d.free := rfl

@[simp] theorem Device.setPort_ctl (p : Nat) (x : Port) : (d.setPort p x).ctl = d.ctl := rfl
@[simp] theorem Device.setPort_evqs (p : Nat) (x : Port) : (d.setPort p x).evqs = d.evqs := rfl
@[simp] theorem Device.setPort_ports (p : Nat) (x : Port) : (d.setPort p x).ports = tset d.ports p x := rfl
@[simp] theorem Device.setPort_pwr (p : Nat) (x : Port) : (d.setPort p x).pwr = d.pwr := rfl
@[simp] theorem Device.setPort_gov (p : Nat) (x : Port) : (d.setPort p x).gov = d.gov := rfl
@[simp] theorem Device.setPort_sec (p : Nat) (x : Port) : (d.setPort p x).sec = d.sec := rfl
@[simp] theorem Device.setPort_boot (p : Nat) (x : Port) : (d.setPort p x).boot = d.boot := rfl
@[simp] theorem Device.setPort_svc (p : Nat) (x : Port) : (d.setPort p x).svc = d.svc := rfl
@[simp] theorem Device.setPort_ms (p : Nat) (x : Port) : (d.setPort p x).ms = d.ms := rfl
@[simp] theorem Device.setPort_stages (p : Nat) (x : Port) : (d.setPort p x).stages = d.stages := rfl
@[simp] theorem Device.setPort_bindings (p : Nat) (x : Port) : (d.setPort p x).bindings = d.bindings := rfl
@[simp] theorem Device.setPort_scaleRegs (p : Nat) (x : Port) : (d.setPort p x).scaleRegs = d.scaleRegs := rfl
@[simp] theorem Device.setPort_issue (p : Nat) (x : Port) : (d.setPort p x).issue = d.issue := rfl
@[simp] theorem Device.setPort_saveArea (p : Nat) (x : Port) : (d.setPort p x).saveArea = d.saveArea := rfl
@[simp] theorem Device.setPort_sideLast (p : Nat) (x : Port) : (d.setPort p x).sideLast = d.sideLast := rfl
@[simp] theorem Device.setPort_engineFlags (p : Nat) (x : Port) : (d.setPort p x).engineFlags = d.engineFlags := rfl
@[simp] theorem Device.setPort_deferred (p : Nat) (x : Port) : (d.setPort p x).deferred = d.deferred := rfl
@[simp] theorem Device.setPort_run (p : Nat) (x : Port) : (d.setPort p x).run = d.run := rfl
@[simp] theorem Device.setPort_streams (p : Nat) (x : Port) : (d.setPort p x).streams = d.streams := rfl
@[simp] theorem Device.setPort_versions (p : Nat) (x : Port) : (d.setPort p x).versions = d.versions := rfl
@[simp] theorem Device.setPort_batches (p : Nat) (x : Port) : (d.setPort p x).batches = d.batches := rfl
@[simp] theorem Device.setPort_publications (p : Nat) (x : Port) : (d.setPort p x).publications = d.publications := rfl
@[simp] theorem Device.setPort_net (p : Nat) (x : Port) : (d.setPort p x).net = d.net := rfl
@[simp] theorem Device.setPort_log (p : Nat) (x : Port) : (d.setPort p x).log = d.log := rfl
@[simp] theorem Device.setPort_still (p : Nat) (x : Port) : (d.setPort p x).still = d.still := rfl
@[simp] theorem Device.setPort_risk (p : Nat) (x : Port) : (d.setPort p x).risk = d.risk := rfl
@[simp] theorem Device.setPort_out (p : Nat) (x : Port) : (d.setPort p x).out = d.out := rfl
@[simp] theorem Device.setPort_micros (p : Nat) (x : Port) : (d.setPort p x).micros = d.micros := rfl
@[simp] theorem Device.setPort_free (p : Nat) (x : Port) : (d.setPort p x).free = d.free := rfl

@[simp] theorem Device.onPort_ctl (p : Nat) (f : Port → Port) : (d.onPort p f).ctl = d.ctl := rfl
@[simp] theorem Device.onPort_evqs (p : Nat) (f : Port → Port) : (d.onPort p f).evqs = d.evqs := rfl
@[simp] theorem Device.onPort_ports (p : Nat) (f : Port → Port) : (d.onPort p f).ports = tset d.ports p (f (d.port p)) := rfl
@[simp] theorem Device.onPort_pwr (p : Nat) (f : Port → Port) : (d.onPort p f).pwr = d.pwr := rfl
@[simp] theorem Device.onPort_gov (p : Nat) (f : Port → Port) : (d.onPort p f).gov = d.gov := rfl
@[simp] theorem Device.onPort_sec (p : Nat) (f : Port → Port) : (d.onPort p f).sec = d.sec := rfl
@[simp] theorem Device.onPort_boot (p : Nat) (f : Port → Port) : (d.onPort p f).boot = d.boot := rfl
@[simp] theorem Device.onPort_svc (p : Nat) (f : Port → Port) : (d.onPort p f).svc = d.svc := rfl
@[simp] theorem Device.onPort_ms (p : Nat) (f : Port → Port) : (d.onPort p f).ms = d.ms := rfl
@[simp] theorem Device.onPort_stages (p : Nat) (f : Port → Port) : (d.onPort p f).stages = d.stages := rfl
@[simp] theorem Device.onPort_bindings (p : Nat) (f : Port → Port) : (d.onPort p f).bindings = d.bindings := rfl
@[simp] theorem Device.onPort_scaleRegs (p : Nat) (f : Port → Port) : (d.onPort p f).scaleRegs = d.scaleRegs := rfl
@[simp] theorem Device.onPort_issue (p : Nat) (f : Port → Port) : (d.onPort p f).issue = d.issue := rfl
@[simp] theorem Device.onPort_saveArea (p : Nat) (f : Port → Port) : (d.onPort p f).saveArea = d.saveArea := rfl
@[simp] theorem Device.onPort_sideLast (p : Nat) (f : Port → Port) : (d.onPort p f).sideLast = d.sideLast := rfl
@[simp] theorem Device.onPort_engineFlags (p : Nat) (f : Port → Port) : (d.onPort p f).engineFlags = d.engineFlags := rfl
@[simp] theorem Device.onPort_deferred (p : Nat) (f : Port → Port) : (d.onPort p f).deferred = d.deferred := rfl
@[simp] theorem Device.onPort_run (p : Nat) (f : Port → Port) : (d.onPort p f).run = d.run := rfl
@[simp] theorem Device.onPort_streams (p : Nat) (f : Port → Port) : (d.onPort p f).streams = d.streams := rfl
@[simp] theorem Device.onPort_versions (p : Nat) (f : Port → Port) : (d.onPort p f).versions = d.versions := rfl
@[simp] theorem Device.onPort_batches (p : Nat) (f : Port → Port) : (d.onPort p f).batches = d.batches := rfl
@[simp] theorem Device.onPort_publications (p : Nat) (f : Port → Port) : (d.onPort p f).publications = d.publications := rfl
@[simp] theorem Device.onPort_net (p : Nat) (f : Port → Port) : (d.onPort p f).net = d.net := rfl
@[simp] theorem Device.onPort_log (p : Nat) (f : Port → Port) : (d.onPort p f).log = d.log := rfl
@[simp] theorem Device.onPort_still (p : Nat) (f : Port → Port) : (d.onPort p f).still = d.still := rfl
@[simp] theorem Device.onPort_risk (p : Nat) (f : Port → Port) : (d.onPort p f).risk = d.risk := rfl
@[simp] theorem Device.onPort_out (p : Nat) (f : Port → Port) : (d.onPort p f).out = d.out := rfl
@[simp] theorem Device.onPort_micros (p : Nat) (f : Port → Port) : (d.onPort p f).micros = d.micros := rfl
@[simp] theorem Device.onPort_free (p : Nat) (f : Port → Port) : (d.onPort p f).free = d.free := rfl

@[simp] theorem Device.msix_ctl (p v : Nat) : (d.msix p v).ctl = d.ctl := rfl
@[simp] theorem Device.msix_evqs (p v : Nat) : (d.msix p v).evqs = d.evqs := rfl
@[simp] theorem Device.msix_ports (p v : Nat) : (d.msix p v).ports = d.ports := rfl
@[simp] theorem Device.msix_pwr (p v : Nat) : (d.msix p v).pwr = d.pwr := rfl
@[simp] theorem Device.msix_gov (p v : Nat) : (d.msix p v).gov = d.gov := rfl
@[simp] theorem Device.msix_sec (p v : Nat) : (d.msix p v).sec = d.sec := rfl
@[simp] theorem Device.msix_boot (p v : Nat) : (d.msix p v).boot = d.boot := rfl
@[simp] theorem Device.msix_svc (p v : Nat) : (d.msix p v).svc = d.svc := rfl
@[simp] theorem Device.msix_ms (p v : Nat) : (d.msix p v).ms = d.ms := rfl
@[simp] theorem Device.msix_stages (p v : Nat) : (d.msix p v).stages = d.stages := rfl
@[simp] theorem Device.msix_bindings (p v : Nat) : (d.msix p v).bindings = d.bindings := rfl
@[simp] theorem Device.msix_scaleRegs (p v : Nat) : (d.msix p v).scaleRegs = d.scaleRegs := rfl
@[simp] theorem Device.msix_issue (p v : Nat) : (d.msix p v).issue = d.issue := rfl
@[simp] theorem Device.msix_saveArea (p v : Nat) : (d.msix p v).saveArea = d.saveArea := rfl
@[simp] theorem Device.msix_sideLast (p v : Nat) : (d.msix p v).sideLast = d.sideLast := rfl
@[simp] theorem Device.msix_engineFlags (p v : Nat) : (d.msix p v).engineFlags = d.engineFlags := rfl
@[simp] theorem Device.msix_deferred (p v : Nat) : (d.msix p v).deferred = d.deferred := rfl
@[simp] theorem Device.msix_run (p v : Nat) : (d.msix p v).run = d.run := rfl
@[simp] theorem Device.msix_streams (p v : Nat) : (d.msix p v).streams = d.streams := rfl
@[simp] theorem Device.msix_versions (p v : Nat) : (d.msix p v).versions = d.versions := rfl
@[simp] theorem Device.msix_batches (p v : Nat) : (d.msix p v).batches = d.batches := rfl
@[simp] theorem Device.msix_publications (p v : Nat) : (d.msix p v).publications = d.publications := rfl
@[simp] theorem Device.msix_net (p v : Nat) : (d.msix p v).net = d.net := rfl
@[simp] theorem Device.msix_log (p v : Nat) : (d.msix p v).log = d.log := rfl
@[simp] theorem Device.msix_still (p v : Nat) : (d.msix p v).still = d.still := rfl
@[simp] theorem Device.msix_risk (p v : Nat) : (d.msix p v).risk = d.risk := rfl
@[simp] theorem Device.msix_out (p v : Nat) : (d.msix p v).out = .msix p v :: d.out := rfl
@[simp] theorem Device.msix_micros (p v : Nat) : (d.msix p v).micros = d.micros := rfl
@[simp] theorem Device.msix_free (p v : Nat) : (d.msix p v).free = d.free := rfl

@[simp] theorem Device.draw_ctl : d.draw.2.ctl = d.ctl := rfl
@[simp] theorem Device.draw_evqs : d.draw.2.evqs = d.evqs := rfl
@[simp] theorem Device.draw_ports : d.draw.2.ports = d.ports := rfl
@[simp] theorem Device.draw_pwr : d.draw.2.pwr = d.pwr := rfl
@[simp] theorem Device.draw_gov : d.draw.2.gov = d.gov := rfl
@[simp] theorem Device.draw_sec : d.draw.2.sec = d.sec := rfl
@[simp] theorem Device.draw_boot : d.draw.2.boot = d.boot := rfl
@[simp] theorem Device.draw_svc : d.draw.2.svc = d.svc := rfl
@[simp] theorem Device.draw_ms : d.draw.2.ms = d.ms := rfl
@[simp] theorem Device.draw_stages : d.draw.2.stages = d.stages := rfl
@[simp] theorem Device.draw_bindings : d.draw.2.bindings = d.bindings := rfl
@[simp] theorem Device.draw_scaleRegs : d.draw.2.scaleRegs = d.scaleRegs := rfl
@[simp] theorem Device.draw_issue : d.draw.2.issue = d.issue := rfl
@[simp] theorem Device.draw_saveArea : d.draw.2.saveArea = d.saveArea := rfl
@[simp] theorem Device.draw_sideLast : d.draw.2.sideLast = d.sideLast := rfl
@[simp] theorem Device.draw_engineFlags : d.draw.2.engineFlags = d.engineFlags := rfl
@[simp] theorem Device.draw_deferred : d.draw.2.deferred = d.deferred := rfl
@[simp] theorem Device.draw_run : d.draw.2.run = d.run := rfl
@[simp] theorem Device.draw_streams : d.draw.2.streams = d.streams := rfl
@[simp] theorem Device.draw_versions : d.draw.2.versions = d.versions := rfl
@[simp] theorem Device.draw_batches : d.draw.2.batches = d.batches := rfl
@[simp] theorem Device.draw_publications : d.draw.2.publications = d.publications := rfl
@[simp] theorem Device.draw_net : d.draw.2.net = d.net := rfl
@[simp] theorem Device.draw_log : d.draw.2.log = d.log := rfl
@[simp] theorem Device.draw_still : d.draw.2.still = d.still := rfl
@[simp] theorem Device.draw_risk : d.draw.2.risk = d.risk := rfl
@[simp] theorem Device.draw_out : d.draw.2.out = d.out := rfl
@[simp] theorem Device.draw_micros : d.draw.2.micros = d.micros := rfl
@[simp] theorem Device.draw_free : d.draw.2.free = d.free + 1 := rfl
@[simp] theorem Device.draw_fst : d.draw.1 = d.free := rfl

end Sys2Proof.Machine
end

