-- ==== Sys2Proof/Laws/Tables.lean ====
section
/-!
SUPPORT. The laws of the tables (`Tbl`): what a lookup finds after an entry is set or removed.
-/
namespace Sys2Proof.Machine

variable {α : Type}

@[simp] theorem tget_nil (x : Nat) : tget ([] : Tbl α) x = none := rfl

@[simp] theorem tget_tset_same (t : Tbl α) (x : Nat) (v : α) : tget (tset t x v) x = some v := by
  induction t with
  | nil => simp [tset, tget]
  | cons e t ih =>
    obtain ⟨k, w⟩ := e
    unfold tset
    split
    · simp [tget]
    · split
      · simp [tget]
      · simp [tget, *]

@[simp] theorem tget_tset_ne (t : Tbl α) {x y : Nat} (v : α) (h : y ≠ x) : tget (tset t x v) y = tget t y := by
  induction t with
  | nil => simp [tset, tget, h.symm]
  | cons e t ih =>
    obtain ⟨k, w⟩ := e
    unfold tset
    split
    · next hk => subst hk; simp [tget, h.symm]
    · split
      · simp [tget, h.symm]
      · by_cases hy : k = y
        · simp [tget, hy]
        · simp [tget, hy, ih]

theorem tget_tset (t : Tbl α) (x y : Nat) (v : α) : tget (tset t x v) y = if y = x then some v else tget t y := by
  split
  · next h => subst h; simp
  · next h => simp [h]

@[simp] theorem tgetD_tset_same (t : Tbl α) (x : Nat) (v d : α) : tgetD (tset t x v) x d = v := by simp [tgetD]

@[simp] theorem tgetD_tset_ne (t : Tbl α) {x y : Nat} (v d : α) (h : y ≠ x) :
    tgetD (tset t x v) y d = tgetD t y d := by simp [tgetD, h]

@[simp] theorem tget_tdel_same (t : Tbl α) (x : Nat) : tget (tdel t x) x = none := by
  induction t with
  | nil => rfl
  | cons e t ih =>
    obtain ⟨k, w⟩ := e
    by_cases h : k = x
    · subst h; simpa [tdel] using ih
    · simpa [tdel, h, tget] using ih

@[simp] theorem tget_tdel_ne (t : Tbl α) {x y : Nat} (h : y ≠ x) : tget (tdel t x) y = tget t y := by
  induction t with
  | nil => rfl
  | cons e t ih =>
    obtain ⟨k, w⟩ := e
    by_cases hk : k = x
    · subst hk; simpa [tdel, tget, h.symm] using ih
    · by_cases hy : k = y
      · subst hy; simp [tdel, hk, tget]
      · simpa [tdel, hk, tget, hy] using ih

theorem tget_tmod (t : Tbl α) (x y : Nat) (f : α → α) :
    tget (tmod t x f) y = if y = x then (tget t x).map f else tget t y := by
  unfold tmod
  cases h : tget t x with
  | none => simp only [Option.map_none]; split <;> simp_all
  | some v => rw [tget_tset]; split <;> simp_all

@[simp] theorem tget_tmod_same (t : Tbl α) (x : Nat) (f : α → α) : tget (tmod t x f) x = (tget t x).map f := by
  simp [tget_tmod]

@[simp] theorem tget_tmod_ne (t : Tbl α) {x y : Nat} (f : α → α) (h : y ≠ x) : tget (tmod t x f) y = tget t y := by
  simp [tget_tmod, h]

end Sys2Proof.Machine
end

