-- ==== Sys2Proof/Laws/Events.lean ====
section
/-!
SUPPORT. What raising an event changes: the event queues, what is sent, the draws of free values, and the two counters of
events. Everything else stays, one lemma per field.
-/
namespace Sys2Proof.Machine

variable (d : Device)

/-! ### The values of the dictionary -/

theorem Device.get_of_dict {d e : Device} (h : d.ctl.dict = e.ctl.dict) (key : Nat) : d.get key = e.get key := by
  unfold Device.get; rw [h]

@[simp] theorem Device.get_put_same (key v : Nat) : (d.put key v).get key = v := by simp [Device.get]

@[simp] theorem Device.get_put_ne {key k : Nat} (v : Nat) (h : k ≠ key) : (d.put key v).get k = d.get k := by
  simp [Device.get, h]

@[simp] theorem Device.get_addTo_same (key n : Nat) : (d.addTo key n).get key = (d.get key + n) % 2 ^ 64 := by
  simp [Device.addTo]

@[simp] theorem Device.get_addTo_ne {key k : Nat} (n : Nat) (h : k ≠ key) : (d.addTo key n).get k = d.get k := by
  simp [Device.addTo, h]

@[simp] theorem Device.get_bump_same (key : Nat) : (d.bump key).get key = (d.get key + 1) % 2 ^ 64 := by
  simp [Device.bump]

@[simp] theorem Device.get_bump_ne {key k : Nat} (h : k ≠ key) : (d.bump key).get k = d.get k := by
  simp [Device.bump, h]

/-! ### Writing a record -/

/-- What `evqSee` changes. -/
theorem Device.evqSee_eq (q : Nat) : ∃ e o n, d.evqSee q = { d with evqs := e, out := o, free := n } := by
  unfold Device.evqSee
  simp only []
  split <;> exact ⟨_, _, _, rfl⟩

theorem Device.evqSee_evqs (q : Nat) :
    (d.evqSee q).evqs = tset d.evqs q (Machine.evqSee (Config.syncSeen d.free) (d.evq q)).1 := by
  unfold Device.evqSee
  simp only []
  split <;> rfl

@[simp] theorem Device.evq_evqSee_same (q : Nat) :
    (d.evqSee q).evq q = (Machine.evqSee (Config.syncSeen d.free) (d.evq q)).1 := by
  unfold Device.evq; rw [Device.evqSee_evqs]; simp; rfl

@[simp] theorem Device.evq_evqSee_ne {q k : Nat} (h : k ≠ q) : (d.evqSee q).evq k = d.evq k := by
  unfold Device.evq; rw [Device.evqSee_evqs]; simp [h]

/-- Seeing a queue's count changes its late copies and, where it sends its vector, its arming. -/
theorem evqSee_eq (n : Nat) (e : Evq) : ∃ w o a, (Machine.evqSee n e).1 = { e with wLate := w, overwritesLate := o, armed := a } := by
  unfold Machine.evqSee
  simp only []
  split <;> exact ⟨_, _, _, rfl⟩

/-- What `evqWrite` changes. -/
theorem Device.evqWrite_eq (rec q : Nat) : ∃ e o n, d.evqWrite rec q = { d with evqs := e, out := o, free := n } := by
  unfold Device.evqWrite
  obtain ⟨e, o, n, h⟩ := Device.evqSee_eq
    { d with free := d.free + 1, evqs := tset d.evqs q (evqPush (Config.syncSeen d.free) rec (d.evq q)) } q
  exact ⟨e, o, n, h⟩

/-- What writing a record into several queues changes. -/
theorem Device.evqWrites_eq (rec : Nat) (qs : List Nat) :
    ∃ e o n, qs.foldl (fun d q => d.evqWrite rec q) d = { d with evqs := e, out := o, free := n } := by
  induction qs generalizing d with
  | nil => exact ⟨_, _, _, rfl⟩
  | cons q qs ih =>
    obtain ⟨e, o, n, h⟩ := d.evqWrite_eq rec q
    obtain ⟨e', o', n', h'⟩ := ih (d.evqWrite rec q)
    exact ⟨e', o', n', by rw [List.foldl_cons, h', h]⟩

/-- The dictionary once an event has been counted: raised, and undelivered or not. -/
def countedEvent (d : Device) (lost : Bool) : Tbl Nat :=
  if lost then ((d.bump Obj.eventsRaised).bump Obj.eventsUndelivered).ctl.dict else (d.bump Obj.eventsRaised).ctl.dict

/-- What raising an event changes. -/
theorem Device.raiseRec_eq (code rec : Nat) (scope : Option Nat) : ∃ l e o n,
    d.raiseRec code rec scope = { d with ctl := { d.ctl with dict := countedEvent d l }, evqs := e, out := o, free := n } := by
  unfold Device.raiseRec
  simp only []
  split
  · exact ⟨true, d.evqs, d.out, d.free, rfl⟩
  · obtain ⟨e, o, n, h⟩ := Device.evqWrites_eq (d.bump Obj.eventsRaised) rec _
    exact ⟨false, e, o, n, by rw [h]; rfl⟩

/-! ### One lemma per field -/

@[simp] theorem Device.evqSee_ctl (q : Nat) : (d.evqSee q).ctl = d.ctl := by
  obtain ⟨_, _, _, h⟩ := d.evqSee_eq q; rw [h]
@[simp] theorem Device.evqSee_ports (q : Nat) : (d.evqSee q).ports = d.ports := by
  obtain ⟨_, _, _, h⟩ := d.evqSee_eq q; rw [h]
@[simp] theorem Device.evqSee_pwr (q : Nat) : (d.evqSee q).pwr = d.pwr := by
  obtain ⟨_, _, _, h⟩ := d.evqSee_eq q; rw [h]
@[simp] theorem Device.evqSee_gov (q : Nat) : (d.evqSee q).gov = d.gov := by
  obtain ⟨_, _, _, h⟩ := d.evqSee_eq q; rw [h]
@[simp] theorem Device.evqSee_sec (q : Nat) : (d.evqSee q).sec = d.sec := by
  obtain ⟨_, _, _, h⟩ := d.evqSee_eq q; rw [h]
@[simp] theorem Device.evqSee_boot (q : Nat) : (d.evqSee q).boot = d.boot := by
  obtain ⟨_, _, _, h⟩ := d.evqSee_eq q; rw [h]
@[simp] theorem Device.evqSee_svc (q : Nat) : (d.evqSee q).svc = d.svc := by
  obtain ⟨_, _, _, h⟩ := d.evqSee_eq q; rw [h]
@[simp] theorem Device.evqSee_ms (q : Nat) : (d.evqSee q).ms = d.ms := by
  obtain ⟨_, _, _, h⟩ := d.evqSee_eq q; rw [h]
@[simp] theorem Device.evqSee_stages (q : Nat) : (d.evqSee q).stages = d.stages := by
  obtain ⟨_, _, _, h⟩ := d.evqSee_eq q; rw [h]
@[simp] theorem Device.evqSee_bindings (q : Nat) : (d.evqSee q).bindings = d.bindings := by
  obtain ⟨_, _, _, h⟩ := d.evqSee_eq q; rw [h]
@[simp] theorem Device.evqSee_scaleRegs (q : Nat) : (d.evqSee q).scaleRegs = d.scaleRegs := by
  obtain ⟨_, _, _, h⟩ := d.evqSee_eq q; rw [h]
@[simp] theorem Device.evqSee_issue (q : Nat) : (d.evqSee q).issue = d.issue := by
  obtain ⟨_, _, _, h⟩ := d.evqSee_eq q; rw [h]
@[simp] theorem Device.evqSee_saveArea (q : Nat) : (d.evqSee q).saveArea = d.saveArea := by
  obtain ⟨_, _, _, h⟩ := d.evqSee_eq q; rw [h]
@[simp] theorem Device.evqSee_sideLast (q : Nat) : (d.evqSee q).sideLast = d.sideLast := by
  obtain ⟨_, _, _, h⟩ := d.evqSee_eq q; rw [h]
@[simp] theorem Device.evqSee_engineFlags (q : Nat) : (d.evqSee q).engineFlags = d.engineFlags := by
  obtain ⟨_, _, _, h⟩ := d.evqSee_eq q; rw [h]
@[simp] theorem Device.evqSee_deferred (q : Nat) : (d.evqSee q).deferred = d.deferred := by
  obtain ⟨_, _, _, h⟩ := d.evqSee_eq q; rw [h]
@[simp] theorem Device.evqSee_run (q : Nat) : (d.evqSee q).run = d.run := by
  obtain ⟨_, _, _, h⟩ := d.evqSee_eq q; rw [h]
@[simp] theorem Device.evqSee_streams (q : Nat) : (d.evqSee q).streams = d.streams := by
  obtain ⟨_, _, _, h⟩ := d.evqSee_eq q; rw [h]
@[simp] theorem Device.evqSee_versions (q : Nat) : (d.evqSee q).versions = d.versions := by
  obtain ⟨_, _, _, h⟩ := d.evqSee_eq q; rw [h]
@[simp] theorem Device.evqSee_batches (q : Nat) : (d.evqSee q).batches = d.batches := by
  obtain ⟨_, _, _, h⟩ := d.evqSee_eq q; rw [h]
@[simp] theorem Device.evqSee_publications (q : Nat) : (d.evqSee q).publications = d.publications := by
  obtain ⟨_, _, _, h⟩ := d.evqSee_eq q; rw [h]
@[simp] theorem Device.evqSee_net (q : Nat) : (d.evqSee q).net = d.net := by
  obtain ⟨_, _, _, h⟩ := d.evqSee_eq q; rw [h]
@[simp] theorem Device.evqSee_log (q : Nat) : (d.evqSee q).log = d.log := by
  obtain ⟨_, _, _, h⟩ := d.evqSee_eq q; rw [h]
@[simp] theorem Device.evqSee_still (q : Nat) : (d.evqSee q).still = d.still := by
  obtain ⟨_, _, _, h⟩ := d.evqSee_eq q; rw [h]
@[simp] theorem Device.evqSee_risk (q : Nat) : (d.evqSee q).risk = d.risk := by
  obtain ⟨_, _, _, h⟩ := d.evqSee_eq q; rw [h]
@[simp] theorem Device.evqSee_micros (q : Nat) : (d.evqSee q).micros = d.micros := by
  obtain ⟨_, _, _, h⟩ := d.evqSee_eq q; rw [h]

@[simp] theorem Device.raiseRec_ports (c r : Nat) (s : Option Nat) : (d.raiseRec c r s).ports = d.ports := by
  obtain ⟨_, _, _, _, h⟩ := d.raiseRec_eq c r s; rw [h]
@[simp] theorem Device.raiseRec_pwr (c r : Nat) (s : Option Nat) : (d.raiseRec c r s).pwr = d.pwr := by
  obtain ⟨_, _, _, _, h⟩ := d.raiseRec_eq c r s; rw [h]
@[simp] theorem Device.raiseRec_gov (c r : Nat) (s : Option Nat) : (d.raiseRec c r s).gov = d.gov := by
  obtain ⟨_, _, _, _, h⟩ := d.raiseRec_eq c r s; rw [h]
@[simp] theorem Device.raiseRec_sec (c r : Nat) (s : Option Nat) : (d.raiseRec c r s).sec = d.sec := by
  obtain ⟨_, _, _, _, h⟩ := d.raiseRec_eq c r s; rw [h]
@[simp] theorem Device.raiseRec_boot (c r : Nat) (s : Option Nat) : (d.raiseRec c r s).boot = d.boot := by
  obtain ⟨_, _, _, _, h⟩ := d.raiseRec_eq c r s; rw [h]
@[simp] theorem Device.raiseRec_svc (c r : Nat) (s : Option Nat) : (d.raiseRec c r s).svc = d.svc := by
  obtain ⟨_, _, _, _, h⟩ := d.raiseRec_eq c r s; rw [h]
@[simp] theorem Device.raiseRec_ms (c r : Nat) (s : Option Nat) : (d.raiseRec c r s).ms = d.ms := by
  obtain ⟨_, _, _, _, h⟩ := d.raiseRec_eq c r s; rw [h]
@[simp] theorem Device.raiseRec_stages (c r : Nat) (s : Option Nat) : (d.raiseRec c r s).stages = d.stages := by
  obtain ⟨_, _, _, _, h⟩ := d.raiseRec_eq c r s; rw [h]
@[simp] theorem Device.raiseRec_bindings (c r : Nat) (s : Option Nat) : (d.raiseRec c r s).bindings = d.bindings := by
  obtain ⟨_, _, _, _, h⟩ := d.raiseRec_eq c r s; rw [h]
@[simp] theorem Device.raiseRec_scaleRegs (c r : Nat) (s : Option Nat) : (d.raiseRec c r s).scaleRegs = d.scaleRegs := by
  obtain ⟨_, _, _, _, h⟩ := d.raiseRec_eq c r s; rw [h]
@[simp] theorem Device.raiseRec_issue (c r : Nat) (s : Option Nat) : (d.raiseRec c r s).issue = d.issue := by
  obtain ⟨_, _, _, _, h⟩ := d.raiseRec_eq c r s; rw [h]
@[simp] theorem Device.raiseRec_saveArea (c r : Nat) (s : Option Nat) : (d.raiseRec c r s).saveArea = d.saveArea := by
  obtain ⟨_, _, _, _, h⟩ := d.raiseRec_eq c r s; rw [h]
@[simp] theorem Device.raiseRec_sideLast (c r : Nat) (s : Option Nat) : (d.raiseRec c r s).sideLast = d.sideLast := by
  obtain ⟨_, _, _, _, h⟩ := d.raiseRec_eq c r s; rw [h]
@[simp] theorem Device.raiseRec_engineFlags (c r : Nat) (s : Option Nat) : (d.raiseRec c r s).engineFlags = d.engineFlags := by
  obtain ⟨_, _, _, _, h⟩ := d.raiseRec_eq c r s; rw [h]
@[simp] theorem Device.raiseRec_deferred (c r : Nat) (s : Option Nat) : (d.raiseRec c r s).deferred = d.deferred := by
  obtain ⟨_, _, _, _, h⟩ := d.raiseRec_eq c r s; rw [h]
@[simp] theorem Device.raiseRec_run (c r : Nat) (s : Option Nat) : (d.raiseRec c r s).run = d.run := by
  obtain ⟨_, _, _, _, h⟩ := d.raiseRec_eq c r s; rw [h]
@[simp] theorem Device.raiseRec_streams (c r : Nat) (s : Option Nat) : (d.raiseRec c r s).streams = d.streams := by
  obtain ⟨_, _, _, _, h⟩ := d.raiseRec_eq c r s; rw [h]
@[simp] theorem Device.raiseRec_versions (c r : Nat) (s : Option Nat) : (d.raiseRec c r s).versions = d.versions := by
  obtain ⟨_, _, _, _, h⟩ := d.raiseRec_eq c r s; rw [h]
@[simp] theorem Device.raiseRec_batches (c r : Nat) (s : Option Nat) : (d.raiseRec c r s).batches = d.batches := by
  obtain ⟨_, _, _, _, h⟩ := d.raiseRec_eq c r s; rw [h]
@[simp] theorem Device.raiseRec_publications (c r : Nat) (s : Option Nat) : (d.raiseRec c r s).publications = d.publications := by
  obtain ⟨_, _, _, _, h⟩ := d.raiseRec_eq c r s; rw [h]
@[simp] theorem Device.raiseRec_net (c r : Nat) (s : Option Nat) : (d.raiseRec c r s).net = d.net := by
  obtain ⟨_, _, _, _, h⟩ := d.raiseRec_eq c r s; rw [h]
@[simp] theorem Device.raiseRec_log (c r : Nat) (s : Option Nat) : (d.raiseRec c r s).log = d.log := by
  obtain ⟨_, _, _, _, h⟩ := d.raiseRec_eq c r s; rw [h]
@[simp] theorem Device.raiseRec_still (c r : Nat) (s : Option Nat) : (d.raiseRec c r s).still = d.still := by
  obtain ⟨_, _, _, _, h⟩ := d.raiseRec_eq c r s; rw [h]
@[simp] theorem Device.raiseRec_risk (c r : Nat) (s : Option Nat) : (d.raiseRec c r s).risk = d.risk := by
  obtain ⟨_, _, _, _, h⟩ := d.raiseRec_eq c r s; rw [h]
@[simp] theorem Device.raiseRec_micros (c r : Nat) (s : Option Nat) : (d.raiseRec c r s).micros = d.micros := by
  obtain ⟨_, _, _, _, h⟩ := d.raiseRec_eq c r s; rw [h]

/-- The control path but its dictionary, and every value but the two counters of events, stay. -/
theorem Device.raiseRec_ctl (c r : Nat) (s : Option Nat) : ∃ l,
    (d.raiseRec c r s).ctl = { d.ctl with dict := countedEvent d l } := by
  obtain ⟨l, _, _, _, h⟩ := d.raiseRec_eq c r s; exact ⟨l, by rw [h]⟩

@[simp] theorem Device.raiseRec_ctl_staged (c r : Nat) (s : Option Nat) : (d.raiseRec c r s).ctl.staged = d.ctl.staged := by
  obtain ⟨_, h⟩ := d.raiseRec_ctl c r s; rw [h]
@[simp] theorem Device.raiseRec_ctl_held (c r : Nat) (s : Option Nat) : (d.raiseRec c r s).ctl.held = d.ctl.held := by
  obtain ⟨_, h⟩ := d.raiseRec_ctl c r s; rw [h]
@[simp] theorem Device.raiseRec_ctl_serving (c r : Nat) (s : Option Nat) : (d.raiseRec c r s).ctl.serving = d.ctl.serving := by
  obtain ⟨_, h⟩ := d.raiseRec_ctl c r s; rw [h]
@[simp] theorem Device.raiseRec_ctl_restart (c r : Nat) (s : Option Nat) : (d.raiseRec c r s).ctl.restart = d.ctl.restart := by
  obtain ⟨_, h⟩ := d.raiseRec_ctl c r s; rw [h]
@[simp] theorem Device.raiseRec_ctl_restartsBegun (c r : Nat) (s : Option Nat) : (d.raiseRec c r s).ctl.restartsBegun = d.ctl.restartsBegun := by
  obtain ⟨_, h⟩ := d.raiseRec_ctl c r s; rw [h]
@[simp] theorem Device.raiseRec_ctl_hbCount (c r : Nat) (s : Option Nat) : (d.raiseRec c r s).ctl.hbCount = d.ctl.hbCount := by
  obtain ⟨_, h⟩ := d.raiseRec_ctl c r s; rw [h]
@[simp] theorem Device.raiseRec_ctl_auth (c r : Nat) (s : Option Nat) : (d.raiseRec c r s).ctl.auth = d.ctl.auth := by
  obtain ⟨_, h⟩ := d.raiseRec_ctl c r s; rw [h]
@[simp] theorem Device.raiseRec_ctl_transfers (c r : Nat) (s : Option Nat) : (d.raiseRec c r s).ctl.transfers = d.ctl.transfers := by
  obtain ⟨_, h⟩ := d.raiseRec_ctl c r s; rw [h]
@[simp] theorem Device.raiseRec_ctl_kept (c r : Nat) (s : Option Nat) : (d.raiseRec c r s).ctl.kept = d.ctl.kept := by
  obtain ⟨_, h⟩ := d.raiseRec_ctl c r s; rw [h]
@[simp] theorem Device.raiseRec_ctl_waiting (c r : Nat) (s : Option Nat) : (d.raiseRec c r s).ctl.waiting = d.ctl.waiting := by
  obtain ⟨_, h⟩ := d.raiseRec_ctl c r s; rw [h]
@[simp] theorem Device.raiseRec_ctl_slots (c r : Nat) (s : Option Nat) : (d.raiseRec c r s).ctl.slots = d.ctl.slots := by
  obtain ⟨_, h⟩ := d.raiseRec_ctl c r s; rw [h]
@[simp] theorem Device.raiseRec_ctl_posted (c r : Nat) (s : Option Nat) : (d.raiseRec c r s).ctl.posted = d.ctl.posted := by
  obtain ⟨_, h⟩ := d.raiseRec_ctl c r s; rw [h]
@[simp] theorem Device.raiseRec_ctl_nodeId (c r : Nat) (s : Option Nat) : (d.raiseRec c r s).ctl.nodeId = d.ctl.nodeId := by
  obtain ⟨_, h⟩ := d.raiseRec_ctl c r s; rw [h]
@[simp] theorem Device.raiseRec_ctl_feedId (c r : Nat) (s : Option Nat) : (d.raiseRec c r s).ctl.feedId = d.ctl.feedId := by
  obtain ⟨_, h⟩ := d.raiseRec_ctl c r s; rw [h]

@[simp] theorem Device.get_raiseRec (c r : Nat) (s : Option Nat) {k : Nat} (h1 : k ≠ Obj.eventsRaised)
    (h2 : k ≠ Obj.eventsUndelivered) : (d.raiseRec c r s).get k = d.get k := by
  obtain ⟨l, h⟩ := d.raiseRec_ctl c r s
  have : (d.raiseRec c r s).ctl.dict = countedEvent d l := by rw [h]
  unfold Device.get; rw [this]; unfold countedEvent
  cases l <;> simp [h1, h2, tgetD]

/-- An event raised counts once in EVENTS_RAISED. -/
theorem Device.raiseRec_counts (c r : Nat) (s : Option Nat) :
    (d.raiseRec c r s).get Obj.eventsRaised = (d.get Obj.eventsRaised + 1) % 2 ^ 64 := by
  obtain ⟨l, h⟩ := d.raiseRec_ctl c r s
  have : (d.raiseRec c r s).ctl.dict = countedEvent d l := by rw [h]
  have hne : Obj.eventsRaised ≠ Obj.eventsUndelivered := by decide
  unfold Device.get; rw [this]; unfold countedEvent
  cases l <;> simp [hne, Device.get]

@[simp] theorem Device.raise_ports (c : Nat) (as : List (Nat × Nat)) : (d.raise c as).ports = d.ports := Device.raiseRec_ports d _ _ _
@[simp] theorem Device.raise_pwr (c : Nat) (as : List (Nat × Nat)) : (d.raise c as).pwr = d.pwr := Device.raiseRec_pwr d _ _ _
@[simp] theorem Device.raise_gov (c : Nat) (as : List (Nat × Nat)) : (d.raise c as).gov = d.gov := Device.raiseRec_gov d _ _ _
@[simp] theorem Device.raise_sec (c : Nat) (as : List (Nat × Nat)) : (d.raise c as).sec = d.sec := Device.raiseRec_sec d _ _ _
@[simp] theorem Device.raise_boot (c : Nat) (as : List (Nat × Nat)) : (d.raise c as).boot = d.boot := Device.raiseRec_boot d _ _ _
@[simp] theorem Device.raise_svc (c : Nat) (as : List (Nat × Nat)) : (d.raise c as).svc = d.svc := Device.raiseRec_svc d _ _ _
@[simp] theorem Device.raise_ms (c : Nat) (as : List (Nat × Nat)) : (d.raise c as).ms = d.ms := Device.raiseRec_ms d _ _ _
@[simp] theorem Device.raise_stages (c : Nat) (as : List (Nat × Nat)) : (d.raise c as).stages = d.stages := Device.raiseRec_stages d _ _ _
@[simp] theorem Device.raise_bindings (c : Nat) (as : List (Nat × Nat)) : (d.raise c as).bindings = d.bindings := Device.raiseRec_bindings d _ _ _
@[simp] theorem Device.raise_scaleRegs (c : Nat) (as : List (Nat × Nat)) : (d.raise c as).scaleRegs = d.scaleRegs := Device.raiseRec_scaleRegs d _ _ _
@[simp] theorem Device.raise_issue (c : Nat) (as : List (Nat × Nat)) : (d.raise c as).issue = d.issue := Device.raiseRec_issue d _ _ _
@[simp] theorem Device.raise_saveArea (c : Nat) (as : List (Nat × Nat)) : (d.raise c as).saveArea = d.saveArea := Device.raiseRec_saveArea d _ _ _
@[simp] theorem Device.raise_sideLast (c : Nat) (as : List (Nat × Nat)) : (d.raise c as).sideLast = d.sideLast := Device.raiseRec_sideLast d _ _ _
@[simp] theorem Device.raise_engineFlags (c : Nat) (as : List (Nat × Nat)) : (d.raise c as).engineFlags = d.engineFlags := Device.raiseRec_engineFlags d _ _ _
@[simp] theorem Device.raise_deferred (c : Nat) (as : List (Nat × Nat)) : (d.raise c as).deferred = d.deferred := Device.raiseRec_deferred d _ _ _
@[simp] theorem Device.raise_run (c : Nat) (as : List (Nat × Nat)) : (d.raise c as).run = d.run := Device.raiseRec_run d _ _ _
@[simp] theorem Device.raise_streams (c : Nat) (as : List (Nat × Nat)) : (d.raise c as).streams = d.streams := Device.raiseRec_streams d _ _ _
@[simp] theorem Device.raise_versions (c : Nat) (as : List (Nat × Nat)) : (d.raise c as).versions = d.versions := Device.raiseRec_versions d _ _ _
@[simp] theorem Device.raise_batches (c : Nat) (as : List (Nat × Nat)) : (d.raise c as).batches = d.batches := Device.raiseRec_batches d _ _ _
@[simp] theorem Device.raise_publications (c : Nat) (as : List (Nat × Nat)) : (d.raise c as).publications = d.publications := Device.raiseRec_publications d _ _ _
@[simp] theorem Device.raise_net (c : Nat) (as : List (Nat × Nat)) : (d.raise c as).net = d.net := Device.raiseRec_net d _ _ _
@[simp] theorem Device.raise_log (c : Nat) (as : List (Nat × Nat)) : (d.raise c as).log = d.log := Device.raiseRec_log d _ _ _
@[simp] theorem Device.raise_still (c : Nat) (as : List (Nat × Nat)) : (d.raise c as).still = d.still := Device.raiseRec_still d _ _ _
@[simp] theorem Device.raise_risk (c : Nat) (as : List (Nat × Nat)) : (d.raise c as).risk = d.risk := Device.raiseRec_risk d _ _ _
@[simp] theorem Device.raise_micros (c : Nat) (as : List (Nat × Nat)) : (d.raise c as).micros = d.micros := Device.raiseRec_micros d _ _ _
@[simp] theorem Device.raise_ctl_staged (c : Nat) (as : List (Nat × Nat)) : (d.raise c as).ctl.staged = d.ctl.staged := Device.raiseRec_ctl_staged d _ _ _
@[simp] theorem Device.raise_ctl_held (c : Nat) (as : List (Nat × Nat)) : (d.raise c as).ctl.held = d.ctl.held := Device.raiseRec_ctl_held d _ _ _
@[simp] theorem Device.raise_ctl_serving (c : Nat) (as : List (Nat × Nat)) : (d.raise c as).ctl.serving = d.ctl.serving := Device.raiseRec_ctl_serving d _ _ _
@[simp] theorem Device.raise_ctl_restart (c : Nat) (as : List (Nat × Nat)) : (d.raise c as).ctl.restart = d.ctl.restart := Device.raiseRec_ctl_restart d _ _ _
@[simp] theorem Device.raise_ctl_restartsBegun (c : Nat) (as : List (Nat × Nat)) : (d.raise c as).ctl.restartsBegun = d.ctl.restartsBegun := Device.raiseRec_ctl_restartsBegun d _ _ _
@[simp] theorem Device.raise_ctl_hbCount (c : Nat) (as : List (Nat × Nat)) : (d.raise c as).ctl.hbCount = d.ctl.hbCount := Device.raiseRec_ctl_hbCount d _ _ _
@[simp] theorem Device.raise_ctl_auth (c : Nat) (as : List (Nat × Nat)) : (d.raise c as).ctl.auth = d.ctl.auth := Device.raiseRec_ctl_auth d _ _ _
@[simp] theorem Device.raise_ctl_transfers (c : Nat) (as : List (Nat × Nat)) : (d.raise c as).ctl.transfers = d.ctl.transfers := Device.raiseRec_ctl_transfers d _ _ _
@[simp] theorem Device.raise_ctl_kept (c : Nat) (as : List (Nat × Nat)) : (d.raise c as).ctl.kept = d.ctl.kept := Device.raiseRec_ctl_kept d _ _ _
@[simp] theorem Device.raise_ctl_waiting (c : Nat) (as : List (Nat × Nat)) : (d.raise c as).ctl.waiting = d.ctl.waiting := Device.raiseRec_ctl_waiting d _ _ _
@[simp] theorem Device.raise_ctl_slots (c : Nat) (as : List (Nat × Nat)) : (d.raise c as).ctl.slots = d.ctl.slots := Device.raiseRec_ctl_slots d _ _ _
@[simp] theorem Device.raise_ctl_posted (c : Nat) (as : List (Nat × Nat)) : (d.raise c as).ctl.posted = d.ctl.posted := Device.raiseRec_ctl_posted d _ _ _
@[simp] theorem Device.raise_ctl_nodeId (c : Nat) (as : List (Nat × Nat)) : (d.raise c as).ctl.nodeId = d.ctl.nodeId := Device.raiseRec_ctl_nodeId d _ _ _
@[simp] theorem Device.raise_ctl_feedId (c : Nat) (as : List (Nat × Nat)) : (d.raise c as).ctl.feedId = d.ctl.feedId := Device.raiseRec_ctl_feedId d _ _ _
@[simp] theorem Device.get_raise (c : Nat) (as : List (Nat × Nat)) {k : Nat} (h1 : k ≠ Obj.eventsRaised) (h2 : k ≠ Obj.eventsUndelivered) :
    (d.raise c as).get k = d.get k := Device.get_raiseRec d _ _ _ h1 h2

@[simp] theorem Device.raiseStream_ports (c s : Nat) (as : List (Nat × Nat)) : (d.raiseStream c s as).ports = d.ports := Device.raiseRec_ports d _ _ _
@[simp] theorem Device.raiseStream_pwr (c s : Nat) (as : List (Nat × Nat)) : (d.raiseStream c s as).pwr = d.pwr := Device.raiseRec_pwr d _ _ _
@[simp] theorem Device.raiseStream_gov (c s : Nat) (as : List (Nat × Nat)) : (d.raiseStream c s as).gov = d.gov := Device.raiseRec_gov d _ _ _
@[simp] theorem Device.raiseStream_sec (c s : Nat) (as : List (Nat × Nat)) : (d.raiseStream c s as).sec = d.sec := Device.raiseRec_sec d _ _ _
@[simp] theorem Device.raiseStream_boot (c s : Nat) (as : List (Nat × Nat)) : (d.raiseStream c s as).boot = d.boot := Device.raiseRec_boot d _ _ _
@[simp] theorem Device.raiseStream_svc (c s : Nat) (as : List (Nat × Nat)) : (d.raiseStream c s as).svc = d.svc := Device.raiseRec_svc d _ _ _
@[simp] theorem Device.raiseStream_ms (c s : Nat) (as : List (Nat × Nat)) : (d.raiseStream c s as).ms = d.ms := Device.raiseRec_ms d _ _ _
@[simp] theorem Device.raiseStream_stages (c s : Nat) (as : List (Nat × Nat)) : (d.raiseStream c s as).stages = d.stages := Device.raiseRec_stages d _ _ _
@[simp] theorem Device.raiseStream_bindings (c s : Nat) (as : List (Nat × Nat)) : (d.raiseStream c s as).bindings = d.bindings := Device.raiseRec_bindings d _ _ _
@[simp] theorem Device.raiseStream_scaleRegs (c s : Nat) (as : List (Nat × Nat)) : (d.raiseStream c s as).scaleRegs = d.scaleRegs := Device.raiseRec_scaleRegs d _ _ _
@[simp] theorem Device.raiseStream_issue (c s : Nat) (as : List (Nat × Nat)) : (d.raiseStream c s as).issue = d.issue := Device.raiseRec_issue d _ _ _
@[simp] theorem Device.raiseStream_saveArea (c s : Nat) (as : List (Nat × Nat)) : (d.raiseStream c s as).saveArea = d.saveArea := Device.raiseRec_saveArea d _ _ _
@[simp] theorem Device.raiseStream_sideLast (c s : Nat) (as : List (Nat × Nat)) : (d.raiseStream c s as).sideLast = d.sideLast := Device.raiseRec_sideLast d _ _ _
@[simp] theorem Device.raiseStream_engineFlags (c s : Nat) (as : List (Nat × Nat)) : (d.raiseStream c s as).engineFlags = d.engineFlags := Device.raiseRec_engineFlags d _ _ _
@[simp] theorem Device.raiseStream_deferred (c s : Nat) (as : List (Nat × Nat)) : (d.raiseStream c s as).deferred = d.deferred := Device.raiseRec_deferred d _ _ _
@[simp] theorem Device.raiseStream_run (c s : Nat) (as : List (Nat × Nat)) : (d.raiseStream c s as).run = d.run := Device.raiseRec_run d _ _ _
@[simp] theorem Device.raiseStream_streams (c s : Nat) (as : List (Nat × Nat)) : (d.raiseStream c s as).streams = d.streams := Device.raiseRec_streams d _ _ _
@[simp] theorem Device.raiseStream_versions (c s : Nat) (as : List (Nat × Nat)) : (d.raiseStream c s as).versions = d.versions := Device.raiseRec_versions d _ _ _
@[simp] theorem Device.raiseStream_batches (c s : Nat) (as : List (Nat × Nat)) : (d.raiseStream c s as).batches = d.batches := Device.raiseRec_batches d _ _ _
@[simp] theorem Device.raiseStream_publications (c s : Nat) (as : List (Nat × Nat)) : (d.raiseStream c s as).publications = d.publications := Device.raiseRec_publications d _ _ _
@[simp] theorem Device.raiseStream_net (c s : Nat) (as : List (Nat × Nat)) : (d.raiseStream c s as).net = d.net := Device.raiseRec_net d _ _ _
@[simp] theorem Device.raiseStream_log (c s : Nat) (as : List (Nat × Nat)) : (d.raiseStream c s as).log = d.log := Device.raiseRec_log d _ _ _
@[simp] theorem Device.raiseStream_still (c s : Nat) (as : List (Nat × Nat)) : (d.raiseStream c s as).still = d.still := Device.raiseRec_still d _ _ _
@[simp] theorem Device.raiseStream_risk (c s : Nat) (as : List (Nat × Nat)) : (d.raiseStream c s as).risk = d.risk := Device.raiseRec_risk d _ _ _
@[simp] theorem Device.raiseStream_micros (c s : Nat) (as : List (Nat × Nat)) : (d.raiseStream c s as).micros = d.micros := Device.raiseRec_micros d _ _ _
@[simp] theorem Device.raiseStream_ctl_staged (c s : Nat) (as : List (Nat × Nat)) : (d.raiseStream c s as).ctl.staged = d.ctl.staged := Device.raiseRec_ctl_staged d _ _ _
@[simp] theorem Device.raiseStream_ctl_held (c s : Nat) (as : List (Nat × Nat)) : (d.raiseStream c s as).ctl.held = d.ctl.held := Device.raiseRec_ctl_held d _ _ _
@[simp] theorem Device.raiseStream_ctl_serving (c s : Nat) (as : List (Nat × Nat)) : (d.raiseStream c s as).ctl.serving = d.ctl.serving := Device.raiseRec_ctl_serving d _ _ _
@[simp] theorem Device.raiseStream_ctl_restart (c s : Nat) (as : List (Nat × Nat)) : (d.raiseStream c s as).ctl.restart = d.ctl.restart := Device.raiseRec_ctl_restart d _ _ _
@[simp] theorem Device.raiseStream_ctl_restartsBegun (c s : Nat) (as : List (Nat × Nat)) : (d.raiseStream c s as).ctl.restartsBegun = d.ctl.restartsBegun := Device.raiseRec_ctl_restartsBegun d _ _ _
@[simp] theorem Device.raiseStream_ctl_hbCount (c s : Nat) (as : List (Nat × Nat)) : (d.raiseStream c s as).ctl.hbCount = d.ctl.hbCount := Device.raiseRec_ctl_hbCount d _ _ _
@[simp] theorem Device.raiseStream_ctl_auth (c s : Nat) (as : List (Nat × Nat)) : (d.raiseStream c s as).ctl.auth = d.ctl.auth := Device.raiseRec_ctl_auth d _ _ _
@[simp] theorem Device.raiseStream_ctl_transfers (c s : Nat) (as : List (Nat × Nat)) : (d.raiseStream c s as).ctl.transfers = d.ctl.transfers := Device.raiseRec_ctl_transfers d _ _ _
@[simp] theorem Device.raiseStream_ctl_kept (c s : Nat) (as : List (Nat × Nat)) : (d.raiseStream c s as).ctl.kept = d.ctl.kept := Device.raiseRec_ctl_kept d _ _ _
@[simp] theorem Device.raiseStream_ctl_waiting (c s : Nat) (as : List (Nat × Nat)) : (d.raiseStream c s as).ctl.waiting = d.ctl.waiting := Device.raiseRec_ctl_waiting d _ _ _
@[simp] theorem Device.raiseStream_ctl_slots (c s : Nat) (as : List (Nat × Nat)) : (d.raiseStream c s as).ctl.slots = d.ctl.slots := Device.raiseRec_ctl_slots d _ _ _
@[simp] theorem Device.raiseStream_ctl_posted (c s : Nat) (as : List (Nat × Nat)) : (d.raiseStream c s as).ctl.posted = d.ctl.posted := Device.raiseRec_ctl_posted d _ _ _
@[simp] theorem Device.raiseStream_ctl_nodeId (c s : Nat) (as : List (Nat × Nat)) : (d.raiseStream c s as).ctl.nodeId = d.ctl.nodeId := Device.raiseRec_ctl_nodeId d _ _ _
@[simp] theorem Device.raiseStream_ctl_feedId (c s : Nat) (as : List (Nat × Nat)) : (d.raiseStream c s as).ctl.feedId = d.ctl.feedId := Device.raiseRec_ctl_feedId d _ _ _
@[simp] theorem Device.get_raiseStream (c s : Nat) (as : List (Nat × Nat)) {k : Nat} (h1 : k ≠ Obj.eventsRaised) (h2 : k ≠ Obj.eventsUndelivered) :
    (d.raiseStream c s as).get k = d.get k := Device.get_raiseRec d _ _ _ h1 h2

@[simp] theorem Device.raiseFrom_ports (src c : Nat) (as : List (Nat × Nat)) : (d.raiseFrom src c as).ports = d.ports := Device.raiseRec_ports d _ _ _
@[simp] theorem Device.raiseFrom_pwr (src c : Nat) (as : List (Nat × Nat)) : (d.raiseFrom src c as).pwr = d.pwr := Device.raiseRec_pwr d _ _ _
@[simp] theorem Device.raiseFrom_gov (src c : Nat) (as : List (Nat × Nat)) : (d.raiseFrom src c as).gov = d.gov := Device.raiseRec_gov d _ _ _
@[simp] theorem Device.raiseFrom_sec (src c : Nat) (as : List (Nat × Nat)) : (d.raiseFrom src c as).sec = d.sec := Device.raiseRec_sec d _ _ _
@[simp] theorem Device.raiseFrom_boot (src c : Nat) (as : List (Nat × Nat)) : (d.raiseFrom src c as).boot = d.boot := Device.raiseRec_boot d _ _ _
@[simp] theorem Device.raiseFrom_svc (src c : Nat) (as : List (Nat × Nat)) : (d.raiseFrom src c as).svc = d.svc := Device.raiseRec_svc d _ _ _
@[simp] theorem Device.raiseFrom_ms (src c : Nat) (as : List (Nat × Nat)) : (d.raiseFrom src c as).ms = d.ms := Device.raiseRec_ms d _ _ _
@[simp] theorem Device.raiseFrom_stages (src c : Nat) (as : List (Nat × Nat)) : (d.raiseFrom src c as).stages = d.stages := Device.raiseRec_stages d _ _ _
@[simp] theorem Device.raiseFrom_bindings (src c : Nat) (as : List (Nat × Nat)) : (d.raiseFrom src c as).bindings = d.bindings := Device.raiseRec_bindings d _ _ _
@[simp] theorem Device.raiseFrom_scaleRegs (src c : Nat) (as : List (Nat × Nat)) : (d.raiseFrom src c as).scaleRegs = d.scaleRegs := Device.raiseRec_scaleRegs d _ _ _
@[simp] theorem Device.raiseFrom_issue (src c : Nat) (as : List (Nat × Nat)) : (d.raiseFrom src c as).issue = d.issue := Device.raiseRec_issue d _ _ _
@[simp] theorem Device.raiseFrom_saveArea (src c : Nat) (as : List (Nat × Nat)) : (d.raiseFrom src c as).saveArea = d.saveArea := Device.raiseRec_saveArea d _ _ _
@[simp] theorem Device.raiseFrom_sideLast (src c : Nat) (as : List (Nat × Nat)) : (d.raiseFrom src c as).sideLast = d.sideLast := Device.raiseRec_sideLast d _ _ _
@[simp] theorem Device.raiseFrom_engineFlags (src c : Nat) (as : List (Nat × Nat)) : (d.raiseFrom src c as).engineFlags = d.engineFlags := Device.raiseRec_engineFlags d _ _ _
@[simp] theorem Device.raiseFrom_deferred (src c : Nat) (as : List (Nat × Nat)) : (d.raiseFrom src c as).deferred = d.deferred := Device.raiseRec_deferred d _ _ _
@[simp] theorem Device.raiseFrom_run (src c : Nat) (as : List (Nat × Nat)) : (d.raiseFrom src c as).run = d.run := Device.raiseRec_run d _ _ _
@[simp] theorem Device.raiseFrom_streams (src c : Nat) (as : List (Nat × Nat)) : (d.raiseFrom src c as).streams = d.streams := Device.raiseRec_streams d _ _ _
@[simp] theorem Device.raiseFrom_versions (src c : Nat) (as : List (Nat × Nat)) : (d.raiseFrom src c as).versions = d.versions := Device.raiseRec_versions d _ _ _
@[simp] theorem Device.raiseFrom_batches (src c : Nat) (as : List (Nat × Nat)) : (d.raiseFrom src c as).batches = d.batches := Device.raiseRec_batches d _ _ _
@[simp] theorem Device.raiseFrom_publications (src c : Nat) (as : List (Nat × Nat)) : (d.raiseFrom src c as).publications = d.publications := Device.raiseRec_publications d _ _ _
@[simp] theorem Device.raiseFrom_net (src c : Nat) (as : List (Nat × Nat)) : (d.raiseFrom src c as).net = d.net := Device.raiseRec_net d _ _ _
@[simp] theorem Device.raiseFrom_log (src c : Nat) (as : List (Nat × Nat)) : (d.raiseFrom src c as).log = d.log := Device.raiseRec_log d _ _ _
@[simp] theorem Device.raiseFrom_still (src c : Nat) (as : List (Nat × Nat)) : (d.raiseFrom src c as).still = d.still := Device.raiseRec_still d _ _ _
@[simp] theorem Device.raiseFrom_risk (src c : Nat) (as : List (Nat × Nat)) : (d.raiseFrom src c as).risk = d.risk := Device.raiseRec_risk d _ _ _
@[simp] theorem Device.raiseFrom_micros (src c : Nat) (as : List (Nat × Nat)) : (d.raiseFrom src c as).micros = d.micros := Device.raiseRec_micros d _ _ _
@[simp] theorem Device.raiseFrom_ctl_staged (src c : Nat) (as : List (Nat × Nat)) : (d.raiseFrom src c as).ctl.staged = d.ctl.staged := Device.raiseRec_ctl_staged d _ _ _
@[simp] theorem Device.raiseFrom_ctl_held (src c : Nat) (as : List (Nat × Nat)) : (d.raiseFrom src c as).ctl.held = d.ctl.held := Device.raiseRec_ctl_held d _ _ _
@[simp] theorem Device.raiseFrom_ctl_serving (src c : Nat) (as : List (Nat × Nat)) : (d.raiseFrom src c as).ctl.serving = d.ctl.serving := Device.raiseRec_ctl_serving d _ _ _
@[simp] theorem Device.raiseFrom_ctl_restart (src c : Nat) (as : List (Nat × Nat)) : (d.raiseFrom src c as).ctl.restart = d.ctl.restart := Device.raiseRec_ctl_restart d _ _ _
@[simp] theorem Device.raiseFrom_ctl_restartsBegun (src c : Nat) (as : List (Nat × Nat)) : (d.raiseFrom src c as).ctl.restartsBegun = d.ctl.restartsBegun := Device.raiseRec_ctl_restartsBegun d _ _ _
@[simp] theorem Device.raiseFrom_ctl_hbCount (src c : Nat) (as : List (Nat × Nat)) : (d.raiseFrom src c as).ctl.hbCount = d.ctl.hbCount := Device.raiseRec_ctl_hbCount d _ _ _
@[simp] theorem Device.raiseFrom_ctl_auth (src c : Nat) (as : List (Nat × Nat)) : (d.raiseFrom src c as).ctl.auth = d.ctl.auth := Device.raiseRec_ctl_auth d _ _ _
@[simp] theorem Device.raiseFrom_ctl_transfers (src c : Nat) (as : List (Nat × Nat)) : (d.raiseFrom src c as).ctl.transfers = d.ctl.transfers := Device.raiseRec_ctl_transfers d _ _ _
@[simp] theorem Device.raiseFrom_ctl_kept (src c : Nat) (as : List (Nat × Nat)) : (d.raiseFrom src c as).ctl.kept = d.ctl.kept := Device.raiseRec_ctl_kept d _ _ _
@[simp] theorem Device.raiseFrom_ctl_waiting (src c : Nat) (as : List (Nat × Nat)) : (d.raiseFrom src c as).ctl.waiting = d.ctl.waiting := Device.raiseRec_ctl_waiting d _ _ _
@[simp] theorem Device.raiseFrom_ctl_slots (src c : Nat) (as : List (Nat × Nat)) : (d.raiseFrom src c as).ctl.slots = d.ctl.slots := Device.raiseRec_ctl_slots d _ _ _
@[simp] theorem Device.raiseFrom_ctl_posted (src c : Nat) (as : List (Nat × Nat)) : (d.raiseFrom src c as).ctl.posted = d.ctl.posted := Device.raiseRec_ctl_posted d _ _ _
@[simp] theorem Device.raiseFrom_ctl_nodeId (src c : Nat) (as : List (Nat × Nat)) : (d.raiseFrom src c as).ctl.nodeId = d.ctl.nodeId := Device.raiseRec_ctl_nodeId d _ _ _
@[simp] theorem Device.raiseFrom_ctl_feedId (src c : Nat) (as : List (Nat × Nat)) : (d.raiseFrom src c as).ctl.feedId = d.ctl.feedId := Device.raiseRec_ctl_feedId d _ _ _
@[simp] theorem Device.get_raiseFrom (src c : Nat) (as : List (Nat × Nat)) {k : Nat} (h1 : k ≠ Obj.eventsRaised) (h2 : k ≠ Obj.eventsUndelivered) :
    (d.raiseFrom src c as).get k = d.get k := Device.get_raiseRec d _ _ _ h1 h2

end Sys2Proof.Machine
end

