-- ==== Sys2Proof/Laws/Memory.lean ====
section
/-!
SUPPORT. The laws of object memory: a byte read after it is written, every other byte left alone, and the canonical form
kept by every operation on it.
-/
namespace Sys2Proof.Machine

/-- A byte written reads back. -/
@[simp] theorem memGet_memSet_same (m : List Host.Cell) (a : Nat) (b : Byte) (hs : memSorted m = true) :
    memGet (memSet m a b) a = b := by
  induction m with
  | nil => by_cases h : b = 0#8 <;> simp [memSet, memGet, h]
  | cons c m ih =>
    obtain ⟨k, v⟩ := c
    have hm : memSorted m = true := by
      cases m with
      | nil => rfl
      | cons c m => obtain ⟨k2, v2⟩ := c; simp [memSorted] at hs; exact hs.2
    have low : ∀ x, x ≤ k → memGet m x = 0 := by
      clear ih
      induction m generalizing k v with
      | nil => intros; rfl
      | cons c m ih =>
        obtain ⟨k2, v2⟩ := c
        simp [memSorted] at hs
        intro x hx
        have : ¬ k2 = x := by omega
        simp only [memGet, this, if_false]
        exact ih k2 v2 hs.2 (by
          cases m with
          | nil => rfl
          | cons c m => obtain ⟨k3, v3⟩ := c; simp [memSorted] at hs; exact hs.2.2) x (by omega)
    unfold memSet
    split
    · next hk =>
      subst hk
      split
      · next hb => subst hb; exact low _ (Nat.le_refl _)
      · simp [memGet]
    · next hk =>
      split
      · next hlt =>
        split
        · next hb => subst hb; simp only [memGet, hk, if_false]; exact low _ (by omega)
        · simp [memGet]
      · simp [memGet, hk, ih hm]

/-- A byte written leaves every other byte alone. -/
@[simp] theorem memGet_memSet_ne (m : List Host.Cell) {a x : Nat} (b : Byte) (h : x ≠ a) :
    memGet (memSet m a b) x = memGet m x := by
  induction m with
  | nil => by_cases hb : b = 0#8 <;> simp [memSet, memGet, hb, h.symm]
  | cons c m ih =>
    obtain ⟨k, v⟩ := c
    unfold memSet
    split
    · next hk => subst hk; split <;> simp [memGet, h.symm]
    · split
      · split <;> simp [memGet, h.symm]
      · by_cases hx : k = x <;> simp [memGet, hx, ih]

/-- Every key of a sorted memory is above the bound. -/
def memAbove (a : Nat) (m : List Host.Cell) : Prop := ∀ c ∈ m, a < c.1

theorem memSorted_cons (k : Nat) (v : Byte) (m : List Host.Cell) :
    memSorted ((k, v) :: m) = true ↔ memAbove k m ∧ memSorted m = true := by
  induction m generalizing k v with
  | nil => simp [memSorted, memAbove]
  | cons c m ih =>
    obtain ⟨k2, v2⟩ := c
    simp only [memSorted, Bool.and_eq_true, decide_eq_true_eq, memAbove, List.mem_cons, forall_eq_or_imp]
    constructor
    · rintro ⟨h1, h2⟩
      have := (ih k2 v2).mp h2
      exact ⟨⟨h1, fun c hc => Nat.lt_trans h1 (this.1 c hc)⟩, h2⟩
    · rintro ⟨⟨h1, _⟩, h2⟩
      exact ⟨h1, h2⟩

theorem memAbove_memSet {k a : Nat} {b : Byte} {m : List Host.Cell} (h : k < a) (hm : memAbove k m) :
    memAbove k (memSet m a b) := by
  induction m with
  | nil => unfold memSet; split <;> simp [memAbove, h]
  | cons c m ih =>
    obtain ⟨k2, v2⟩ := c
    have h2 : k < k2 := hm (k2, v2) (by simp)
    have hm' : memAbove k m := fun c hc => hm c (by simp [hc])
    unfold memSet
    split
    · split
      · exact hm'
      · intro c hc; simp at hc; rcases hc with rfl | hc
        · exact h
        · exact hm' c hc
    · split
      · split
        · exact hm
        · intro c hc; simp at hc; rcases hc with rfl | rfl | hc
          · exact h
          · exact h2
          · exact hm' c hc
      · intro c hc; simp at hc; rcases hc with rfl | hc
        · exact h2
        · exact ih hm' c hc

theorem memSorted_memSet {m : List Host.Cell} (a : Nat) (b : Byte) (h : memSorted m = true) :
    memSorted (memSet m a b) = true := by
  induction m with
  | nil => unfold memSet; split <;> rfl
  | cons c m ih =>
    obtain ⟨k, v⟩ := c
    have hk := (memSorted_cons k v m).mp h
    unfold memSet
    split
    · next e =>
      subst e
      split
      · exact hk.2
      · exact (memSorted_cons _ _ _).mpr hk
    · next ne =>
      split
      · next lt =>
        split
        · exact h
        · refine (memSorted_cons _ _ _).mpr ⟨?_, h⟩
          intro c hc
          simp at hc
          rcases hc with rfl | hc
          · exact lt
          · exact Nat.lt_trans lt (hk.1 c hc)
      · exact (memSorted_cons _ _ _).mpr ⟨memAbove_memSet (by omega) hk.1, ih hk.2⟩

theorem memNonzero_memSet {m : List Host.Cell} (a : Nat) (b : Byte) (h : ∀ c ∈ m, c.2 ≠ 0) :
    ∀ c ∈ memSet m a b, c.2 ≠ 0 := by
  induction m with
  | nil => unfold memSet; split <;> simp_all
  | cons c m ih =>
    obtain ⟨k, v⟩ := c
    have hm : ∀ c ∈ m, c.2 ≠ 0 := fun c hc => h c (by simp [hc])
    have hv : v ≠ 0 := h (k, v) (by simp)
    have cons : ∀ (x : Nat) (w : Byte) (l : List Host.Cell), w ≠ 0 → (∀ c ∈ l, c.2 ≠ 0) → ∀ c ∈ (x, w) :: l, c.2 ≠ 0 := by
      intro x w l hw hl c hc
      rcases List.mem_cons.mp hc with rfl | hc
      · exact hw
      · exact hl c hc
    unfold memSet
    split
    · split
      · exact hm
      · next hb => exact cons _ _ _ hb hm
    · split
      · split
        · exact h
        · next hb => exact cons _ _ _ hb h
      · exact cons _ _ _ hv (ih hm)

theorem Memory.wf_iff (m : List Host.Cell) : Memory.wf m = true ↔ memSorted m = true ∧ ∀ c ∈ m, c.2 ≠ 0 := by
  simp [Memory.wf]

/-- A byte written keeps the canonical form. -/
theorem Memory.wf_memSet {m : List Host.Cell} (a : Nat) (b : Byte) (h : Memory.wf m = true) :
    Memory.wf (memSet m a b) = true := by
  rw [Memory.wf_iff] at *
  exact ⟨memSorted_memSet a b h.1, memNonzero_memSet a b h.2⟩

/-- A byte string written keeps the canonical form. -/
theorem Memory.wf_memWrite {m : List Host.Cell} (a : Nat) (bs : Bytes) (h : Memory.wf m = true) :
    Memory.wf (memWrite m a bs) = true := by
  induction bs generalizing m a with
  | nil => exact h
  | cons b bs ih => exact ih (a + 1) (Memory.wf_memSet a b h)

/-- Bytes put back one by one keep the form (what `Device.undoObject` does). -/
theorem Memory.wf_foldl_memSet (cs : List Host.Cell) {m : List Host.Cell} (h : Memory.wf m = true) :
    Memory.wf (cs.foldl (fun l c => memSet l c.1 c.2) m) = true := by
  induction cs generalizing m with
  | nil => exact h
  | cons c cs ih => exact ih (Memory.wf_memSet c.1 c.2 h)

theorem memSorted_filter (f : Host.Cell → Bool) {m : List Host.Cell} (hs : memSorted m = true) :
    memSorted (m.filter f) = true := by
  induction m with
  | nil => rfl
  | cons c m ih =>
    obtain ⟨k, v⟩ := c
    have hk := (memSorted_cons k v m).mp hs
    by_cases hf : f (k, v) = true
    · rw [List.filter_cons_of_pos hf]
      exact (memSorted_cons _ _ _).mpr ⟨fun c hc => hk.1 c (List.mem_filter.mp hc).1, ih hk.2⟩
    · rw [List.filter_cons_of_neg hf]; exact ih hk.2

/-- Bytes removed keep the canonical form. -/
theorem Memory.wf_filter {m : List Host.Cell} (f : Host.Cell → Bool) (h : Memory.wf m = true) :
    Memory.wf (m.filter f) = true := by
  rw [Memory.wf_iff] at *
  exact ⟨memSorted_filter f h.1, fun c hc => h.2 c (List.mem_filter.mp hc).1⟩

/-- A byte outside the string written stays. -/
theorem memGet_memWrite_out (m : List Host.Cell) (a : Nat) (bs : Bytes) {x : Nat} (h : x < a ∨ a + bs.length ≤ x) :
    memGet (memWrite m a bs) x = memGet m x := by
  induction bs generalizing m a with
  | nil => rfl
  | cons b bs ih =>
    simp only [List.length_cons] at h
    rw [memWrite, ih (memSet m a b) (a + 1) (by omega), memGet_memSet_ne _ _ (by omega)]

/-- A byte inside the string written reads as the string has it. -/
theorem memGet_memWrite_in (m : List Host.Cell) (a : Nat) (bs : Bytes) (hm : memSorted m = true) {i : Nat}
    (h : i < bs.length) : memGet (memWrite m a bs) (a + i) = bs[i] := by
  induction bs generalizing m a i with
  | nil => simp at h
  | cons b bs ih =>
    cases i with
    | zero => rw [memWrite, memGet_memWrite_out _ _ _ (by omega)]; simp [hm]
    | succ i =>
      have : a + (i + 1) = a + 1 + i := by omega
      rw [memWrite, this, ih (memSet m a b) (a + 1) (memSorted_memSet a b hm) (by simpa using h)]
      simp

/-! ### The device's operations on it -/

variable (d : Device)

/-- The operations on object memory keep its canonical form. -/
theorem Device.wf_writeBytes (h off : Nat) (bs : Bytes) (hw : Memory.wf d.ms.mem = true) :
    Memory.wf (d.writeBytes h off bs).ms.mem = true := Memory.wf_memWrite _ _ hw

theorem Device.wf_writeNat (h off n v : Nat) (hw : Memory.wf d.ms.mem = true) :
    Memory.wf (d.writeNat h off n v).ms.mem = true := Memory.wf_memWrite _ _ hw

theorem Device.wf_clearObject (h : Nat) (hw : Memory.wf d.ms.mem = true) :
    Memory.wf (d.clearObject h).ms.mem = true := Memory.wf_filter _ hw

/-- Memory right after reset is in the canonical form. -/
theorem State.reset_memory_wf : Memory.wf State.reset.dev.ms.mem = true := rfl

@[simp] theorem Device.setEntry_mem (h : Nat) (e : DirEntry) : (d.setEntry h e).ms.mem = d.ms.mem := rfl
@[simp] theorem Device.modEntry_mem (h : Nat) (f : DirEntry → DirEntry) : (d.modEntry h f).ms.mem = d.ms.mem := rfl
@[simp] theorem Device.invalidate_mem (h : Nat) : (d.invalidate h).ms.mem = d.ms.mem := rfl
@[simp] theorem Device.bumpVersion_mem (h : Nat) : (d.bumpVersion h).ms.mem = d.ms.mem := rfl

/-- The bytes of another object, or beyond those written, stay. -/
theorem Device.memGet_writeBytes_out (h off : Nat) (bs : Bytes) {x : Nat}
    (hx : x < addrOf h off ∨ addrOf h off + bs.length ≤ x) :
    memGet (d.writeBytes h off bs).ms.mem x = memGet d.ms.mem x := memGet_memWrite_out _ _ _ hx

/-! ### Bytes -/

@[simp] theorem leBytes_length (n v : Nat) : (leBytes n v).length = n := by
  induction n generalizing v with
  | zero => rfl
  | succ n ih => simp [leBytes, ih]

theorem leNat_leBytes (n v : Nat) (h : v < 256 ^ n) : leNat (leBytes n v) = v := by
  induction n generalizing v with
  | zero => simp at h; subst h; rfl
  | succ n ih =>
    have : v / 256 < 256 ^ n := by rw [Nat.pow_succ] at h; omega
    simp only [leBytes, leNat, ih _ this, BitVec.toNat_ofNat]
    omega

/-- A string written is read back. -/
theorem Device.readBytes_writeBytes (d : Device) (h off : Nat) (bs : Bytes) (hw : Memory.wf d.ms.mem = true) :
    (d.writeBytes h off bs).readBytes h off bs.length = bs := by
  unfold Device.readBytes
  apply List.ext_getElem
  · simp
  · intro i h1 h2
    have := memGet_memWrite_in d.ms.mem (addrOf h off) bs ((Memory.wf_iff _).mp hw).1 h2
    simp only [List.getElem_map, List.getElem_range, Device.writeBytes, Device.onMs]
    rw [show addrOf h (off + i) = addrOf h off + i by simp [addrOf, Nat.add_assoc]]
    simpa using this

/-- A field written is read back. -/
theorem Device.readNat_writeNat (d : Device) (h off n v : Nat) (hv : v < 256 ^ n) (hw : Memory.wf d.ms.mem = true) :
    (d.writeNat h off n v).readNat h off n = v := by
  have := Device.readBytes_writeBytes d h off (leBytes n v) hw
  rw [leBytes_length] at this
  rw [Device.readNat, Device.writeNat, this, leNat_leBytes _ _ hv]

end Sys2Proof.Machine
end

