-- ==== Sys2Proof/Laws/Dict.lean ====
section
/-!
SUPPORT. What a request changes on its way: serving it counts it and renews a session; answering it writes its slot or sends
its frame. Neither touches anything else, one lemma per field; and what a write that passes its checks comes to.
-/
namespace Sys2Proof.Machine

variable (d : Device)

theorem Device.counted_eq (p : Path) : ∃ di, d.counted p = { d with ctl := { d.ctl with dict := di } } := by
  cases p <;> exact ⟨_, rfl⟩

theorem Device.renewed_eq (rq : Req) : ∃ au, d.renewed rq = { d with ctl := { d.ctl with auth := au } } := by
  unfold Device.renewed
  simp only []
  split <;> exact ⟨_, rfl⟩

/-- `served` changes the control path's dictionary and sessions only. -/
theorem Device.served_eq (rq : Req) : ∃ di au, d.served rq = { d with ctl := { d.ctl with dict := di, auth := au } } := by
  obtain ⟨di, hc⟩ := d.counted_eq rq.path
  obtain ⟨au, hr⟩ := (d.counted rq.path).renewed_eq rq
  exact ⟨di, au, by rw [Device.served, hr, hc]⟩

/-- Answering changes the slots, the kept responses and the requests that wait, and sends something. -/
theorem Device.respond_eq (rq : Req) (op key type : Nat) (a : Answer) : ∃ sl ke o,
    d.respond rq op key type a = { d with ctl := { d.ctl with slots := sl, kept := ke }, out := o } := by
  unfold Device.respond
  cases rq.path <;> exact ⟨_, _, _, rfl⟩

theorem Device.answer_eq (rq : Req) (op key type arg st : Nat) : ∃ sl ke wa o,
    d.answer rq op key type arg st = { d with ctl := { d.ctl with slots := sl, kept := ke, waiting := wa }, out := o } := by
  unfold Device.answer
  simp only []
  split
  · obtain ⟨sl, ke, o, h⟩ := Device.respond_eq (d.onCtl (fun c => { c with waiting := c.waiting ++ [{ rq, op, key, type, arg }] }))
      rq op key type (writeAnswer op key st)
    exact ⟨sl, ke, _, o, h⟩
  · obtain ⟨sl, ke, o, h⟩ := Device.respond_eq d rq op key type (writeAnswer op key st)
    exact ⟨sl, ke, _, o, h⟩

@[simp] theorem Device.served_evqs (rq : Req) : (d.served rq).evqs = d.evqs := by
  obtain ⟨_, _, h⟩ := d.served_eq rq; rw [h]
@[simp] theorem Device.served_ports (rq : Req) : (d.served rq).ports = d.ports := by
  obtain ⟨_, _, h⟩ := d.served_eq rq; rw [h]
@[simp] theorem Device.served_pwr (rq : Req) : (d.served rq).pwr = d.pwr := by
  obtain ⟨_, _, h⟩ := d.served_eq rq; rw [h]
@[simp] theorem Device.served_gov (rq : Req) : (d.served rq).gov = d.gov := by
  obtain ⟨_, _, h⟩ := d.served_eq rq; rw [h]
@[simp] theorem Device.served_sec (rq : Req) : (d.served rq).sec = d.sec := by
  obtain ⟨_, _, h⟩ := d.served_eq rq; rw [h]
@[simp] theorem Device.served_boot (rq : Req) : (d.served rq).boot = d.boot := by
  obtain ⟨_, _, h⟩ := d.served_eq rq; rw [h]
@[simp] theorem Device.served_svc (rq : Req) : (d.served rq).svc = d.svc := by
  obtain ⟨_, _, h⟩ := d.served_eq rq; rw [h]
@[simp] theorem Device.served_ms (rq : Req) : (d.served rq).ms = d.ms := by
  obtain ⟨_, _, h⟩ := d.served_eq rq; rw [h]
@[simp] theorem Device.served_stages (rq : Req) : (d.served rq).stages = d.stages := by
  obtain ⟨_, _, h⟩ := d.served_eq rq; rw [h]
@[simp] theorem Device.served_bindings (rq : Req) : (d.served rq).bindings = d.bindings := by
  obtain ⟨_, _, h⟩ := d.served_eq rq; rw [h]
@[simp] theorem Device.served_scaleRegs (rq : Req) : (d.served rq).scaleRegs = d.scaleRegs := by
  obtain ⟨_, _, h⟩ := d.served_eq rq; rw [h]
@[simp] theorem Device.served_issue (rq : Req) : (d.served rq).issue = d.issue := by
  obtain ⟨_, _, h⟩ := d.served_eq rq; rw [h]
@[simp] theorem Device.served_saveArea (rq : Req) : (d.served rq).saveArea = d.saveArea := by
  obtain ⟨_, _, h⟩ := d.served_eq rq; rw [h]
@[simp] theorem Device.served_sideLast (rq : Req) : (d.served rq).sideLast = d.sideLast := by
  obtain ⟨_, _, h⟩ := d.served_eq rq; rw [h]
@[simp] theorem Device.served_engineFlags (rq : Req) : (d.served rq).engineFlags = d.engineFlags := by
  obtain ⟨_, _, h⟩ := d.served_eq rq; rw [h]
@[simp] theorem Device.served_deferred (rq : Req) : (d.served rq).deferred = d.deferred := by
  obtain ⟨_, _, h⟩ := d.served_eq rq; rw [h]
@[simp] theorem Device.served_run (rq : Req) : (d.served rq).run = d.run := by
  obtain ⟨_, _, h⟩ := d.served_eq rq; rw [h]
@[simp] theorem Device.served_streams (rq : Req) : (d.served rq).streams = d.streams := by
  obtain ⟨_, _, h⟩ := d.served_eq rq; rw [h]
@[simp] theorem Device.served_versions (rq : Req) : (d.served rq).versions = d.versions := by
  obtain ⟨_, _, h⟩ := d.served_eq rq; rw [h]
@[simp] theorem Device.served_batches (rq : Req) : (d.served rq).batches = d.batches := by
  obtain ⟨_, _, h⟩ := d.served_eq rq; rw [h]
@[simp] theorem Device.served_publications (rq : Req) : (d.served rq).publications = d.publications := by
  obtain ⟨_, _, h⟩ := d.served_eq rq; rw [h]
@[simp] theorem Device.served_net (rq : Req) : (d.served rq).net = d.net := by
  obtain ⟨_, _, h⟩ := d.served_eq rq; rw [h]
@[simp] theorem Device.served_log (rq : Req) : (d.served rq).log = d.log := by
  obtain ⟨_, _, h⟩ := d.served_eq rq; rw [h]
@[simp] theorem Device.served_still (rq : Req) : (d.served rq).still = d.still := by
  obtain ⟨_, _, h⟩ := d.served_eq rq; rw [h]
@[simp] theorem Device.served_risk (rq : Req) : (d.served rq).risk = d.risk := by
  obtain ⟨_, _, h⟩ := d.served_eq rq; rw [h]
@[simp] theorem Device.served_micros (rq : Req) : (d.served rq).micros = d.micros := by
  obtain ⟨_, _, h⟩ := d.served_eq rq; rw [h]
@[simp] theorem Device.served_free (rq : Req) : (d.served rq).free = d.free := by
  obtain ⟨_, _, h⟩ := d.served_eq rq; rw [h]
@[simp] theorem Device.served_out (rq : Req) : (d.served rq).out = d.out := by
  obtain ⟨_, _, h⟩ := d.served_eq rq; rw [h]
@[simp] theorem Device.served_ctl_staged (rq : Req) : (d.served rq).ctl.staged = d.ctl.staged := by
  obtain ⟨_, _, h⟩ := d.served_eq rq; rw [h]
@[simp] theorem Device.served_ctl_held (rq : Req) : (d.served rq).ctl.held = d.ctl.held := by
  obtain ⟨_, _, h⟩ := d.served_eq rq; rw [h]
@[simp] theorem Device.served_ctl_serving (rq : Req) : (d.served rq).ctl.serving = d.ctl.serving := by
  obtain ⟨_, _, h⟩ := d.served_eq rq; rw [h]
@[simp] theorem Device.served_ctl_restart (rq : Req) : (d.served rq).ctl.restart = d.ctl.restart := by
  obtain ⟨_, _, h⟩ := d.served_eq rq; rw [h]
@[simp] theorem Device.served_ctl_restartsBegun (rq : Req) : (d.served rq).ctl.restartsBegun = d.ctl.restartsBegun := by
  obtain ⟨_, _, h⟩ := d.served_eq rq; rw [h]
@[simp] theorem Device.served_ctl_hbCount (rq : Req) : (d.served rq).ctl.hbCount = d.ctl.hbCount := by
  obtain ⟨_, _, h⟩ := d.served_eq rq; rw [h]
@[simp] theorem Device.served_ctl_transfers (rq : Req) : (d.served rq).ctl.transfers = d.ctl.transfers := by
  obtain ⟨_, _, h⟩ := d.served_eq rq; rw [h]
@[simp] theorem Device.served_ctl_kept (rq : Req) : (d.served rq).ctl.kept = d.ctl.kept := by
  obtain ⟨_, _, h⟩ := d.served_eq rq; rw [h]
@[simp] theorem Device.served_ctl_waiting (rq : Req) : (d.served rq).ctl.waiting = d.ctl.waiting := by
  obtain ⟨_, _, h⟩ := d.served_eq rq; rw [h]
@[simp] theorem Device.served_ctl_slots (rq : Req) : (d.served rq).ctl.slots = d.ctl.slots := by
  obtain ⟨_, _, h⟩ := d.served_eq rq; rw [h]
@[simp] theorem Device.served_ctl_posted (rq : Req) : (d.served rq).ctl.posted = d.ctl.posted := by
  obtain ⟨_, _, h⟩ := d.served_eq rq; rw [h]
@[simp] theorem Device.served_ctl_nodeId (rq : Req) : (d.served rq).ctl.nodeId = d.ctl.nodeId := by
  obtain ⟨_, _, h⟩ := d.served_eq rq; rw [h]
@[simp] theorem Device.served_ctl_feedId (rq : Req) : (d.served rq).ctl.feedId = d.ctl.feedId := by
  obtain ⟨_, _, h⟩ := d.served_eq rq; rw [h]

@[simp] theorem Device.respond_evqs (rq : Req) (op key type : Nat) (a : Answer) : (d.respond rq op key type a).evqs = d.evqs := by
  obtain ⟨_, _, _, h⟩ := d.respond_eq rq op key type a; rw [h]
@[simp] theorem Device.respond_ports (rq : Req) (op key type : Nat) (a : Answer) : (d.respond rq op key type a).ports = d.ports := by
  obtain ⟨_, _, _, h⟩ := d.respond_eq rq op key type a; rw [h]
@[simp] theorem Device.respond_pwr (rq : Req) (op key type : Nat) (a : Answer) : (d.respond rq op key type a).pwr = d.pwr := by
  obtain ⟨_, _, _, h⟩ := d.respond_eq rq op key type a; rw [h]
@[simp] theorem Device.respond_gov (rq : Req) (op key type : Nat) (a : Answer) : (d.respond rq op key type a).gov = d.gov := by
  obtain ⟨_, _, _, h⟩ := d.respond_eq rq op key type a; rw [h]
@[simp] theorem Device.respond_sec (rq : Req) (op key type : Nat) (a : Answer) : (d.respond rq op key type a).sec = d.sec := by
  obtain ⟨_, _, _, h⟩ := d.respond_eq rq op key type a; rw [h]
@[simp] theorem Device.respond_boot (rq : Req) (op key type : Nat) (a : Answer) : (d.respond rq op key type a).boot = d.boot := by
  obtain ⟨_, _, _, h⟩ := d.respond_eq rq op key type a; rw [h]
@[simp] theorem Device.respond_svc (rq : Req) (op key type : Nat) (a : Answer) : (d.respond rq op key type a).svc = d.svc := by
  obtain ⟨_, _, _, h⟩ := d.respond_eq rq op key type a; rw [h]
@[simp] theorem Device.respond_ms (rq : Req) (op key type : Nat) (a : Answer) : (d.respond rq op key type a).ms = d.ms := by
  obtain ⟨_, _, _, h⟩ := d.respond_eq rq op key type a; rw [h]
@[simp] theorem Device.respond_stages (rq : Req) (op key type : Nat) (a : Answer) : (d.respond rq op key type a).stages = d.stages := by
  obtain ⟨_, _, _, h⟩ := d.respond_eq rq op key type a; rw [h]
@[simp] theorem Device.respond_bindings (rq : Req) (op key type : Nat) (a : Answer) : (d.respond rq op key type a).bindings = d.bindings := by
  obtain ⟨_, _, _, h⟩ := d.respond_eq rq op key type a; rw [h]
@[simp] theorem Device.respond_scaleRegs (rq : Req) (op key type : Nat) (a : Answer) : (d.respond rq op key type a).scaleRegs = d.scaleRegs := by
  obtain ⟨_, _, _, h⟩ := d.respond_eq rq op key type a; rw [h]
@[simp] theorem Device.respond_issue (rq : Req) (op key type : Nat) (a : Answer) : (d.respond rq op key type a).issue = d.issue := by
  obtain ⟨_, _, _, h⟩ := d.respond_eq rq op key type a; rw [h]
@[simp] theorem Device.respond_saveArea (rq : Req) (op key type : Nat) (a : Answer) : (d.respond rq op key type a).saveArea = d.saveArea := by
  obtain ⟨_, _, _, h⟩ := d.respond_eq rq op key type a; rw [h]
@[simp] theorem Device.respond_sideLast (rq : Req) (op key type : Nat) (a : Answer) : (d.respond rq op key type a).sideLast = d.sideLast := by
  obtain ⟨_, _, _, h⟩ := d.respond_eq rq op key type a; rw [h]
@[simp] theorem Device.respond_engineFlags (rq : Req) (op key type : Nat) (a : Answer) : (d.respond rq op key type a).engineFlags = d.engineFlags := by
  obtain ⟨_, _, _, h⟩ := d.respond_eq rq op key type a; rw [h]
@[simp] theorem Device.respond_deferred (rq : Req) (op key type : Nat) (a : Answer) : (d.respond rq op key type a).deferred = d.deferred := by
  obtain ⟨_, _, _, h⟩ := d.respond_eq rq op key type a; rw [h]
@[simp] theorem Device.respond_run (rq : Req) (op key type : Nat) (a : Answer) : (d.respond rq op key type a).run = d.run := by
  obtain ⟨_, _, _, h⟩ := d.respond_eq rq op key type a; rw [h]
@[simp] theorem Device.respond_streams (rq : Req) (op key type : Nat) (a : Answer) : (d.respond rq op key type a).streams = d.streams := by
  obtain ⟨_, _, _, h⟩ := d.respond_eq rq op key type a; rw [h]
@[simp] theorem Device.respond_versions (rq : Req) (op key type : Nat) (a : Answer) : (d.respond rq op key type a).versions = d.versions := by
  obtain ⟨_, _, _, h⟩ := d.respond_eq rq op key type a; rw [h]
@[simp] theorem Device.respond_batches (rq : Req) (op key type : Nat) (a : Answer) : (d.respond rq op key type a).batches = d.batches := by
  obtain ⟨_, _, _, h⟩ := d.respond_eq rq op key type a; rw [h]
@[simp] theorem Device.respond_publications (rq : Req) (op key type : Nat) (a : Answer) : (d.respond rq op key type a).publications = d.publications := by
  obtain ⟨_, _, _, h⟩ := d.respond_eq rq op key type a; rw [h]
@[simp] theorem Device.respond_net (rq : Req) (op key type : Nat) (a : Answer) : (d.respond rq op key type a).net = d.net := by
  obtain ⟨_, _, _, h⟩ := d.respond_eq rq op key type a; rw [h]
@[simp] theorem Device.respond_log (rq : Req) (op key type : Nat) (a : Answer) : (d.respond rq op key type a).log = d.log := by
  obtain ⟨_, _, _, h⟩ := d.respond_eq rq op key type a; rw [h]
@[simp] theorem Device.respond_still (rq : Req) (op key type : Nat) (a : Answer) : (d.respond rq op key type a).still = d.still := by
  obtain ⟨_, _, _, h⟩ := d.respond_eq rq op key type a; rw [h]
@[simp] theorem Device.respond_risk (rq : Req) (op key type : Nat) (a : Answer) : (d.respond rq op key type a).risk = d.risk := by
  obtain ⟨_, _, _, h⟩ := d.respond_eq rq op key type a; rw [h]
@[simp] theorem Device.respond_micros (rq : Req) (op key type : Nat) (a : Answer) : (d.respond rq op key type a).micros = d.micros := by
  obtain ⟨_, _, _, h⟩ := d.respond_eq rq op key type a; rw [h]
@[simp] theorem Device.respond_free (rq : Req) (op key type : Nat) (a : Answer) : (d.respond rq op key type a).free = d.free := by
  obtain ⟨_, _, _, h⟩ := d.respond_eq rq op key type a; rw [h]
@[simp] theorem Device.respond_ctl_dict (rq : Req) (op key type : Nat) (a : Answer) : (d.respond rq op key type a).ctl.dict = d.ctl.dict := by
  obtain ⟨_, _, _, h⟩ := d.respond_eq rq op key type a; rw [h]
@[simp] theorem Device.respond_ctl_staged (rq : Req) (op key type : Nat) (a : Answer) : (d.respond rq op key type a).ctl.staged = d.ctl.staged := by
  obtain ⟨_, _, _, h⟩ := d.respond_eq rq op key type a; rw [h]
@[simp] theorem Device.respond_ctl_held (rq : Req) (op key type : Nat) (a : Answer) : (d.respond rq op key type a).ctl.held = d.ctl.held := by
  obtain ⟨_, _, _, h⟩ := d.respond_eq rq op key type a; rw [h]
@[simp] theorem Device.respond_ctl_serving (rq : Req) (op key type : Nat) (a : Answer) : (d.respond rq op key type a).ctl.serving = d.ctl.serving := by
  obtain ⟨_, _, _, h⟩ := d.respond_eq rq op key type a; rw [h]
@[simp] theorem Device.respond_ctl_restart (rq : Req) (op key type : Nat) (a : Answer) : (d.respond rq op key type a).ctl.restart = d.ctl.restart := by
  obtain ⟨_, _, _, h⟩ := d.respond_eq rq op key type a; rw [h]
@[simp] theorem Device.respond_ctl_restartsBegun (rq : Req) (op key type : Nat) (a : Answer) : (d.respond rq op key type a).ctl.restartsBegun = d.ctl.restartsBegun := by
  obtain ⟨_, _, _, h⟩ := d.respond_eq rq op key type a; rw [h]
@[simp] theorem Device.respond_ctl_hbCount (rq : Req) (op key type : Nat) (a : Answer) : (d.respond rq op key type a).ctl.hbCount = d.ctl.hbCount := by
  obtain ⟨_, _, _, h⟩ := d.respond_eq rq op key type a; rw [h]
@[simp] theorem Device.respond_ctl_auth (rq : Req) (op key type : Nat) (a : Answer) : (d.respond rq op key type a).ctl.auth = d.ctl.auth := by
  obtain ⟨_, _, _, h⟩ := d.respond_eq rq op key type a; rw [h]
@[simp] theorem Device.respond_ctl_transfers (rq : Req) (op key type : Nat) (a : Answer) : (d.respond rq op key type a).ctl.transfers = d.ctl.transfers := by
  obtain ⟨_, _, _, h⟩ := d.respond_eq rq op key type a; rw [h]
@[simp] theorem Device.respond_ctl_posted (rq : Req) (op key type : Nat) (a : Answer) : (d.respond rq op key type a).ctl.posted = d.ctl.posted := by
  obtain ⟨_, _, _, h⟩ := d.respond_eq rq op key type a; rw [h]
@[simp] theorem Device.respond_ctl_nodeId (rq : Req) (op key type : Nat) (a : Answer) : (d.respond rq op key type a).ctl.nodeId = d.ctl.nodeId := by
  obtain ⟨_, _, _, h⟩ := d.respond_eq rq op key type a; rw [h]
@[simp] theorem Device.respond_ctl_feedId (rq : Req) (op key type : Nat) (a : Answer) : (d.respond rq op key type a).ctl.feedId = d.ctl.feedId := by
  obtain ⟨_, _, _, h⟩ := d.respond_eq rq op key type a; rw [h]
@[simp] theorem Device.respond_ctl_waiting (rq : Req) (op key type : Nat) (a : Answer) : (d.respond rq op key type a).ctl.waiting = d.ctl.waiting := by
  obtain ⟨_, _, _, h⟩ := d.respond_eq rq op key type a; rw [h]
@[simp] theorem Device.get_respond (rq : Req) (op key type : Nat) (a : Answer) (k : Nat) : (d.respond rq op key type a).get k = d.get k :=
  Device.get_of_dict (by simp) k

@[simp] theorem Device.answer_evqs (rq : Req) (op key type arg st : Nat) : (d.answer rq op key type arg st).evqs = d.evqs := by
  obtain ⟨_, _, _, _, h⟩ := d.answer_eq rq op key type arg st; rw [h]
@[simp] theorem Device.answer_ports (rq : Req) (op key type arg st : Nat) : (d.answer rq op key type arg st).ports = d.ports := by
  obtain ⟨_, _, _, _, h⟩ := d.answer_eq rq op key type arg st; rw [h]
@[simp] theorem Device.answer_pwr (rq : Req) (op key type arg st : Nat) : (d.answer rq op key type arg st).pwr = d.pwr := by
  obtain ⟨_, _, _, _, h⟩ := d.answer_eq rq op key type arg st; rw [h]
@[simp] theorem Device.answer_gov (rq : Req) (op key type arg st : Nat) : (d.answer rq op key type arg st).gov = d.gov := by
  obtain ⟨_, _, _, _, h⟩ := d.answer_eq rq op key type arg st; rw [h]
@[simp] theorem Device.answer_sec (rq : Req) (op key type arg st : Nat) : (d.answer rq op key type arg st).sec = d.sec := by
  obtain ⟨_, _, _, _, h⟩ := d.answer_eq rq op key type arg st; rw [h]
@[simp] theorem Device.answer_boot (rq : Req) (op key type arg st : Nat) : (d.answer rq op key type arg st).boot = d.boot := by
  obtain ⟨_, _, _, _, h⟩ := d.answer_eq rq op key type arg st; rw [h]
@[simp] theorem Device.answer_svc (rq : Req) (op key type arg st : Nat) : (d.answer rq op key type arg st).svc = d.svc := by
  obtain ⟨_, _, _, _, h⟩ := d.answer_eq rq op key type arg st; rw [h]
@[simp] theorem Device.answer_ms (rq : Req) (op key type arg st : Nat) : (d.answer rq op key type arg st).ms = d.ms := by
  obtain ⟨_, _, _, _, h⟩ := d.answer_eq rq op key type arg st; rw [h]
@[simp] theorem Device.answer_stages (rq : Req) (op key type arg st : Nat) : (d.answer rq op key type arg st).stages = d.stages := by
  obtain ⟨_, _, _, _, h⟩ := d.answer_eq rq op key type arg st; rw [h]
@[simp] theorem Device.answer_bindings (rq : Req) (op key type arg st : Nat) : (d.answer rq op key type arg st).bindings = d.bindings := by
  obtain ⟨_, _, _, _, h⟩ := d.answer_eq rq op key type arg st; rw [h]
@[simp] theorem Device.answer_scaleRegs (rq : Req) (op key type arg st : Nat) : (d.answer rq op key type arg st).scaleRegs = d.scaleRegs := by
  obtain ⟨_, _, _, _, h⟩ := d.answer_eq rq op key type arg st; rw [h]
@[simp] theorem Device.answer_issue (rq : Req) (op key type arg st : Nat) : (d.answer rq op key type arg st).issue = d.issue := by
  obtain ⟨_, _, _, _, h⟩ := d.answer_eq rq op key type arg st; rw [h]
@[simp] theorem Device.answer_saveArea (rq : Req) (op key type arg st : Nat) : (d.answer rq op key type arg st).saveArea = d.saveArea := by
  obtain ⟨_, _, _, _, h⟩ := d.answer_eq rq op key type arg st; rw [h]
@[simp] theorem Device.answer_sideLast (rq : Req) (op key type arg st : Nat) : (d.answer rq op key type arg st).sideLast = d.sideLast := by
  obtain ⟨_, _, _, _, h⟩ := d.answer_eq rq op key type arg st; rw [h]
@[simp] theorem Device.answer_engineFlags (rq : Req) (op key type arg st : Nat) : (d.answer rq op key type arg st).engineFlags = d.engineFlags := by
  obtain ⟨_, _, _, _, h⟩ := d.answer_eq rq op key type arg st; rw [h]
@[simp] theorem Device.answer_deferred (rq : Req) (op key type arg st : Nat) : (d.answer rq op key type arg st).deferred = d.deferred := by
  obtain ⟨_, _, _, _, h⟩ := d.answer_eq rq op key type arg st; rw [h]
@[simp] theorem Device.answer_run (rq : Req) (op key type arg st : Nat) : (d.answer rq op key type arg st).run = d.run := by
  obtain ⟨_, _, _, _, h⟩ := d.answer_eq rq op key type arg st; rw [h]
@[simp] theorem Device.answer_streams (rq : Req) (op key type arg st : Nat) : (d.answer rq op key type arg st).streams = d.streams := by
  obtain ⟨_, _, _, _, h⟩ := d.answer_eq rq op key type arg st; rw [h]
@[simp] theorem Device.answer_versions (rq : Req) (op key type arg st : Nat) : (d.answer rq op key type arg st).versions = d.versions := by
  obtain ⟨_, _, _, _, h⟩ := d.answer_eq rq op key type arg st; rw [h]
@[simp] theorem Device.answer_batches (rq : Req) (op key type arg st : Nat) : (d.answer rq op key type arg st).batches = d.batches := by
  obtain ⟨_, _, _, _, h⟩ := d.answer_eq rq op key type arg st; rw [h]
@[simp] theorem Device.answer_publications (rq : Req) (op key type arg st : Nat) : (d.answer rq op key type arg st).publications = d.publications := by
  obtain ⟨_, _, _, _, h⟩ := d.answer_eq rq op key type arg st; rw [h]
@[simp] theorem Device.answer_net (rq : Req) (op key type arg st : Nat) : (d.answer rq op key type arg st).net = d.net := by
  obtain ⟨_, _, _, _, h⟩ := d.answer_eq rq op key type arg st; rw [h]
@[simp] theorem Device.answer_log (rq : Req) (op key type arg st : Nat) : (d.answer rq op key type arg st).log = d.log := by
  obtain ⟨_, _, _, _, h⟩ := d.answer_eq rq op key type arg st; rw [h]
@[simp] theorem Device.answer_still (rq : Req) (op key type arg st : Nat) : (d.answer rq op key type arg st).still = d.still := by
  obtain ⟨_, _, _, _, h⟩ := d.answer_eq rq op key type arg st; rw [h]
@[simp] theorem Device.answer_risk (rq : Req) (op key type arg st : Nat) : (d.answer rq op key type arg st).risk = d.risk := by
  obtain ⟨_, _, _, _, h⟩ := d.answer_eq rq op key type arg st; rw [h]
@[simp] theorem Device.answer_micros (rq : Req) (op key type arg st : Nat) : (d.answer rq op key type arg st).micros = d.micros := by
  obtain ⟨_, _, _, _, h⟩ := d.answer_eq rq op key type arg st; rw [h]
@[simp] theorem Device.answer_free (rq : Req) (op key type arg st : Nat) : (d.answer rq op key type arg st).free = d.free := by
  obtain ⟨_, _, _, _, h⟩ := d.answer_eq rq op key type arg st; rw [h]
@[simp] theorem Device.answer_ctl_dict (rq : Req) (op key type arg st : Nat) : (d.answer rq op key type arg st).ctl.dict = d.ctl.dict := by
  obtain ⟨_, _, _, _, h⟩ := d.answer_eq rq op key type arg st; rw [h]
@[simp] theorem Device.answer_ctl_staged (rq : Req) (op key type arg st : Nat) : (d.answer rq op key type arg st).ctl.staged = d.ctl.staged := by
  obtain ⟨_, _, _, _, h⟩ := d.answer_eq rq op key type arg st; rw [h]
@[simp] theorem Device.answer_ctl_held (rq : Req) (op key type arg st : Nat) : (d.answer rq op key type arg st).ctl.held = d.ctl.held := by
  obtain ⟨_, _, _, _, h⟩ := d.answer_eq rq op key type arg st; rw [h]
@[simp] theorem Device.answer_ctl_serving (rq : Req) (op key type arg st : Nat) : (d.answer rq op key type arg st).ctl.serving = d.ctl.serving := by
  obtain ⟨_, _, _, _, h⟩ := d.answer_eq rq op key type arg st; rw [h]
@[simp] theorem Device.answer_ctl_restart (rq : Req) (op key type arg st : Nat) : (d.answer rq op key type arg st).ctl.restart = d.ctl.restart := by
  obtain ⟨_, _, _, _, h⟩ := d.answer_eq rq op key type arg st; rw [h]
@[simp] theorem Device.answer_ctl_restartsBegun (rq : Req) (op key type arg st : Nat) : (d.answer rq op key type arg st).ctl.restartsBegun = d.ctl.restartsBegun := by
  obtain ⟨_, _, _, _, h⟩ := d.answer_eq rq op key type arg st; rw [h]
@[simp] theorem Device.answer_ctl_hbCount (rq : Req) (op key type arg st : Nat) : (d.answer rq op key type arg st).ctl.hbCount = d.ctl.hbCount := by
  obtain ⟨_, _, _, _, h⟩ := d.answer_eq rq op key type arg st; rw [h]
@[simp] theorem Device.answer_ctl_auth (rq : Req) (op key type arg st : Nat) : (d.answer rq op key type arg st).ctl.auth = d.ctl.auth := by
  obtain ⟨_, _, _, _, h⟩ := d.answer_eq rq op key type arg st; rw [h]
@[simp] theorem Device.answer_ctl_transfers (rq : Req) (op key type arg st : Nat) : (d.answer rq op key type arg st).ctl.transfers = d.ctl.transfers := by
  obtain ⟨_, _, _, _, h⟩ := d.answer_eq rq op key type arg st; rw [h]
@[simp] theorem Device.answer_ctl_posted (rq : Req) (op key type arg st : Nat) : (d.answer rq op key type arg st).ctl.posted = d.ctl.posted := by
  obtain ⟨_, _, _, _, h⟩ := d.answer_eq rq op key type arg st; rw [h]
@[simp] theorem Device.answer_ctl_nodeId (rq : Req) (op key type arg st : Nat) : (d.answer rq op key type arg st).ctl.nodeId = d.ctl.nodeId := by
  obtain ⟨_, _, _, _, h⟩ := d.answer_eq rq op key type arg st; rw [h]
@[simp] theorem Device.answer_ctl_feedId (rq : Req) (op key type arg st : Nat) : (d.answer rq op key type arg st).ctl.feedId = d.ctl.feedId := by
  obtain ⟨_, _, _, _, h⟩ := d.answer_eq rq op key type arg st; rw [h]
@[simp] theorem Device.get_answer (rq : Req) (op key type arg st : Nat) (k : Nat) : (d.answer rq op key type arg st).get k = d.get k :=
  Device.get_of_dict (by simp) k

/-- Serving a request changes no value but the port's count of requests. -/
@[simp] theorem Device.get_served (rq : Req) {k : Nat} (h0 : k ≠ Obj.mailboxRequests0) (h1 : k ≠ Obj.mailboxRequests1) :
    (d.served rq).get k = d.get k := by
  have hr : ((d.counted rq.path).renewed rq).get k = (d.counted rq.path).get k := by
    obtain ⟨_, h⟩ := (d.counted rq.path).renewed_eq rq; rw [h]; rfl
  rw [Device.served, hr]
  cases rq.path with
  | field src => rfl
  | mailbox p s =>
    show (d.bump (if p = 0 then Obj.mailboxRequests0 else Obj.mailboxRequests1)).get k = d.get k
    split <;> exact Device.get_bump_ne _ (by assumption)

@[simp] theorem Device.served_runState (rq : Req) : (d.served rq).runState = d.runState :=
  Device.get_served d rq (by decide) (by decide)

@[simp] theorem Device.served_armed (rq : Req) : (d.served rq).armed = d.armed := by simp [Device.armed]

/-- A request served keeps its requester's session, its idle time renewed. -/
theorem Device.served_session (rq : Req) :
    (((d.served rq).authOf rq.path).session).isSome = ((d.authOf rq.path).session).isSome := by
  have hc : ∀ p, (d.counted p).authOf rq.path = d.authOf rq.path := by intro p; cases p <;> rfl
  unfold Device.served Device.renewed
  simp only [hc]
  split
  · next h => simp only [Bool.and_eq_true] at h; simp [Device.authOf, Device.setAuth]; simpa [Device.authOf] using h.2
  · rw [hc]

@[simp] theorem Device.served_roleOf (rq : Req) : (d.served rq).roleOf rq = d.roleOf rq := by
  unfold Device.roleOf; rw [Device.served_session]

/-- Serving a request changes no check of it. -/
@[simp] theorem Device.served_checkWrite (rq : Req) (i s t len v : Nat) :
    (d.served rq).checkWrite rq i s t len v = d.checkWrite rq i s t len v := by
  unfold Device.checkWrite Device.mayWrite
  simp only [Device.served_roleOf, Device.served_sec, Device.served_armed,
    Device.get_served d rq (show Obj.conductorToken ≠ Obj.mailboxRequests0 by decide)
      (show Obj.conductorToken ≠ Obj.mailboxRequests1 by decide)]

@[simp] theorem Device.served_checkRead (rq : Req) (seg : Bool) (i s t : Nat) :
    (d.served rq).checkRead rq seg i s t = d.checkRead rq seg i s t := by
  unfold Device.checkRead Device.mayRead
  simp only [Device.served_roleOf]

@[simp] theorem Device.served_checkSegment (rq : Req) (i s t : Nat) :
    (d.served rq).checkSegment rq i s t = d.checkSegment rq i s t := by
  unfold Device.checkSegment Device.mayWrite
  simp only [Device.served_roleOf, Device.served_sec,
    Device.get_served d rq (show Obj.conductorToken ≠ Obj.mailboxRequests0 by decide)
      (show Obj.conductorToken ≠ Obj.mailboxRequests1 by decide)]

@[simp] theorem Device.served_checkAbort (rq : Req) (i s t : Nat) :
    (d.served rq).checkAbort rq i s t = d.checkAbort rq i s t := by
  unfold Device.checkAbort
  simp only [Device.served_roleOf]

/-! ### Writes -/

/-- A write of a command object that passes orders 1 to 8 of R348: the effect's status is answered on the device the effect
leaves. -/
theorem Device.command_eq {d : Device} {rq : Req} {key v : Nat} {row : ObjRow} (eff : Effect)
    (hs : d.ctl.serving = true) (hrow : rowOfKey key = some row) (hlen : row.len ≤ 1024) (hv : v < 256 ^ row.len)
    (hc : d.checkWrite rq (key / 256) (key % 256) row.ty row.len v = .ok row) (hr : row.range.accepts v = true) :
    d.command rq key v eff =
      (eff (d.served rq) rq v).2.answer rq Op.write key row.ty v (eff (d.served rq) rq v).1 := by
  have h1 : ¬ (portOf rq = none ∧ 1024 < row.len) := fun h => by omega
  simp only [Device.command, hrow, Device.dictWrite, hs, leBytes_length, h1, leNat_leBytes _ _ hv, Device.served_checkWrite,
    if_false, hc, Device.writeValue, hr, if_true, Bool.not_true, Bool.false_eq_true]

/-- A write of a command object refused by orders 1 to 7. -/
theorem Device.command_refused {d : Device} {rq : Req} {key v st : Nat} {row : ObjRow} (eff : Effect)
    (hs : d.ctl.serving = true) (hrow : rowOfKey key = some row) (hlen : row.len ≤ 1024) (hv : v < 256 ^ row.len)
    (hc : d.checkWrite rq (key / 256) (key % 256) row.ty row.len v = .error st) :
    d.command rq key v eff = ((d.served rq).refuse rq key st).answer rq Op.write key row.ty v st := by
  have h1 : ¬ (portOf rq = none ∧ 1024 < row.len) := fun h => by omega
  simp only [Device.command, hrow, Device.dictWrite, hs, leBytes_length, h1, leNat_leBytes _ _ hv, Device.served_checkWrite,
    if_false, hc, Bool.not_true, Bool.false_eq_true]

/-- A write of a command object out of range (order 8). -/
theorem Device.command_range {d : Device} {rq : Req} {key v : Nat} {row : ObjRow} (eff : Effect)
    (hs : d.ctl.serving = true) (hrow : rowOfKey key = some row) (hlen : row.len ≤ 1024) (hv : v < 256 ^ row.len)
    (hc : d.checkWrite rq (key / 256) (key % 256) row.ty row.len v = .ok row) (hr : row.range.accepts v = false) :
    d.command rq key v eff = (d.served rq).answer rq Op.write key row.ty v St.range := by
  have h1 : ¬ (portOf rq = none ∧ 1024 < row.len) := fun h => by omega
  simp only [Device.command, hrow, Device.dictWrite, hs, leBytes_length, h1, leNat_leBytes _ _ hv, Device.served_checkWrite,
    if_false, hc, Device.writeValue, hr, Bool.not_true, Bool.false_eq_true]

/-- While the management pair does not serve, a write does nothing but what `notServing` says. -/
theorem Device.command_notServing {d : Device} {rq : Req} {key v : Nat} {row : ObjRow} (eff : Effect)
    (hs : d.ctl.serving = false) (hrow : rowOfKey key = some row) :
    d.command rq key v eff = d.notServing rq Op.write key row.ty := by
  simp only [Device.command, hrow, Device.dictWrite, hs, Bool.not_false, if_true]

end Sys2Proof.Machine
end

