-- ==== Sys2Proof/Laws/Steps.lean ====
section
/-!
SUPPORT. The outcome of a command: every meaning is a change of the device and leaves the queue alone, and only a request
that breaks R353 stops.
-/
namespace Sys2Proof.Machine

@[simp] theorem onDev_eq (s : State) (f : Device → Device) : onDev s f = .next { s with dev := f s.dev } := rfl

/-- A request's command whose TRANSACTION does not wait. -/
@[simp] theorem onReq_next {s : State} {rq : Req} (f : Device → Device) (h : s.dev.reused rq = false) :
    onReq s rq f = .next { s with dev := f s.dev } := by simp [onReq, h]

/-- A request's command whose TRANSACTION waits. -/
@[simp] theorem onReq_fault {s : State} {rq : Req} (f : Device → Device) (h : s.dev.reused rq = true) :
    onReq s rq f = .fault .obligationBroken := by simp [onReq, h]

/-- What `exec` does, whatever the command. -/
theorem exec_cases (c : Instr) (s : State) :
    (keepsR353 s.dev c = true ∧ ∃ d, exec c s = .next { s with dev := d }) ∨
    (keepsR353 s.dev c = false ∧ exec c s = .fault .obligationBroken) := by
  cases c
  case write target value =>
    cases target
    case dict rq index sub type =>
      cases h : s.dev.reused rq
      · exact .inl ⟨by simp [keepsR353, requestOf, h], _, by simp only [exec, execWrite, onReq, h]; rfl⟩
      · exact .inr ⟨by simp [keepsR353, requestOf, h], by simp only [exec, execWrite, onReq, h]; rfl⟩
    case bar0 port offset => exact .inl ⟨rfl, _, rfl⟩
  case mailboxRequestService =>
    cases hn : s.dev.nextPosted with
    | none => exact .inl ⟨by simp [keepsR353, requestOf, hn], s.dev, by simp [exec, execMailboxRequestService, hn]⟩
    | some k =>
      cases h : s.dev.reused (slotReq (k / 8) (k % 8) (s.dev.slot (k / 8) (k % 8)))
      · exact .inl ⟨by simp [keepsR353, requestOf, hn, h], _, by simp only [exec, execMailboxRequestService, hn, onReq, h]; rfl⟩
      · exact .inr ⟨by simp [keepsR353, requestOf, hn, h], by simp only [exec, execMailboxRequestService, hn, onReq, h]; rfl⟩
  case fieldPduFrame src broadcast frame =>
    cases hf : frameIs frame with
    | bad => exact .inl ⟨by simp [keepsR353, requestOf, hf], _, by simp only [exec, execFieldPduFrame, hf]; rfl⟩
    | heartbeat n => exact .inl ⟨by simp [keepsR353, requestOf, hf], _, by simp only [exec, execFieldPduFrame, hf]; rfl⟩
    | notice => exact .inl ⟨by simp [keepsR353, requestOf, hf], _, by simp only [exec, execFieldPduFrame, hf]; rfl⟩
    | pdu h value =>
      cases hk : s.dev.keptFor src h with
      | some k => exact .inl ⟨by simp [keepsR353, requestOf, hf, hk], _, by simp only [exec, execFieldPduFrame, hf, hk]; rfl⟩
      | none =>
        cases hr : s.dev.reused (frameReq src h)
        · exact .inl ⟨by simp [keepsR353, requestOf, hf, hk, hr], _, by
            simp only [exec, execFieldPduFrame, hf, hk, onReq, hr]; rfl⟩
        · exact .inr ⟨by simp [keepsR353, requestOf, hf, hk, hr], by
            simp only [exec, execFieldPduFrame, hf, hk, onReq, hr]; rfl⟩
  all_goals first
    | exact .inl ⟨rfl, _, rfl⟩
    | (rename_i rq
       cases h : s.dev.reused rq
       · exact .inl ⟨by simp [keepsR353, requestOf, h], _, onReq_next _ h⟩
       · exact .inr ⟨by simp [keepsR353, requestOf, h], onReq_fault _ h⟩)
    | (rename_i rq _
       cases h : s.dev.reused rq
       · exact .inl ⟨by simp [keepsR353, requestOf, h], _, onReq_next _ h⟩
       · exact .inr ⟨by simp [keepsR353, requestOf, h], onReq_fault _ h⟩)
    | (rename_i rq _ _
       cases h : s.dev.reused rq
       · exact .inl ⟨by simp [keepsR353, requestOf, h], _, onReq_next _ h⟩
       · exact .inr ⟨by simp [keepsR353, requestOf, h], onReq_fault _ h⟩)
    | (rename_i rq _ _ _
       cases h : s.dev.reused rq
       · exact .inl ⟨by simp [keepsR353, requestOf, h], _, onReq_next _ h⟩
       · exact .inr ⟨by simp [keepsR353, requestOf, h], onReq_fault _ h⟩)
    | (rename_i rq _ _ _ _
       cases h : s.dev.reused rq
       · exact .inl ⟨by simp [keepsR353, requestOf, h], _, onReq_next _ h⟩
       · exact .inr ⟨by simp [keepsR353, requestOf, h], onReq_fault _ h⟩)
    | (rename_i rq _ _ _ _ _ _
       cases h : s.dev.reused rq
       · exact .inl ⟨by simp [keepsR353, requestOf, h], _, onReq_next _ h⟩
       · exact .inr ⟨by simp [keepsR353, requestOf, h], onReq_fault _ h⟩)

/-- No command changes the queue: where it goes on, the commands that wait are those that waited. -/
theorem exec_pending {c : Instr} {s t : State} (h : exec c s = .next t) : t.pending = s.pending := by
  rcases exec_cases c s with ⟨_, d, he⟩ | ⟨_, he⟩
  · rw [he] at h; injection h with h; rw [← h]
  · rw [he] at h; cases h

/-- A step on a queue that holds a command. -/
@[simp] theorem step_cons (s : State) (c : Instr) (q : List Instr) :
    step { s with pending := c :: q } = exec c { s with pending := q } := rfl

/-- A step on an empty queue. -/
@[simp] theorem step_nil (s : State) : step { s with pending := [] } = .next { dev := s.dev.idle, pending := [] } := rfl

end Sys2Proof.Machine
end

