-- ==== Sys2Proof/Laws/Requests.lean ====
section
/-!
SUPPORT. What an accepted command comes to, and what an answer leaves, in the words of `Safety.lean`.
-/
namespace Sys2Proof.Machine

variable (d : Device)

/-- What `accepts` says. -/
theorem accepts_iff {d : Device} {rq : Req} {key v : Nat} : accepts d rq key v = true ↔
    d.ctl.serving = true ∧ d.reused rq = false ∧ ∃ row, rowOfKey key = some row ∧ row.len ≤ 1024 ∧ v < 256 ^ row.len ∧
      row.range.accepts v = true ∧ d.checkWrite rq (key / 256) (key % 256) row.ty row.len v = .ok row := by
  unfold accepts
  cases rowOfKey key with
  | none => simp
  | some row =>
    simp only [Bool.and_eq_true, Bool.not_eq_true', decide_eq_true_eq, Option.some.injEq, exists_eq_left', and_assoc]
    cases d.checkWrite rq (key / 256) (key % 256) row.ty row.len v with
    | error e => simp
    | ok r => simp

/-- An answer leaves the request answered. -/
theorem Device.respond_answered (rq : Req) (op key type : Nat) (a : Answer) :
    Answered (d.respond rq op key type a) rq op key type a := by
  unfold Answered Device.respond
  cases rq.path with
  | mailbox p s =>
    simp only [Device.answerSlot, Device.slot, Device.msix, Device.emit, Device.setSlot, Device.onCtl, tgetD_tset_same]
    exact ⟨trivial, trivial, rfl⟩
  | field src =>
    refine ⟨⟨d.micros, ?_⟩, ⟨_, rfl⟩⟩
    simp [Device.sendFrame, Device.emit, Device.onCtl, keepResponse]

theorem Device.answer_answered (rq : Req) (op key type arg st : Nat) :
    Answered (d.answer rq op key type arg st) rq op key type (writeAnswer op key st) := by
  unfold Device.answer; exact Device.respond_answered _ _ _ _ _ _

/-- The answer to a WRITE is its status alone. -/
theorem writeAnswer_write (key st : Nat) : writeAnswer Op.write key st = { status := st } := by
  simp [writeAnswer, Op.write, Op.segWriteNext]

/-- A request that did not wait is still one that does not wait while it is served. -/
theorem Device.reused_served (rq : Req) : (d.served rq).reused rq = d.reused rq := by simp [Device.reused]

/-- An accepted command runs its effect on the device that has served it and answers with its status. -/
theorem Device.command_accepted {d : Device} {rq : Req} {key v : Nat} (eff : Effect) (h : accepts d rq key v = true) :
    d.command rq key v eff =
      (eff (d.served rq) rq v).2.answer rq Op.write key (typeOf key) v (eff (d.served rq) rq v).1 := by
  obtain ⟨hs, _, row, hrow, hlen, hv, hr, hc⟩ := accepts_iff.mp h
  rw [Device.command_eq eff hs hrow hlen hv hc hr, typeOf, hrow]

theorem accepts_reused {d : Device} {rq : Req} {key v : Nat} (h : accepts d rq key v = true) : d.reused rq = false :=
  (accepts_iff.mp h).2.1

theorem accepts_serving {d : Device} {rq : Req} {key v : Nat} (h : accepts d rq key v = true) : d.ctl.serving = true :=
  (accepts_iff.mp h).1

theorem accepts_row {d : Device} {rq : Req} {key v : Nat} (h : accepts d rq key v = true) : ∃ row, rowOfKey key = some row := by
  obtain ⟨_, _, row, hrow, _⟩ := accepts_iff.mp h; exact ⟨row, hrow⟩

/-- An accepted command is answered with its effect's status. -/
theorem Device.command_answered {d : Device} {rq : Req} {key v : Nat} (eff : Effect) (h : accepts d rq key v = true) :
    AnsweredWrite (d.command rq key v eff) rq key (eff (d.served rq) rq v).1 := by
  rw [Device.command_accepted eff h]
  have := Device.answer_answered (eff (d.served rq) rq v).2 rq Op.write key (typeOf key) v (eff (d.served rq) rq v).1
  rwa [writeAnswer_write] at this

/-- The value of an object after an accepted command is what the effect gave it. -/
theorem Device.get_command {d : Device} {rq : Req} {key v : Nat} (eff : Effect) (h : accepts d rq key v = true) (k : Nat) :
    (d.command rq key v eff).get k = (eff (d.served rq) rq v).2.get k := by
  rw [Device.command_accepted eff h, Device.get_answer]

/-! ### Stored objects -/

theorem plainObject_effect {key : Nat} (h : plainObject key = true) : effectOf key = storedEffect key := by
  unfold plainObject at h
  simp only [Bool.and_eq_true, List.all_eq_true, Bool.not_eq_true', bne_iff_ne, ne_eq] at h
  obtain ⟨⟨h1, h2⟩, h3⟩ := h
  have hn : commandEffects.find? (fun p => p.1 == key) = none := by
    rw [List.find?_eq_none]; intro p hp; simpa using h1 p hp
  simp only [Bool.and_eq_false_iff, decide_eq_false_iff_not] at h2 h3
  unfold effectOf
  rw [hn]
  simp only []
  split
  · omega
  · split
    · omega
    · rfl

theorem plainObject_follows {key : Nat} (h : plainObject key = true) (d b : Device) (rq : Req) (v : Nat) :
    d.writeFollows b rq key v = d := by
  unfold plainObject at h
  simp only [Bool.and_eq_true, List.all_eq_true, Bool.not_eq_true', bne_iff_ne, ne_eq] at h
  obtain ⟨⟨h1, _⟩, _⟩ := h
  have e1 : key ≠ Obj.runControl := fun e => h1 (Obj.runControl, runControlEffect) (by simp [commandEffects]) e.symm
  have e2 : key ≠ Obj.liveUpdate := fun e => h1 (Obj.liveUpdate, liveUpdateEffect) (by simp [commandEffects]) e.symm
  have e3 : key ≠ Obj.fwUpdate := fun e => h1 (Obj.fwUpdate, pendingEffect) (by simp [commandEffects]) e.symm
  have e4 : key ≠ Obj.tvRun := fun e => h1 (Obj.tvRun, pendingEffect) (by simp [commandEffects]) e.symm
  have e5 : key ≠ Obj.powerRequest := fun e => h1 (Obj.powerRequest, powerEffect) (by simp [commandEffects]) e.symm
  simp [Device.writeFollows, e1, e2, e3, e4, e5]

/-- A WRITE of a stored object is the command form of the same write. -/
theorem plainObject_write {key : Nat} {row : ObjRow} (h : plainObject key = true) (hrow : rowOfKey key = some row)
    (d : Device) (rq : Req) (v : Nat) :
    d.writeRequest rq (key / 256) (key % 256) row.ty (leBytes row.len v) = d.command rq key v (storedEffect key) := by
  have hkey : key / 256 * 256 + key % 256 = key := by omega
  unfold Device.writeRequest Device.command
  simp only [hkey, hrow, plainObject_effect h, plainObject_follows h]

/-- No fused object passes the access check of a write (R343, R344). -/
theorem checkWrite_not_fused {d : Device} {rq : Req} {i s t len v : Nat} {row : ObjRow}
    (h : d.checkWrite rq i s t len v = .ok row) : row.access ≠ .ro ∧ row.access ≠ .const := by
  unfold Device.checkWrite at h
  split at h
  · cases h
  · split at h
    · cases h
    · split at h
      · cases h
      · next ha =>
        split at h
        · cases h
        · split at h
          · cases h
          · split at h
            · cases h
            · cases h; exact ⟨fun e => ha (.inl e), fun e => ha (.inr e)⟩

end Sys2Proof.Machine
end

