-- ==== Sys2Proof/Laws/Risk.lean ====
section
/-!
SUPPORT. What the risk level's update changes: two values, its own sources, and the event it raises.
-/
namespace Sys2Proof.Machine

variable (d : Device)

/-- What an event that goes out as a NOTICE too changes. -/
theorem Device.raiseNotice_eq (c : Nat) (as : List (Nat × Nat)) : ∃ l e o n,
    d.raiseNotice c as = { d with ctl := { d.ctl with dict := countedEvent d l }, evqs := e, out := o, free := n } := by
  obtain ⟨l, e, o, n, h⟩ := d.raiseRec_eq c (eventRecord c 6 d.mono as false) none
  have hr : d.raise c as = { d with ctl := { d.ctl with dict := countedEvent d l }, evqs := e, out := o, free := n } := h
  unfold Device.raiseNotice
  rw [hr]
  exact ⟨l, e, _, n, rfl⟩

@[simp] theorem Device.get_raiseNotice (c : Nat) (as : List (Nat × Nat)) {k : Nat} (h1 : k ≠ Obj.eventsRaised)
    (h2 : k ≠ Obj.eventsUndelivered) : (d.raiseNotice c as).get k = d.get k := by
  unfold Device.raiseNotice
  show (d.raise c as).get k = _
  exact Device.get_raise d c as h1 h2

theorem Device.get_riskUpdate {k : Nat} (h1 : k ≠ Obj.eventsRaised) (h2 : k ≠ Obj.eventsUndelivered)
    (h3 : k ≠ Obj.riskPoints) (h4 : k ≠ Obj.riskLevel) : d.riskUpdate.get k = d.get k := by
  unfold Device.riskUpdate
  simp only []
  split
  · simp [h3, h4]
  · rw [Device.get_raiseNotice _ _ _ h1 h2]; simp [h3, h4]

/-- What the update of the risk level changes. -/
theorem Device.riskUpdate_eq : ∃ di e o n,
    d.riskUpdate = { d with ctl := { d.ctl with dict := di }, evqs := e, out := o, free := n } := by
  unfold Device.riskUpdate
  simp only []
  split
  · exact ⟨_, d.evqs, d.out, d.free, rfl⟩
  · obtain ⟨l, e, o, n, h⟩ := Device.raiseNotice_eq ((d.put Obj.riskPoints _).put Obj.riskLevel _) 0x0B09 _
    exact ⟨_, e, o, n, h⟩

theorem Device.get_riskSource (s p : Nat) {k : Nat} (h1 : k ≠ Obj.eventsRaised) (h2 : k ≠ Obj.eventsUndelivered)
    (h3 : k ≠ Obj.riskPoints) (h4 : k ≠ Obj.riskLevel) : (d.riskSource s p).get k = d.get k := by
  unfold Device.riskSource
  rw [Device.get_riskUpdate _ h1 h2 h3 h4]; rfl

/-- What a change of a risk source changes. -/
theorem Device.riskSource_eq (s p : Nat) : ∃ di e o n r,
    d.riskSource s p = { d with ctl := { d.ctl with dict := di }, evqs := e, out := o, free := n, risk := r } := by
  unfold Device.riskSource
  obtain ⟨di, e, o, n, h⟩ := Device.riskUpdate_eq (d.onRisk (fun r => { r with
    now := tset r.now s p, held := tset r.held s (if hasHold s then max p (tgetD r.held s 0) else p) }))
  exact ⟨di, e, o, n, _, h⟩

end Sys2Proof.Machine
end

