-- ==== Sys2Proof/Machine/Pins.lean ====
section
/-!
DEFINITION. The pins (R407, R423, R451, R497, R498, R502): what each group of signal pins does, read off the state. No command needs
them; they say what the board sees.
-/
namespace Sys2Proof.Machine

/-- What a pin or a group of pins does. -/
inductive Pin where
  /-- Driven by its interface, or an input in use. -/
  | active
  /-- Driven, and electrically idle. -/
  | idle
  | low
  | high
  /-- An output left floating, or at high impedance. -/
  | float
  /-- An input that is not looked at. -/
  | ignored
  | terminated
  | unterminated
  | unpowered
  /-- A pulse-width output at a duty in per mille. -/
  | duty (perMille : Nat)
deriving DecidableEq, Repr

/-- The column of R498: the power state, and 4 while POR_N holds the outputs as in P4 (R496). -/
def Device.pinColumn (d : Device) : Nat := if d.boot.porHigh then d.powerState else 4

/-- The serial rails are good: without them the outputs of their domain float (R423). -/
def Device.serialPower (d : Device) : Bool := d.boot.porHigh && bit d.pwr.pwrGood 0 && bit d.pwr.pwrGood 1

/-- The states in which a link's transmitters are not idle. -/
def LinkState.transmits : LinkState → Bool
  | .training => true
  | .trained => true
  | .up => true
  | .spare => true
  | .retraining => true
  | _ => false

/-- LNKn_TX: idle in P2 and in a clock hold (R407). -/
def Device.linkTx (d : Device) (l : Nat) : Pin :=
  if !d.serialPower ∨ d.pinColumn = 3 then .float
  else if d.pwr.hold ∨ d.pinColumn = 2 ∨ !(d.link l).state.transmits then .idle
  else .active

/-- LNKn_RX. -/
def Device.linkRx (d : Device) : Pin :=
  match d.pinColumn with
  | 4 => .unpowered
  | 3 => .unterminated
  | _ => .terminated

/-- PCIE_TXp, by the state of the port's link. -/
def Device.pcieTx (d : Device) (p : Nat) : Pin :=
  if !d.serialPower ∨ d.pinColumn = 3 then .float
  else if (d.port p).linkUp ∨ (d.port p).training then .active else .idle

/-- PCIE_RXp. -/
def Device.pcieRx (d : Device) (p : Nat) : Pin :=
  match d.pinColumn with
  | 4 => .unpowered
  | 3 => .unterminated
  | _ => if (d.port p).linkUp ∨ (d.port p).training then .terminated else .unterminated

/-- DQ, DQS, DCA, CK and PAR of a DDR-5 channel. -/
def Device.ddrBus (d : Device) : Pin := if 3 ≤ d.pinColumn then .float else if d.pwr.ddrSelf then .idle else .active

/-- CS_N: held low while the channels are in self-refresh. -/
def Device.ddrCsN (d : Device) : Pin := if d.pinColumn = 4 then .float else if d.pwr.ddrSelf then .low else .active

/-- RESET_N: high through P3 and a clock hold. -/
def Device.ddrResetN (d : Device) : Pin := if d.pinColumn = 4 then .float else .high

/-- An input that is used in P0 to P2, ignored in P3: DDR_ALERT_N, PCIE_REFCLKp and LINK_REFCLK. -/
def Device.sleepingInput (d : Device) : Pin :=
  match d.pinColumn with
  | 4 => .unpowered
  | 3 => .ignored
  | _ => .active

/-- The SPD sideband bus. -/
def Device.ddrSideband (d : Device) : Pin :=
  match d.pinColumn with
  | 4 => .float
  | 3 => .float
  | 2 => .idle
  | _ => .active

/-- The field network's pair: nothing is sent in the boot-failure state (R451). -/
def Device.fieldPair (d : Device) : Pin := if d.pinColumn = 4 then .float else if d.sec.bootFailed then .idle else .active

/-- The SPI NOR pins: at high impedance in the boot-failure state (R451), else CS_N high outside the reads of the boot and FW_UPDATE. -/
def Device.spiPins (d : Device) : Pin :=
  if d.pinColumn = 4 ∨ d.sec.bootFailed then .float
  else if !d.boot.slotChecked ∨ d.sec.fwUpdate.isSome then .active else .idle

/-- PMBus. -/
def Device.pmbusPins (d : Device) : Pin := if d.pinColumn = 4 then .float else .active

/-- AVS_CLK and AVS_MDATA. -/
def Device.avsPins (d : Device) : Pin :=
  match d.pinColumn with
  | 4 => .float
  | 3 => .low
  | _ => .active

/-- PWR_EN n: low while POR_N is low (R496). -/
def Device.pwrEnPin (d : Device) (n : Nat) : Pin := if d.boot.porHigh && bit d.pwr.pwrEn n then .high else .low

/-- An input used in P0 to P3: PWR_GOOD, POR_N, WAKE_REQ_N, PERST_Np, FLOW_IN, the thermistors. -/
def Device.wakingInput (d : Device) : Pin := if d.pinColumn = 4 then .unpowered else .active

/-- NODE_ID and FEED_ID: latched at reset and at no other time (R499). -/
def Device.strapPins (d : Device) : Pin := if d.pinColumn = 4 then .unpowered else .ignored

/-- ALERT_N, an open drain (R423, R502). -/
def Device.alertPin (d : Device) : Pin := if d.pinColumn = 4 then .float else if d.alertLow then .low else .float

/-- VALVE_PWM: held high, the valve fully open, in a clock hold (R407); else the duty of R433. -/
def Device.valvePin (d : Device) : Pin :=
  if d.pinColumn = 4 then .float else if d.pwr.hold then .high else .duty (d.get Obj.valveDuty)

/-- TDO and the debug inputs: of use only while DEBUG_STATE reads OPEN. -/
def Device.debugPins (d : Device) : Pin :=
  if d.pinColumn = 4 then .unpowered else if d.get Obj.debugState = 1 then .active else .ignored
def Device.tdoPin (d : Device) : Pin := if d.pinColumn ≠ 4 ∧ d.get Obj.debugState = 1 then .active else .float

/-- The sense pairs. -/
def Device.sensePins (d : Device) : Pin := if d.pinColumn = 4 then .float else .active

end Sys2Proof.Machine
end

