-- ==== Sys2Proof/Tests/Slice0.lean ====
section
/-!
SUPPORT. The model's own tests: an ill-formed command for each check of `Instr.wf`, and for every statement with hypotheses
a small state and operands that meet them.
-/
namespace Sys2Proof.Machine
set_option Elab.async false

/-! ### Ill-formed commands are refused -/

theorem test_wf_port : Instr.wf (.bar2Read 2 0 0 4) = false := by decide
theorem test_wf_slot : Instr.wf (.doorbell 0 8 1) = false := by decide
theorem test_wf_link : Instr.wf (.flitSlot 96) = false := by decide
theorem test_wf_die : Instr.wf (.dvfsLevelChange 4) = false := by decide
theorem test_wf_lapidary : Instr.wf (.layerUpdate ⟨2, []⟩) = false := by decide
theorem test_wf_path : Instr.wf (.segTransferTimeout (.field (2 ^ 48))) = false := by decide
theorem test_wf_trans : Instr.wf (.authChallenge ⟨.mailbox 0 0, false, 65536⟩) = false := by decide
theorem test_wf_address : Instr.wf (.readStaged ⟨.mailbox 0 0, false, 1⟩ 0x4000 256 2) = false := by decide
theorem test_wf_bar0 : Instr.wf (.write (.bar0 0 (2 ^ 24)) []) = false := by decide
theorem test_wf_value : Instr.wf (.stageHold ⟨.mailbox 0 0, false, 1⟩ 256) = false := by decide
theorem test_wf_dma : Instr.wf (.nop 0 64) = false := by decide
theorem test_wf_window : Instr.wf (.evqPop 1 128) = false := by decide
theorem test_wf_aperture : Instr.wf (.bar2Read 0 64 0 4) = false := by decide
theorem test_wf_message : Instr.wf (.result ⟨1024, 0, 0, 0, 0, 0, 0, false, []⟩) = false := by decide
theorem test_wf_channel : Instr.wf (.channelUeLimit 24) = false := by decide
theorem test_wf_cluster : Instr.wf (.clusterFault 0 17 0) = false := by decide
theorem test_wf_stream : Instr.wf (.servingSampleAdmission 32768) = false := by decide
theorem test_wf_flit : Instr.wf (.flitReceive 0 []) = false := by decide
theorem test_wf_accepts : Instr.wf (.stageHold ⟨.mailbox 0 0, false, 1⟩ 1) = true := by decide

/-! ### Small states -/

/-- A device whose management pair serves, the conductor token with port 0, its event queues disabled (so that a test meets
no free value). -/
def dv : Device := { ctl := { serving := true, dict := [(Obj.conductorToken, 0)] }, evqs := [] }

/-- The same with objects of the dictionary at other values. -/
def dvWith (vs : List (Nat × Nat)) : Device :=
  { dv with ctl := { dv.ctl with dict := vs.foldl (fun t p => tset t p.1 p.2) dv.ctl.dict } }

/-- A state of a device. -/
def st (d : Device) : State := { dev := d }

/-- An OPERATOR of port 0, and the FACILITY on the field network. -/
def op0 : Req := ⟨.mailbox 0 0, false, 1⟩
def fac : Req := ⟨.field 5, false, 1⟩

/-- The row of a key that has one. -/
def rowAt (key : Nat) : ObjRow := (rowOfKey key).getD ⟨0, 0, 0, 0, 0, .ro, .live, 0, .any⟩

/-- The row a check accepts, and the status it refuses with. -/
def okRow (x : Except Nat ObjRow) : Option ObjRow := x.toOption
def refusal : Except Nat ObjRow → Option Nat
  | .error st => some st
  | .ok _ => none

/-- The device with an object of a KIND in a tier. -/
def withObject (d : Device) (h : Nat) (e : DirEntry) : Device := { d with ms := { d.ms with dir := tset d.ms.dir h e } }

/-- A settled object of the fast tier, of one block. -/
def fastObject (kind : Nat) : DirEntry := { tier := 2, kind := kind, size := 1 }

/-- A ring object: its header at R385's fields. -/
def ringHead (kind n prod cons : Nat) : Bytes :=
  leBytes 64 (fld 0x474E5251 0 + fld kind 32 + fld n 40 + fld 0xFFFF 96 + fld prod 128 + fld cons 192)

/-- A ring put into a fast-tier object of its own. -/
def putRing (d : Device) (h kind prod cons : Nat) : Device :=
  (withObject d h (fastObject 0)).writeBytes h 0 (ringHead kind 4 prod cons)

/-- What a command leaves of the device; the device itself where it does not complete. -/
def after (c : Instr) (d : Device) : Device :=
  match exec c (st d) with
  | .next t => t.dev
  | _ => d

/-! ### Witnesses: the control surface -/

/-- A stored object of a class that passes R348 and its own check. -/
def plainWitness (d : Device) (rq : Req) (key v : Nat) (cls : UpdateClass) : Bool :=
  accepts d rq key v && plainObject key && objectCheck key (d.served rq) rq v == St.ok && (rowAt key).cls == cls &&
    rowOfKey key == some (rowAt key)

theorem witness_WriteActsByUpdateClass_live : plainWitness dv op0 0x300200 7 .live = true := by decide +kernel
theorem witness_WriteActsByUpdateClass_armed : plainWitness dv op0 0x800003 20 .armed = true ∧ dv.armed = false := by
  decide +kernel
theorem witness_WriteActsByUpdateClass_take : plainWitness (dvWith [(Obj.runState, 2)]) op0 0x508001 255 .take = true ∧
    (dvWith [(Obj.runState, 2)]).armed = true ∧ plainWitness dv op0 0x508001 1 .take = true := by decide +kernel
theorem witness_WriteActsByUpdateClass_boot : plainWitness dv op0 0x801007 100 .boot = true := by decide +kernel

theorem witness_ArmedObjectIsFrozen :
    let d := dvWith [(Obj.runState, 1)]
    let row := rowAt 0x800003
    d.ctl.serving = true ∧ d.reused op0 = false ∧ rowOfKey 0x800003 = some row ∧ row.len ≤ 1024 ∧ 20 < 256 ^ row.len ∧
      row.cls = .armed ∧ d.armed = true ∧ refusal (d.checkWrite op0 0x8000 3 row.ty row.len 20) = some St.frozen := by
  decide +kernel

/-- A command answers the request of `op0` with a status, and stages and stores nothing. -/
def answers (c : Instr) (d : Device) (op key type st : Nat) : Bool :=
  let e := after c d
  (e.slot 0 0).response == responsePdu op0 op key type { status := st } &&
    e.ctl.staged == d.ctl.staged && e.ms == d.ms

theorem witness_RequestsAreCheckedInOrder_write :
    indexKnown 0xF000 = false ∧ answers (.write (.dict op0 0xF000 0 5) [1]) dv Op.write 0xF00000 5 St.noObject = true ∧
    (indexKnown 0x4000 = true ∧ rowOf 0x4000 255 = none) ∧
    answers (.write (.dict op0 0x4000 255 5) [1]) dv Op.write 0x4000FF 5 St.noSub = true ∧
    answers (.write (.dict op0 0x4000 255 15) [1]) dv Op.write 0x4000FF 15 St.range = true ∧
    (rowOf 0x1000 0).map (·.access) = some .const ∧
    answers (.write (.dict op0 0x1000 0 5) [1]) dv Op.write 0x100000 5 St.role = true := by decide +kernel

theorem witness_RequestsAreCheckedInOrder_value :
    dv.mayWrite fac (rowAt Obj.runControl) Obj.runControl 1 = false ∧
    dv.mayWrite op0 (rowAt 0x300200) 0x300200 1 = true ∧ (rowAt 0x300200).access = .rw ∧
    (rowAt 0x300200).ty = Ty.u32 ∧ (rowAt 0x300200).len = 4 ∧
    answers (.write (.dict op0 0x3002 0 Ty.u32) [1]) dv Op.write 0x300200 Ty.u32 St.type = true ∧
    (rowAt 0x800003).range.accepts 0xFFFFFFFF = false ∧
    answers (.readStaged op0 0x4050 1 Ty.u16) dv Op.readStaged 0x405001 Ty.u16 St.role = true ∧
    (rowAt 0x405001).access = .wo ∧ dv.mayRead op0 (rowAt 0x300200) = true := by decide +kernel

theorem witness_ReadsReturnTheValue :
    okRow ((dvWith [(0x300200, 9)]).checkRead op0 false 0x3002 0 Ty.u32) = some (rowAt 0x300200) ∧
    okRow (dv.checkRead fac true 0x3002 0 Ty.u32) = some (rowAt 0x300200) ∧
    ({ dv with ctl := { dv.ctl with transfers := [(requester fac.path, ⟨0x300200, 4, false, [1, 2, 3, 4], 0⟩)] } } : Device).transferOf
      fac.path = some ⟨0x300200, [1, 2, 3, 4].length, false, [1, 2, 3, 4], 0⟩ ∧ 0 < max 1 (ceilDiv 4 1024) := by
  decide +kernel

/-- A FACILITY whose SERVICE session is open, on the field network. -/
def svc5 : Req := ⟨.field 5, true, 1⟩
def dvSvc : Device := { dv with ctl := { dv.ctl with auth := [(2 ^ 48 + 5, { session := some 0 })] } }

/-- The same with a segmented write under way. -/
def dvSeg (key len next : Nat) (data : Bytes) : Device :=
  { dvSvc with ctl := { dvSvc.ctl with transfers := [(2 ^ 48 + 5, ⟨key, len, true, data, next⟩)] } }

theorem witness_ArmedObjectIsFrozen_seg :
    let d : Device := { dvSvc with ctl := { dvSvc.ctl with dict := tset dvSvc.ctl.dict Obj.runState 1 } }
    portOf svc5 = none ∧ d.armed = true ∧ refusal (d.checkWrite svc5 0x8000 3 (rowAt 0x800003).ty 4 0) = some St.frozen ∧
    (after (.segWriteInit svc5 0x8000 3 (rowAt 0x800003).ty 4) d).get Obj.frozenWrites = 1 := by decide +kernel

theorem witness_RequestsAreCheckedInOrder_frame :
    let frame : Bytes := [1, 0, 0, 0] ++ leBytes 16 (fld Op.read 0 + fld 1 16 + fld 0xF000 32 + fld 5 56)
    let h := leNat (slice frame 4 16)
    frameIs frame = .pdu h [] ∧ headerOk h = true ∧ dv.keptFor 5 h = none ∧ dv.ctl.posted = [] ∧ Pdu.op h = Op.read ∧ Pdu.index h = 0xF000 ∧
    (after (.fieldPduFrame 5 false frame) dv).ctl.kept.head?.map (·.pdu) =
      some (responsePdu (frameReq 5 h) Op.read 0xF00000 5 { status := St.noObject }) := by decide +kernel

theorem witness_SegmentedWriteAppliesWhole :
    okRow (dvSvc.checkWrite svc5 0x3002 0 Ty.u32 4 0) = some (rowAt 0x300200) ∧ portOf svc5 = none ∧
    (dvSeg 0x300200 4 0 []).transferOf svc5.path = some ⟨0x300200, 4, true, [], 0⟩ ∧
    (dvSeg 0x300200 2048 0 []).transferOf svc5.path = some ⟨0x300200, 2048, true, [], 0⟩ ∧ 0 + 1024 < 2048 ∧
    (dvSeg 0x300200 2048 0 []).checkSegment svc5 0x3002 0 Ty.u32 = St.ok ∧
    (dvSeg 0x300200 2048 0 []).checkSegment svc5 0x3002 0 (Ty.u32 + 1) = St.type ∧
    ((dvSeg 0x300200 4 0 []).roleOf svc5).isSome = true ∧ rowOf 0x3002 0 = some (rowAt 0x300200) ∧ rowOf 0x4FF 0 = none ∧
    plainObject 0x300200 = true ∧ (rowAt 0x300200).cls = .live ∧
    (rowAt 0x300200).range.accepts (leNat ([] ++ [1, 2, 3, 0])) = true ∧
    objectCheck 0x300200 (((dvSeg 0x300200 4 0 []).served svc5).endTransfer svc5.path) svc5 (leNat ([] ++ [1, 2, 3, 0])) =
      St.ok := by decide +kernel

/-- A requester that holds a challenge. -/
def dvChallenge : Device := { dv with ctl := { dv.ctl with auth := [(0, { challenge := some (List.replicate 32 7) })] } }

theorem witness_ServiceSessionOpensAndEnds_bad :
    let v : Bytes := List.replicate 66 0
    v.length = 66 ∧ (dvChallenge.authOf op0.path).challenge = some (List.replicate 32 7) ∧ leAt v 0 2 ≤ 7 ∧
      authLocked dvChallenge.micros (dvChallenge.authOf op0.path).failures = false ∧
      dvChallenge.authVerifies op0.path 0 (List.replicate 32 7) (v.drop 2) = false := by decide +kernel

theorem witness_MailboxServesInDoorbellOrder :
    let posted : Device := { dv with ctl := { dv.ctl with
      slots := [(0, { state := .posted })], posted := [0] } }
    let write : Device := { dv with ctl := { dv.ctl with
      slots := [(0, { state := .posted, request := leBytes 16 (fld Op.write 0 + fld 1 16 + fld 0x4002 32 + fld 1 56 + fld 1 80) })],
      posted := [0] } }
    let long : Device := { dvSvc with ctl := { dvSvc.ctl with
      slots := [(0, { state := .inService, request := leBytes 16 (fld Op.write 0 + fld 1 16 + fld 0x3002 32 + fld Ty.u32 56 + fld 70000 80) })] } }
    (dv.slot 0 0).state = .free ∧ ({} : Device).ctl.serving = false ∧ (posted.slot 0 0).state ≠ .free ∧
      headerOk (posted.slot 0 0).header = false ∧ Pdu.len (posted.slot 0 0).header ≤ requestArea - 16 ∧
      headerOk (write.slot 0 0).header = true ∧ Pdu.op (write.slot 0 0).header = Op.write ∧
      write.reused (slotReq 0 0 (write.slot 0 0)) = false ∧
      (after .mailboxRequestService write).ctl.posted = [] ∧
      headerOk (long.slot 0 0).header = true ∧ requestArea - 16 < Pdu.len (long.slot 0 0).header ∧
      okRow ((long.served (slotReq 0 0 (long.slot 0 0))).checkWrite (slotReq 0 0 (long.slot 0 0)) 0x3002 0 Ty.u32 4 0) =
        some (rowAt 0x300200) ∧
      (({ dv with ctl := { dv.ctl with slots := [(15, { state := .done })] } } : Device).slot 1 7).state = .done := by
  decide +kernel

theorem witness_FieldNetworkFramesAct :
    let kept : Device := { dv with ctl := { dv.ctl with kept := [⟨5, 1, 0x400200, Op.read, 0, [1]⟩] } }
    let frame : Bytes := [1, 0, 0, 0] ++ leBytes 16 (fld Op.read 0 + fld 1 16 + fld 0x4002 32 + fld 1 56)
    frameIs [0] = .bad ∧ frameIs frame = .pdu (leNat (slice frame 4 16)) [] ∧
      (kept.keptFor 5 (leNat (slice frame 4 16))).isSome = true ∧ dv.keptFor 5 (leNat (slice frame 4 16)) = none ∧
      dv.reused (frameReq 5 (leNat (slice frame 4 16))) = false := by decide +kernel

theorem witness_TokenAndHoldFollowTheirWrites_token :
    let free := dvWith [(Obj.conductorToken, 0xFF)]
    let other := dvWith [(Obj.conductorToken, 1)]
    (accepts free op0 Obj.conductorToken 0 = true ∧ accepts free op0 Obj.conductorToken 1 = true ∧
      free.get Obj.conductorToken = 0xFF) ∧
    (accepts dv op0 Obj.conductorToken 0xFF = true ∧ accepts dv op0 Obj.conductorToken 1 = true ∧
      dv.get Obj.conductorToken = 0) ∧
    (accepts other op0 Obj.conductorToken 0 = true ∧ other.get Obj.conductorToken = 1) ∧
    (dv.port (dv.get Obj.conductorToken)).linkUp = false := by decide +kernel

theorem witness_TokenAndHoldFollowTheirWrites_hold : accepts dv op0 Obj.stageHold 1 = true ∧ accepts dv op0 Obj.stageHold 0 = true := by
  decide +kernel

theorem witness_CommandsLeaveOtherPartsAlone_control :
    after (.doorbell 0 0 1) dv ≠ dv ∧ after (.stageHold op0 1) dv ≠ dv := by decide +kernel

theorem witness_StepStatements : (st dv).pending = [] ∧ Instr.wf (.heartbeat) = true ∧ Memory.wf dv.ms.mem = true ∧
    keepsR353 dv (.stageHold op0 1) = true ∧
    keepsR353 { dv with ctl := { dv.ctl with waiting := [⟨op0, Op.write, 0x400000, 2, 1, none⟩] } } (.stageHold op0 1) = false := by
  decide +kernel

/-- The same with a service key whose signature of any message is known: the identity point (RFC 8032). -/
def dvKey : Device := { dvChallenge with sec := { dvChallenge.sec with fuses := { dvChallenge.sec.fuses with serviceKeys := 1 } } }

theorem witness_ServiceSessionOpensAndEnds_ok :
    let v : Bytes := [0, 0, 1] ++ List.replicate 63 0
    v.length = 66 ∧ (dvKey.authOf op0.path).challenge = some (List.replicate 32 7) ∧
      dvKey.authVerifies op0.path (leAt v 0 2) (List.replicate 32 7) (v.drop 2) = true := by decide +kernel

theorem witness_IdleStepPassesOneMicrosecond :
    let d : Device := { dv with boot := { dv.boot with porHigh := true } }
    let moving := withObject d 7 { fastObject 6 with size := 4, move := .demoting, moveDone := 1 }
    let building := withObject d 7 { fastObject 6 with size := 4, move := .rebuilding, moveDone := 3 }
    moving.pwr.hold = false ∧ moving.stages = [] ∧ moving.run.rootCut = false ∧ (moving.port 0).heldAccess = [] ∧
    (moving.port 1).heldAccess = [] ∧ (tkeys moving.ms.dir).Nodup ∧
    (moving.entry 7).map (fun e => decide (e.remaining ≠ 0)) = some true ∧
    (moving.idle.entry 7).map (·.moveDone) = some 2 ∧ (building.idle.entry 7).map (·.moveDone) = some 3 ∧
    dv.boot.porHigh = false := by decide +kernel

theorem witness_MailboxServesInDoorbellOrder_read :
    let d : Device := { dvWith [(0x300200, 9)] with ctl := { (dvWith [(0x300200, 9)]).ctl with
      slots := [(0, { state := .posted, request := leBytes 16 (fld Op.read 0 + fld 1 16 + fld 0x3002 32 + fld Ty.u32 56) })],
      posted := [0] } }
    let h := (d.slot 0 0).header
    headerOk h = true ∧ Pdu.op h = Op.read ∧ Pdu.len h ≤ requestArea - 16 ∧ Pdu.key h ≠ Obj.certChain ∧
    d.reused (slotReq 0 0 (d.slot 0 0)) = false ∧
    okRow ((((d.onCtl (fun c => { c with posted := [] })).setSlot 0 0 { d.slot 0 0 with state := .inService }).served
      (slotReq 0 0 (d.slot 0 0))).checkRead (slotReq 0 0 (d.slot 0 0)) false 0x3002 0 (Pdu.type h)) =
        some (rowAt 0x300200) ∧
    leNat (slice ((after .mailboxRequestService d).slot 0 0).response 16 4) = 9 := by decide +kernel

/-! ### Witnesses: runs, stages, streams and receipts -/

/-- A READY device, for the commands of this part. -/
def dvOn (vs : List (Nat × Nat)) : Device := dvWith ((Obj.deviceState, 3) :: vs)

theorem witness_RunControlFollowsR360 :
    let idle := dvOn []
    let armed := dvOn [(Obj.runState, 2)]
    let cold := dv
    (accepts idle op0 Obj.runControl 1 = true ∧ idle.runState = 0 ∧ idle.run.arm = none ∧ idle.ctl.waiting = [] ∧
      (after (.runControlArm op0) cold).get Obj.armStatus = St.notReady) ∧
    (accepts armed op0 Obj.runControl 2 = true ∧ armed.runState = 2 ∧ armed.log.replay = [] ∧ armed.ctl.staged = [] ∧
      armed.run.skipDue = false ∧ armed.get Obj.replayState ≠ 3 ∧
      (after (.runControlStart op0) armed).run.take.map (·.number) = some 1) ∧
    (accepts armed op0 Obj.runControl 3 = true ∧ (after (.runControlStop op0) armed).runState = 4 ∧
      accepts (dvOn [(Obj.runState, 1)]) op0 Obj.runControl 3 = true) := by decide +kernel

/-- An arming that has come as far as a phase. -/
def dvArm (phase : ArmPhase) (vs : List (Nat × Nat)) : Device :=
  { dvOn ((Obj.runState, 1) :: vs) with run := { arm := some { phase := phase } } }

theorem witness_RunsBeginAndEnd_arm :
    let wait := dvArm .promoting []
    let back := dvArm .promoting [(Obj.stillRestore, 1), (Obj.doubleAssign, 1), (Obj.jobSize, 2)]
    wait.pinsSettled = true ∧ wait.get Obj.stillRestore = 0 ∧ back.pinsSettled = true ∧ back.get Obj.stillRestore ≠ 0 ∧
    back.double = some 1 ∧ 1 ≠ back.get Obj.jobRank ∧ 1 < back.get Obj.jobSize ∧
    (after .armPromotionsSettled wait).runState = 2 ∧
    (after .armPromotionsSettled back).run.arm.map (·.phase) = some .restoring := by decide +kernel

theorem witness_RunsBeginAndEnd_peers :
    let d := dvArm .peers []
    let cut := dvArm .peers [(Obj.portConfig, fld 1 48)]
    (List.range 96).all (fun l => (d.link l).mismatch.isNone) = true ∧
    d.enabledPorts.all (fun p => d.upLinks p != []) = true ∧ d.armDouble.isNone = true ∧
    (after .armPeerWaitExpiry d).runState = 2 ∧ cut.run.arm = some { phase := .peers } := by decide +kernel

theorem witness_RunsBeginAndEnd_stop :
    let run := dvOn [(Obj.runState, 3)]
    let stop := dvOn [(Obj.runState, 4)]
    let logged : Device := { stop with run := { stop.run with stopLogged := true } }
    run.admissionBlocked = false ∧ run.log.replay = [] ∧ run.run.partLost = false ∧ dv.admissionBlocked = true ∧
    stop.run.stopLogged = false ∧ stop.runDone = true ∧ (after .stopComplete stop).run.stopLogged = true ∧
    (after .stopComplete stop).logDue = true ∧ logged.logDue = false ∧ (after .stopComplete logged).runState = 0 := by
  decide +kernel

/-- A descriptor: its fields as (first bit, value), and the digest over them. -/
def descOf (fs : List (Nat × Nat)) : Nat :=
  let x := fs.foldl (fun v f => v + fld f.2 f.1) 0
  x + fld (leNat (sha512 (Desc.covered x))) (0x7C0 * 8)

/-- A serving stage of one vector word END, its row 128 long, first and last of lane 0. -/
def vectorDesc : Nat := descOf [(0, 0x47545351), (32, 1), (40, 1), (42, 1), (46, 1), (47, 1), (64, 5), (152, 1), (192, 4),
  (520, 0xFF), (528, 0x13), (541, 1), (560, 128), (576, 128), (656, 0xFF), (896, 2), (1312, 8), (1344, 9), (1672, 1),
  (0xB0 * 8, 2 ^ 256 - 1)]

/-- A READY device whose object 7 holds the descriptor. -/
def dvDesc : Device := (withObject (dvOn []) 7 (fastObject 0)).writeNat 7 0 2048 vectorDesc

theorem test_descriptor_is_read_back : dvDesc.descriptor 7 = vectorDesc :=
  Device.readNat_writeNat _ 7 0 2048 vectorDesc (by decide +kernel) (by decide +kernel)

/-- A READY device with that stage bound. -/
def dvBound : Device :=
  { withObject (dvOn []) 7 { fastObject 0 with pins := 1 } with stages := [(7, { desc := vectorDesc })] }

theorem witness_StagesBindAndUnbind_bind :
    let core := dvDesc.stageCore vectorDesc
    accepts dvDesc op0 Obj.stageBind 7 = true ∧ Desc.serving vectorDesc = true ∧
    Desc.replica vectorDesc = (dvDesc.servingOf 5).length ∧ dvDesc.laneOpen 0 = false ∧
    dvDesc.bindRange vectorDesc core = false ∧ dvDesc.unplaced 0 = false ∧ dvDesc.lostUnit 10 = false ∧
    dvDesc.heldOn (stagePath (core / 256) (core / 8 % 32) (core % 8) vectorDesc) = false ∧ dvDesc.onCore core = [] ∧
    (dvDesc.registerAll 1 5 (stageGenerators vectorDesc)).1 = St.ok ∧ fallsBack vectorDesc = false := by decide +kernel

theorem witness_StagesBindAndUnbind_unbind :
    accepts dvBound op0 Obj.stageUnbind 7 = true ∧ (tget dvBound.stages 7).map (·.desc) = some vectorDesc ∧
    dvBound.laneOpen 0 = false ∧ (dvBound.stageBusy 7 ((tget dvBound.stages 7).getD { desc := 0 })) = false ∧
    (dvBound.servingOf 5).length = 1 ∧ dvBound.ms.wanting = [] ∧
    tget (after (.stageUnbind op0 7) dvBound).stages 7 = none := by decide +kernel

/-- A stream descriptor on lane 0 with its rings 20 and 21. -/
def streamDesc : Nat := fld 0x52545351 0 + fld 3 32 + fld 2 48 + fld 1 64 + fld 20 128 + fld 21 160 + fld 2 256

/-- The listed cells of an object's bytes. -/
def cellsOf (h : Nat) (bs : Bytes) : List Host.Cell :=
  ((List.range bs.length).zip bs).filterMap (fun p => if p.2 = 0 then none else some (addrOf h p.1, p.2))

/-- The same device with the stream's rings, its BATCH ring, its grant and its descriptor in object 22. -/
def dvRings : Device :=
  ([20, 21, 22, 23].foldl (fun d h => withObject d h (fastObject 0))
    ((dvBound.put Obj.streamGrant0 (fld 1 0 + fld 100 16)).put Obj.batchRing0 23)).onMs (fun m => { m with
      mem := cellsOf 20 (ringHead 1 4 1 0) ++ cellsOf 21 (ringHead 2 4 0 0) ++ cellsOf 22 (leBytes 64 streamDesc) ++
        cellsOf 23 (ringHead 3 4 0 0) })

/-- The stream, open. -/
def dvStream : Device := { dvRings with streams := [(3, { desc := streamDesc })] }

theorem witness_StreamsOpenAndClose_open :
    accepts dvRings op0 Obj.streamOpen 22 = true ∧ dvRings.readNat 22 0 64 = streamDesc ∧ dvRings.roleOf op0 = some 1 ∧
    dvRings.grantPort 3 = portOf op0 ∧ streamDescWrong streamDesc = false ∧
    (bitsSet 1 64).any (fun l => (dvRings.laneStages (2 ^ l)).isEmpty) = false ∧
    (dvRings.laneStages 1).any (fun p => dvRings.rowsRefused p.2.desc) = false ∧ dvRings.ringCheck 20 1 = St.ok ∧
    dvRings.ringCheck 21 2 = St.ok ∧ dvRings.names (dvRings.batchRing 0) = true ∧
    (tget (after (.streamOpen op0 ⟨22, []⟩) dvRings).streams 3).map (·.desc) = some streamDesc := by decide +kernel

/-- The stream with one sample in flight. -/
def dvSample (e : Option Ending) : Device :=
  dvStream.onStream 3 (fun x => { x with samples := [{ seq := 0, entry := 0, ending := e }] })

theorem witness_StreamsOpenAndClose_close :
    let closing : Device := dvStream.onStream 3 (fun x => { x with state := .closing })
    let halted : Device := dvStream.onStream 3 (fun x => { x with state := .halted })
    accepts dvStream op0 Obj.streamClose 3 = true ∧ tget (after (.streamClose op0 3) dvStream).streams 3 = none ∧
    accepts (dvSample none) op0 Obj.streamClose 3 = true ∧
    (tget (after (.streamClose op0 3) (dvSample none)).streams 3).map (·.state) = some .closing ∧
    (tget closing.streams 3).map (·.state) = some .closing ∧ tget (after (.streamCloseComplete 3) closing).streams 3 = none ∧
    accepts halted op0 Obj.streamClear 3 = true ∧
    (tget (after (.streamClear op0 3) halted).streams 3).map (·.state) = some .opened := by decide +kernel

theorem witness_StreamsOpenAndClose_grant :
    let v := fld 1 0 + fld 100 16
    let meets := fld 0 0 + fld 4 16
    accepts dv op0 (Obj.streamGrant0 + 0) v = true ∧ accepts dv op0 (Obj.streamGrant0 + 0) meets = true ∧
    accepts dvStream op0 (Obj.streamGrant0 + 0) (fld 200 0 + fld 4 16) = true ∧
    dvStream.streams.any (fun x => dvStream.grantPort x.1 == some 0 && !(200 ≤ x.1 && x.1 < 204)) = true ∧
    bits v 0 16 + bits v 16 16 ≤ 32768 ∧
    rangesMeet (grantRange v) (grantRange (dv.get (Obj.streamGrant0 + (1 - 0)))) = false ∧
    dv.roleOf ⟨.mailbox 1 0, false, 1⟩ = some 1 ∧ portOf ⟨.mailbox 1 0, false, 1⟩ ≠ some (dv.get Obj.conductorToken) ∧
    (after (.streamGrant op0 0 v) dv).get Obj.streamGrant0 = v := by decide +kernel

theorem witness_SamplesAreServedInSequence_publish :
    let v := fld 9 0 + fld 7 32 + fld 1 64
    let wait := after (.versionPublish op0 v) dvDesc
    accepts dvDesc op0 Obj.versionPublish v = true ∧ dvDesc.runLayer 9 = false ∧ (dvDesc.publishing 9).length < 4 ∧
    (wait.publishing 9).length = 1 ∧ wait.publications = [v] ∧ wait.ctl.waiting.map (·.arg) = [v] ∧
    (after (.versionDigestFormed 9) wait).publications = [] ∧ (after (.versionDigestFormed 9) wait).ctl.waiting = [] := by decide +kernel

theorem witness_StreamsOpenAndClose_role :
    let d := dvWith [(Obj.conductorToken, 1)]
    d.roleOf op0 = some 1 ∧ portOf op0 ≠ some (d.get Obj.conductorToken) ∧
    (after (.streamGrant op0 0 (fld 1 0 + fld 9 16)) d).get Obj.streamGrant0 = d.get Obj.streamGrant0 := by decide +kernel

theorem witness_SamplesAreServedInSequence_sample :
    let entry := fld 30 64 + fld 1 96 + fld 512 192 + fld 0xFFFFFFFF 224
    let d := (withObject dvStream 30 (fastObject 0)).writeBytes 20 64 (leBytes 64 entry)
    let x := (tget d.streams 3).getD { desc := 0 }
    let failed := dvSample (some ⟨St.range, 0, 0xFF⟩)
    x.state = .opened ∧ d.admitsSamples = true ∧ (x.samples.filter (·.open)).length < x.maxInFlight ∧
    d.ringConsumer x.inRing + x.samples.length < d.ringProducer x.inRing ∧
    d.entryOk vectorDesc (d.ringEntry 20 0) = true ∧
    (tget (after (.servingSampleAdmission 3) d).streams 3).map (·.nextSeq) = some 1 ∧
    failed.ringReady 21 = true ∧ failed.ringReady 20 = true ∧ failed.ringFull 21 = false ∧ failed.ringCheck 21 2 = St.ok ∧
    Memory.wf failed.ms.mem = true ∧ (after (.outputEntryWrite 3) failed).ringProducer 21 = 1 := by decide +kernel

/-- A device with a closed batch of one leaf, and a signing key. -/
def dvBatch : Device :=
  let d := dvRings
  { d with batches := [(0, { number := 1, closed := [⟨0, 1, 5, 5, List.replicate 64 1⟩] })],
           sec := { d.sec with identity := some (List.replicate 32 0), publicKey := edPublic (List.replicate 32 0) } }

theorem witness_ReceiptsAreBatched :
    let open1 : Device := { dvRings with batches := [(0, { leaves := [[1]] })] }
    let signedIn : Device → Device := fun d => { d with ctl := { d.ctl with auth := [(0, { session := some 0 })] } }
    let rq : Req := ⟨.mailbox 0 0, true, 1⟩
    let named := signedIn (dvRings.put Obj.batchRing0 99)
    ((after (.batchIntervalExpiry 0) open1).batchesOf 0).number = 1 ∧
    (dvBatch.batchesOf 0).closed ≠ [] ∧ dvBatch.ringReady (dvBatch.batchRing 0) = true ∧
    dvBatch.ringCheck (dvBatch.batchRing 0) 3 = St.ok ∧ dvBatch.ringFull (dvBatch.batchRing 0) = false ∧
    (dvBatch.writeNat 23 16 8 16).ringFull 23 = true ∧
    accepts named rq (Obj.batchRing0 + 0) 23 = true ∧ named.names (named.batchRing 0) = false ∧
    named.streams.any (fun x => named.grantPort x.1 == some 0) = false ∧
    (after (.batchRing rq 0 23) named).batchRing 0 = 23 ∧
    accepts (signedIn dvStream) rq (Obj.batchRing0 + 0) 21 = true := by decide +kernel

theorem witness_ReceiptsAreBatched_signed : (after (.batchEntryWrite 0) dvBatch).get Obj.batchesSigned = 1 := by decide +kernel

/-- A READY device of a job of one, with a log object of 16 MiB in the fast tier: an ARM finds nothing wrong with it. -/
def dvArms : Device :=
  withObject (withObject (dvOn [(Obj.jobSize, 1), (Obj.jobRank, 0), (Obj.logObject, 40), (Obj.statsObject, 42)])
    40 { fastObject 0 with size := 256 }) 42 (fastObject 0)

theorem witness_RunControlFollowsR360_arm :
    let e := dvArms.command op0 Obj.runControl 1 runControlEffect
    accepts dvArms op0 Obj.runControl 1 = true ∧ dvArms.runState = 0 ∧ dvArms.run.arm = none ∧ e.armReady = St.ok ∧
    e.checkTables = St.ok ∧ e.bindRun.1 = St.ok ∧ e.bindRun.2.copyTables.pinAll.1 = St.ok ∧
    (after (.runControlArm op0) dvArms).runState = 1 ∧
    (after (.runControlArm op0) dvArms).run.arm.map (·.phase) = some .promoting := by decide +kernel

theorem witness_RunControlFollowsR360_states :
    let armed := dvOn [(Obj.runState, 2)]
    accepts (dvOn [(Obj.runState, 3)]) op0 Obj.runControl 1 = true ∧ (dvOn [(Obj.runState, 3)]).runState ≠ 0 ∧
    accepts dv op0 Obj.runControl 2 = true ∧ accepts dv op0 Obj.runControl 3 = true ∧
    armed.pwr.hold = false ∧ armed.run.partLost = false ∧ armed.run.formed = none ∧ armed.run.take = none ∧
    armed.logBlocks = false ∧ armed.svc.substs = [] ∧ armed.svc.job = none ∧ armed.sec.signFailed = false ∧
    bits armed.startBits 0 16 = 0 := by decide +kernel

theorem witness_RunsBeginAndEnd_phases :
    let late : Device := { dvArm .promoting [] with run := { arm := some { phase := .promoting, late := [(7, 0)] } } }
    let wide := dvArm .promoting [(Obj.portConfig, fld 1 48)]
    let versions := dvArm .versions []
    let restoring := dvArm .restoring []
    late.pinsSettled = true ∧ (after .armPromotionsSettled late).get Obj.armStatus = St.noSpace ∧
    (after .armPromotionsSettled late).runState = 0 ∧ wide.enabledPorts ≠ [] ∧ wide.get Obj.replayUntil = 0 ∧
    wide.armDouble = none ∧ wide.run.layers = [] ∧
    (after .armPromotionsSettled wide).run.arm.map (·.phase) = some .peers ∧
    versions.run.arm.map (·.phase) = some .versions ∧ (after .armPromotionsSettled versions).run.arm = none ∧
    restoring.ctl.staged = [] ∧ (after .armPeerWaitExpiry restoring).get Obj.armStatus = St.notReady ∧
    (withObject dvArms 41 { fastObject 1 with tier := 1, move := .promoting }).pinsSettled = true ∧
    wide.enabledPorts.all (fun p => wide.upLinks p != []) = false := by decide +kernel

theorem witness_RunsBeginAndEnd_admission :
    let d := dvOn [(Obj.runState, 3)]
    bits d.startBits 0 16 = 0 ∧ d.ctl.staged = [] ∧ dv.run.skipDue = false ∧
    ((after .takeAdmission d).run.take.map (·.number)) = some 1 ∧
    { d with run := { d.run with skipDue := true } }.run.skipDue = true ∧ dv.runState ≠ 4 ∧
    { dvOn [(Obj.runState, 4)] with run := { stopLogged := false, take := some { number := 1 } } }.runDone = false := by decide +kernel

theorem witness_StagesBindAndUnbind_refused :
    let core := dvDesc.stageCore vectorDesc
    let lane := { dvDesc with streams := [(3, { desc := streamDesc })] }
    let full := withObject dvDesc 7 { fastObject 0 with pins := 255 }
    let crowd := { dvDesc with stages := [(51, { desc := vectorDesc, core := core }), (52, { desc := vectorDesc, core := core }),
      (53, { desc := vectorDesc, core := core }), (54, { desc := vectorDesc, core := core })] }
    accepts dv op0 Obj.stageBind 7 = true ∧ dv.get Obj.deviceState ≠ 3 ∧
    (withObject dvDesc 7 { fastObject 0 with lost := true }).entry 7 = some { fastObject 0 with lost := true } ∧
    (tget dvBound.stages 7).isSome = true ∧ accepts dvBound op0 Obj.stageBind 7 = true ∧ Desc.serving 0 = false ∧
    lane.laneOpen (Desc.lane vectorDesc) = true ∧ dvDesc.bindRange 0 core = true ∧ dvDesc.heldOn (stagePath (core / 256) (core / 8 % 32) (core % 8) vectorDesc) = false ∧
    (crowd.onCore core).length = 4 ∧
    (full.namedBy 7 vectorDesc).all (fun o => ((full.entry o).map (fun e => decide (e.pins < 255))).getD true) = false ∧
    (dvDesc.namedBy 7 vectorDesc).all (fun o => ((dvDesc.entry o).map (fun e => decide (e.pins < 255))).getD true) = true ∧
    dvDesc.servingFallback vectorDesc = (0, false) ∧
    tget dvDesc.stages 7 = none ∧ accepts dvDesc op0 Obj.stageUnbind 7 = true := by decide +kernel

theorem witness_StreamsOpenAndClose_refused :
    let pinned := streamDesc + fld 1 51
    let noRing := dvRings.put Obj.batchRing0 99
    dvRings.grantPort 3 ≠ portOf ⟨.mailbox 1 0, false, 1⟩ ∧ accepts dvRings ⟨.mailbox 1 0, false, 1⟩ Obj.streamOpen 22 = true ∧ (dv.get Obj.deviceState ≠ 3) ∧
    (tget dvStream.streams 3).isSome = true ∧ streamDescWrong 0 = true ∧ bit pinned 51 = true ∧ streamDescWrong pinned = false ∧
    noRing.names (noRing.batchRing 0) = false ∧ dvRings.sec.signFailed = false ∧ dvRings.sec.debugOpen = false ∧
    dvRings.get Obj.powerTransition = 0 ∧ tget dvRings.streams 3 = none ∧
    (dvRings.laneLayers 1).any (fun l => dvRings.weighted l && (dvRings.selectVersion l 0).isNone) = false ∧
    accepts dvRings op0 Obj.streamClose 3 = true ∧ accepts dvStream op0 Obj.streamClear 3 = true ∧
    (tget dvStream.streams 3).map (·.state) = some .opened := by decide +kernel

theorem witness_SamplesAreServedInSequence_more :
    let entry := fld 30 64 + fld 1 96 + fld 512 192 + fld 0xFFFFFFFF 224
    let d := (withObject dvStream 30 (fastObject 0)).writeBytes 20 64 (leBytes 64 entry)
    let x := (tget d.streams 3).getD { desc := 0 }
    let v := fld 9 0 + fld 7 32 + fld 1 64
    let held : Version := { take := 1, objs := [7] }
    let four := { dvDesc with versions := [(9, [held, held, held, held])] }
    let run := { dvDesc.put Obj.runState 2 with run := { dvDesc.run with layers := [fld 9 0] } }
    let out := dvStream.onStream 3 (fun x => { x with samples := [{ seq := 0, entry := 0, output := some [] }] })
    x.stuck = false ∧ (d.laneStages x.laneMask).all (fun p => !Desc.laneFirst p.2.desc ||
      d.entryOk p.2.desc (d.ringEntry x.inRing (d.ringConsumer x.inRing + x.samples.length))) = true ∧
    ((tget (after (.servingSampleAdmission 3) d).streams 3).map (fun y => y.samples.map (·.seq))) = some [0] ∧
    accepts four op0 Obj.versionPublish v = true ∧ 4 ≤ (tgetD four.versions 9 []).length ∧
    (dvDesc.entry 7).map (·.pins) = some 0 ∧ (dvDesc.entry 7).map (·.move) = some .settled ∧
    ((after (.versionPublish op0 v) dvDesc).entry 7).map (·.pins) = some 1 ∧ run.runLayer 9 = true ∧
    (after (.versionDigestFormed 9) (after (.versionPublish op0 v) dvDesc)).versions ≠ [] ∧
    out.ringReady 21 = true ∧ out.ringReady 20 = true ∧ out.ringFull 21 = false ∧ 0 ≤ out.ringField 21 64 32 ∧
    (out.batchesOf ((out.grantPort 3).getD 0)).waiting = false ∧ dvStream.admitsSamples = true ∧
    (after (.outputEntryWrite 3) out).get Obj.receiptsIssued = 1 := by decide +kernel

theorem witness_ReceiptsAreBatched_wrong :
    let signedIn : Device → Device := fun d => { d with ctl := { d.ctl with auth := [(0, { session := some 0 })] } }
    let rq : Req := ⟨.mailbox 0 0, true, 1⟩
    dvRings.ringCheck 22 3 ≠ St.ok ∧ accepts (signedIn dvRings) rq (Obj.batchRing0 + 0) 22 = true ∧
    (dvBatch.writeNat 23 16 8 16).ringCheck 23 3 = St.ok ∧ portOf svc5 = none ∧
    accepts dvSvc svc5 (Obj.streamGrant0 + 0) (fld 1 0 + fld 9 16) = true := by decide +kernel

/-! ### Witnesses: objects, tiers and residency -/

/-- A READY device. -/
def dvReady : Device := dvWith [(Obj.deviceState, 3)]

/-- An OBJECT_CREATE request (R248). -/
def createReq (ix size tier kind : Nat) : Nat := fld ix 0 + fld size 32 + fld tier 49 + fld kind 52

/-- The fast tier full on every die. -/
def dvFull : Device := { dvReady with ms := { dvReady.ms with quarantine := [(2, 0, 4 * 1572864)] } }

theorem witness_ObjectCreateMakesAZeroObject :
    let slow : Device := { dvReady with ms := { dvReady.ms with sectorsA := 4000000000, sectorsB := 0 } }
    (accepts dvReady op0 Obj.objectCreate (createReq 7 1 1 5) = true ∧ dvReady.roleOf op0 = some 1 ∧
      dvReady.get Obj.powerTransition = 0) ∧
    accepts dv op0 Obj.objectCreate (createReq 7 1 1 5) = true ∧ dv.get Obj.deviceState ≠ 3 ∧
    createRange (createReq 7 1 1 1) = true ∧ createRange (createReq 7 1 1 5) = false ∧
    (createEntry (createReq 7 1 2 5)).tier = 2 ∧ createRange (createReq 7 1 2 5) = false ∧ dvReady.roomFast 1 = true ∧
    (dvReady.place 1 (dvReady.dieOrder none none)).isSome = true ∧ dvFull.roomFast 1 = false ∧
    createRange (createReq 7 1 3 1) = false ∧ (createEntry (createReq 7 1 3 1)).tier = 3 ∧
    slow.slowTakes 0 (mapSectors 1 + 128) = true ∧ slow.lostUnit 0 = false := by decide +kernel

theorem witness_ObjectCreateMakesAZeroObject_pending :
    let d := withObject dvReady 9 { fastObject 0 with size := 4 * 1572864 }
    let d := { d with ms := { d.ms with quarantine := [] } }
    d.roomFast 1 = true ∧ (d.place 1 (d.dieOrder none none)).isNone = true ∧ d.names 7 = false := by decide +kernel

theorem witness_ObjectsArePlacedPinnedAndDeleted_placed :
    let d : Device := { dvReady with ms := { dvReady.ms with creating := [(7, fastObject 5)] } }
    tget d.ms.creating 7 = some (fastObject 5) ∧ (d.place 1 (d.dieOrder none none)).isSome = true ∧
    accepts dvReady op0 Obj.objectDelete 7 = true ∧ dvReady.roleOf op0 = some 1 ∧ dvReady.entry 7 = none ∧
    (withObject dvReady 7 { fastObject 5 with pins := 1 }).entry 7 = some { fastObject 5 with pins := 1 } ∧
    (withObject dvReady 7 (fastObject 5)).waitedOn 7 = false ∧ (withObject dvReady 7 (fastObject 5)).dmaCarries 7 = false ∧
    (after (.objectDelete op0 7) (withObject dvReady 7 (fastObject 5))).entry 7 = none := by decide +kernel

theorem witness_ObjectsArePlacedPinnedAndDeleted_pinned :
    let d := withObject dvReady 7 { fastObject 5 with pins := 254 }
    accepts d op0 Obj.objectPin 7 = true ∧ d.entry 7 = some { fastObject 5 with pins := 254 } ∧
    (withObject dvReady 7 { fastObject 5 with pins := 255 }).entry 7 = some { fastObject 5 with pins := 255 } ∧
    accepts d op0 Obj.objectUnpin 7 = true ∧ tgetD d.ms.portPins (pinKey (pinPort op0) 7) 0 = 0 ∧
    tgetD (after (.objectPin op0 7) d).ms.portPins (pinKey (pinPort op0) 7) 0 = 1 ∧
    (after (.objectUnpin op0 7) (after (.objectPin op0 7) d)).entry 7 = some { fastObject 5 with pins := 254 } := by
  decide +kernel

/-- An OBJECT_MOVE request. -/
def moveReq (h tier : Nat) : Nat := fld h 0 + fld tier 32

theorem witness_MovesBeginAndSettle :
    let d : Device := { withObject dvReady 7 (fastObject 6) with ms := { (withObject dvReady 7 (fastObject 6)).ms with sectorsA := 4000000000 } }
    accepts d op0 Obj.objectMove (moveReq 7 3) = true ∧ d.entry (bits (moveReq 7 3) 0 32) = some (fastObject 6) ∧
    tierAllowed 6 3 = true ∧ d.get Obj.powerTransition = 0 ∧ moveIsHome (fastObject 6) (moveReq 7 3) = false ∧
    d.slowTakes 0 (d.storedSectors 7 (fastObject 6)) = true ∧ moveIsHome (fastObject 6) (moveReq 7 2) = true ∧
    accepts (withObject dvReady 7 { fastObject 6 with tier := 3 }) op0 Obj.objectMove (moveReq 7 2) = true ∧
    moveIsHome { fastObject 6 with tier := 3 } (moveReq 7 2) = false ∧ dvReady.roomFast 1 = true ∧ dvFull.roomFast 1 = false ∧
    ((after (.moveSettle ⟨7, []⟩) (withObject dvReady 7 { fastObject 6 with tier := 3, move := .promoting, target := 5 })).entry 7).map
      (·.location) = some 5 := by decide +kernel

/-- A stage bound with no descriptor fields set. -/
def dvStage (x : Stage) : Device := { withObject dvReady 7 (fastObject 5) with stages := [(3, x)] }

theorem witness_EngineAccessesAreServedOrFault :
    tget (dvStage { desc := 0 }).stages 3 = some { desc := 0 } ∧ (fastObject 5).forbids 0 false true = false ∧
    (fastObject 5).ready = true ∧ (fastObject 5).forbids 65536 false false = true ∧
    ({ desc := 0, transfers := [(0, { handle := 7, offset := 0, length := 8192, done := 0 })] } : Stage).stalled = false ∧ (dvStage { desc := 0 }).ready 7 = true ∧
    ceilDiv 8192 4096 ≤ 1 + 1 ∧ 0 + 1 < ceilDiv 8192 4096 := by decide +kernel

theorem witness_WaitingAccessesEnd :
    let gone : DirEntry := { tier := 1, kind := 5, size := 1 }
    let d : Device := { withObject dvReady 7 gone with ms := { (withObject dvReady 7 gone).ms with waiters := [(7, .stage 3)] } }
    d.ms.waiters.contains (7, .stage 3) = true ∧ d.entry 7 = some gone ∧
    ((after (.holdLimitExpiry 7 3) d).entry 7).map (·.lost) = some true ∧
    ((withObject dvReady 7 { fastObject 5 with move := .rebuilding, poisoned := true }).entry 7).map (·.move) = some .rebuilding := by
  decide +kernel

theorem witness_MemoryPartsAreWatched :
    bit (dvReady.get Obj.channelMap) 3 = true ∧
    ({ dvReady with ms := { dvReady.ms with missed := [3, 26] } } : Device).ms.missed.contains 26 = true ∧
    dvReady.lostUnit 4 = false ∧ bit ((after (.channelUeLimit 3) dvReady).get Obj.channelMap) 3 = false ∧
    (after (.hbmPatternCheck 2 false) { dvReady with ms := { dvReady.ms with missed := [26] } }).lostUnit 4 = true ∧
    (after (.scrubPass 9 []) dvReady).get Obj.scrubLastPassS = 9 := by decide +kernel

/-- A SERVICE request of port 0 and a device whose session for it is open. -/
def svcOf0 : Req := ⟨.mailbox 0 0, true, 1⟩
def dvSession (d : Device) : Device := { d with ctl := { d.ctl with auth := [(0, { session := some 0 })] } }

theorem witness_ObjectCreateMakesAZeroObject_refused :
    let busy := dvReady.put Obj.powerTransition 1
    let lost := dvReady.put Obj.lostUnits 1
    let slow : Device := { dvReady with ms := { dvReady.ms with sectorsA := 100 } }
    let waits : Device := { dvReady with ms := { dvReady.ms with creating := [(7, fastObject 5)] } }
    accepts (dvSession dvReady) svcOf0 Obj.objectCreate (createReq 7 1 1 5) = true ∧
    (dvSession dvReady).roleOf svcOf0 ≠ some 1 ∧ busy.get Obj.powerTransition ≠ 0 ∧
    accepts busy op0 Obj.objectCreate (createReq 7 1 1 5) = true ∧ (tget waits.ms.creating 7).isSome = true ∧
    accepts waits op0 Obj.objectCreate (createReq 7 1 1 5) = true ∧ lost.lostUnit 0 = true ∧
    accepts lost op0 Obj.objectCreate (createReq 7 1 3 1) = true ∧ slow.slowTakes 0 (mapSectors 1 + 128) = false ∧
    slow.lostUnit 0 = false := by decide +kernel

theorem witness_ObjectsArePlacedPinnedAndDeleted_demoting :
    let e : DirEntry := { fastObject 6 with move := .demoting, moveTier := 3, location := 9, target := 77 }
    let d := withObject dvReady 7 e
    accepts d op0 Obj.objectPin 7 = true ∧ d.entry 7 = some e ∧ d.ms.wanting = [] ∧
    accepts dvReady op0 Obj.objectPin 7 = true ∧ dvReady.entry 7 = none ∧
    ((after (.objectPin op0 7) d).entry 7).map (fun y => (y.pins, y.move, y.moveTier, y.target)) = some (1, .promoting, 2, 9) ∧
    (after (.objectPin op0 7) d).get Obj.evictionsRedirected = 1 := by decide +kernel

theorem witness_MovesBeginAndSettle_ends :
    let demoting := withObject dvReady 7 { fastObject 6 with move := .demoting, moveTier := 3, target := 77 }
    let crossing := withObject dvReady 7 { fastObject 6 with tier := 3, move := .crossing, moveTier := 4, target := 78 }
    let plain := withObject dvReady 7 { fastObject 0 with move := .demoting, moveTier := 3 }
    demoting.ms.wanting = [] ∧ (demoting.ms.waiters.any (fun w => w.1 == 7)) = false ∧
    ((after (.moveSettle ⟨7, []⟩) demoting).entry 7).map (fun e => (e.tier, e.location)) = some (3, 77) ∧
    ((after (.moveSettle ⟨7, []⟩) crossing).entry 7).map (fun e => (e.tier, e.location)) = some (4, 78) ∧
    (plain.entry 7).map (fun e => (e.move.carries, e.poisoned, e.kind)) = some (true, false, 0) ∧
    ((after (.moveSettle ⟨7, [.fastUnit 7]⟩) plain).entry 7).map (fun e => (e.tier, e.poisoned)) = some (2, true) ∧
    (withObject dvReady 7 (fastObject 6)).entry 7 = some (fastObject 6) ∧
    accepts (withObject dvFull 7 { fastObject 6 with tier := 3 }) op0 Obj.objectMove (moveReq 7 2) = true := by decide +kernel

theorem witness_WaitingAccessesEnd_more :
    let x : Stage := { desc := fld 1 40 + fld 9 1792, todo := [(3, 4)] }
    let d : Device := { dvReady with stages := [(5, x)] }
    let building := withObject dvReady 7 { fastObject 5 with move := .rebuilding, poisoned := true }
    (d.lateOf (Desc.layer x.desc)).contains (3, 4) = false ∧ d.canRead x.weights = false ∧ building.copyLayer 7 = none ∧ (building.ms.waiters.any (fun w => w.1 == 7)) = false ∧
    ((after (.workingCopyRebuild 7) building).entry 7).map (fun e => (e.move, e.poisoned, e.version)) =
      some (.settled, false, 1) ∧
    Desc.serving x.desc = true ∧ Desc.weightDeadline x.desc ≠ 0 ∧ tget d.stages 5 = some x ∧
    (after (.weightDeadlineMiss 5 8) d).get Obj.weightStallUs = 8 := by decide +kernel

theorem witness_MemoryPartsAreWatched_findings :
    let d := withObject dvReady 7 (fastObject 5)
    d.entry 7 = some (fastObject 5) ∧ ((after (.scrubPass 9 [.fastUnit 7]) d).entry 7).map (·.poisoned) = some true ∧
    d.ms.wanting = [] ∧ dvReady.ms.missed.contains 3 = false ∧ dvReady.seamDegraded 0 = false ∧
    (after (.scrubPass 9 [.correctedSlow 4]) d).get Obj.correctedSlow = 4 ∧
    (after (.scrubPass 9 [.parityUnit 0 5]) d).get Obj.seamRebuilds = 1 := by decide +kernel

theorem witness_WaitingAccessesEnd_masters :
    let l := fld 9 0 + fld 8 128
    let d := withObject (withObject dvReady 7 { fastObject 5 with move := .rebuilding, poisoned := true }) 8 { fastObject 1 with tier := 3, poisoned := true }
    let d : Device := { d with versions := [(9, [{ take := 1, objs := [7] }])], run := { layers := [l] } }
    d.copyLayer 7 = some l ∧ d.layerMarked l = some 8 ∧
    (after (.workingCopyRebuild 7) d).ms.waiters = [(8, .lapidary 0)] := by decide +kernel

/-! ### Witnesses: links, messages and collectives -/

/-- A device with one link in a state. -/
def dvLink (x : Link) (vs : List (Nat × Nat)) : Device :=
  { dvWith vs with net := { dv.net with links := [(3, x)] } }

/-- PORT_CONFIG of port 0: LNK3 a member, LNK4 a spare, its peer rank 1 at port 5. -/
def portCfg : Nat × Nat := (Obj.portConfig, fld 8 0 + fld 16 24 + fld 1 48 + fld 1 64 + fld 5 80)

theorem witness_LinksTrainServeAndRetire :
    let off := dvLink {} []
    let down : Device := { off with pwr := { off.pwr with pwrGood := 3, refs := [(2, { ready := true })] } }
    let up := dvLink { state := .up, replays := 9 } [portCfg, (Obj.retryLimit, 8)]
    let spared : Device := { up with net := { up.net with links := [(3, { state := .up }), (4, { state := .spare })] } }
    accepts down op0 Obj.linkRetrain 3 = true ∧ (down.link 3).state ∉ [LinkState.up, .spare, .training, .retraining] ∧
    (after (.linkRetrain op0 3) down).link 3 = { ({} : Link) with state := .training } ∧ down.serialReady = true ∧
    off.serialReady = false ∧ (after (.linkRetrain op0 3) off).net.trainDue = [3] ∧ (after (.linkRetrain op0 3) off).link 3 = {} ∧
    ((dvLink { state := .training } []).link 3).state ∈ [LinkState.training, .retraining] ∧
    ((after (.linkTrained 3) (dvLink { state := .training } [])).link 3).state = .trained ∧
    ((after (.linkTrainTimeout 3) (dvLink { state := .retraining } [portCfg])).link 3).state = .retired ∧
    up.get Obj.retryLimit ≤ (up.link 3).replays ∧ ((after (.retryLimitReached 3) up).link 3).state = .retraining ∧
    spared.portOfLink 3 = some 0 ∧ ((maskLinks 0 24).find? (fun k => k != 3 && (spared.link k).state == .spare)) = some 4 := by
  decide +kernel

theorem witness_LinksTrainServeAndRetire_identity :
    let d := dvLink { state := .trained } [portCfg, (Obj.runState, 2)]
    let arming : Device := { d with run := { d.run with arm := some { phase := .peers } } }
    d.portOfLink 3 = some 0 ∧ d.exchanging = true ∧ arming.exchanging = true ∧ portPeer (d.portConfig 0) = 1 ∧
    portPeerPort (d.portConfig 0) = 5 ∧ (d.link 3).service = false ∧
    ((after (.identity 3 1 5 d.seedCheck) d).link 3).state = .up ∧
    ((after (.identity 3 2 5 d.seedCheck) d).link 3).state = .miswired := by decide +kernel

/-- A DATA flit of sequence number `seq`, for rank 9. -/
def dataFlit (seq : Nat) : Bytes :=
  let b := leBytes 8 (fld 1 0 + fld seq 8 + fld 9 44) ++ List.replicate 244 0
  b ++ leBytes 4 (crc32c b)

theorem witness_FlitsAreNumberedAndReplayed :
    let up := dvLink { state := .up } []
    let f : Flit := { vc := 0, hop := 0, dest := 1, src := 0, data := [7] }
    let ready := dvLink { state := .up, queue := [f], granted := [(0, 2)] } []
    let again := dvLink { state := .up, buffer := [(4, f)], replaying := [4] } []
    (dataFlit 0).length = 256 ∧ crc32c ((dataFlit 0).take 252) = leAt (dataFlit 0) 252 4 ∧
    bits (leAt (dataFlit 0) 0 8) 0 2 = 1 ∧ bits (leAt (dataFlit 0) 0 8) 8 12 = (up.link 3).expected ∧
    bits (leAt (dataFlit 5) 0 8) 8 12 ≠ (up.link 3).expected ∧
    up.double = none ∧ (up.link 3).choose (up.get Obj.stillSharePct) = none ∧
    (ready.link 3).choose (ready.get Obj.stillSharePct) = some f ∧ (again.link 3).replaying = [4] ∧
    (again.link 3).buffer.find? (fun e => e.1 == 4) = some (4, f) ∧
    ((dvLink {} []).link 3).state ∉ [LinkState.up, .spare, .trained] := by decide +kernel

/-- A message for rank 1 that waits for its acknowledgement. -/
def keptMsg : Sent := { dest := 1, id := 0, vc := 0, msg := messageBytes Kind.verdictUp false 0xFFFF 0 1 0 0 0 [], link := some 3 }

theorem witness_PeersAnswerOrAreLost :
    let d := dvLink { state := .up } [portCfg, (Obj.runState, 2), (Obj.jobSize, 2), (Obj.jobRank, 0)]
    let d : Device := { d with net := { d.net with sent := [keptMsg], routes := [0x7F7F, 0x7F00] } }
    let gone : Device := { d with net := { d.net with lost := [1] } }
    d.isLost 1 = false ∧ gone.isLost 1 = true ∧ (after (.msgAck 1 0) d).net.sent = [] ∧
    (d.routePort 1).isSome = true ∧ (after (.msgResendTimeout 1 0) d).get Obj.msgResent = 1 ∧
    d.net.sent.find? (fun m => m.dest == 1 && m.id == 0 && kindAcked (leAt m.msg 0 1) && m.link.isSome) = some keptMsg ∧
    d.peers = [1] ∧ d.silent 1 = true ∧ d.run.take = none ∧ (after (.peerTimeout 1) d).isLost 1 = true ∧
    (after (.live 1) d).silent 1 = false ∧ dv.runState < 2 := by decide +kernel

/-- A LAYER_WGRAD entry of two ranks, 512 elements of FP32 for object 7; the HOST entry beside it. -/
def collEntry (host : Nat) : Nat := fld host 3 + fld 2 32 + fld 5 64 + fld 8 96 + fld 7 128 + fld 2 192 + fld 512 224

/-- A device with both, for take 4. -/
def dvColl (running : Bool) : Device :=
  let c : Nat → Coll := fun host => { entry := collEntry host, ranks := [0, 1], tag := 4, running := running, complete := false }
  { dvWith [(Obj.collectiveCount, 2), (Obj.jobRank, 0)] with net := { dv.net with colls := [(0, c 0), (1, c 1)] } }

/-- A message of entry 0 from rank 1. -/
def collMsg (take check : Nat) : Msg := ⟨1, 0, 3, take, 0, Fmt.fp32, check, false, [0, 0, 0x80, 0x3F]⟩

theorem witness_CollectivesGatherTheirShards :
    let m := collMsg 4 (Ce.check (collEntry 0))
    let kept := after (.contribution m) (dvColl false)
    (dvColl false).staleMessage m = false ∧ m.descCheck = Ce.check (collEntry 0) ∧
    (collMsg 5 m.descCheck).take ≠ 4 ∧ (collMsg 4 0).descCheck ≠ Ce.check (collEntry 0) ∧
    Ce.host (collEntry 0) = false ∧ Ce.host (collEntry 1) = true ∧ shardOf (collEntry 0) 0 = some (0, 0, 512) ∧
    kept.net.accepted.contains (1, 3) = true ∧ lineFormat m.format = false ∧
    ((tget kept.net.colls 0).map (fun c => tget (tgetD c.got (gotKey 0 1) []) 0)) = some (some 0x3F800000) ∧
    Ce.reduces (collEntry 0) = true ∧ Ce.reduces (collEntry 0 + 2) = false ∧
    (after (.result m) (dvColl true)).readNat 7 0 4 = 0x3F800000 := by decide +kernel

theorem witness_CollectivesGatherTheirShards_start :
    accepts (dvColl false) op0 Obj.collectiveStart 1 = true ∧ (dvColl false).roleOf op0 = some 1 ∧
    accepts (dvColl true) op0 Obj.collectiveStart 1 = true ∧ accepts (dvColl false) op0 Obj.collectiveStart 0 = true ∧
    accepts (dvColl false) op0 Obj.collectiveStart 2 = true ∧
    ((tget (after (.collectiveStart op0 1) (dvColl false)).net.colls 1).map (·.invocations)) = some 1 := by decide +kernel

theorem witness_CollectivesGatherTheirShards_waits :
    let d := dvColl false
    let moving : Device := { d with ms := { d.ms with dir := [(7, fastObject 7), (8, { fastObject 7 with move := .promoting })] } }
    (tget moving.net.colls 1).map moving.collObjects = some [8, 7] ∧ [8, 7].find? moving.barred = none ∧
    moving.unreadable [8, 7] = some 8 ∧
    ((tget (after (.collectiveStart op0 1) moving).net.colls 1).map (fun y => (y.waits, y.running))) = some (true, false) := by
  decide +kernel

theorem witness_LinksTrainServeAndRetire_lost :
    let d := dvLink { state := .trained } [portCfg, (Obj.runState, 2)]
    let gone : Device := { d with net := { d.net with lost := [1] } }
    let up := dvLink { state := .up } [portCfg, (Obj.retryLimit, 8)]
    gone.isLost 1 = true ∧ (after (.identity 3 1 5 0) gone).get Obj.msgStaleDrops = 1 ∧
    (d.isLost 1 = false ∧ d.run.arm = none) ∧ (up.link 3).replays < up.get Obj.retryLimit ∧
    accepts up op0 Obj.linkRetrain 3 = true ∧ (up.link 3).state ∈ [LinkState.up, .spare, .training, .retraining] ∧
    d.exchanging = true ∧ (dvLink { state := .training } []).exchanging = false := by decide +kernel

theorem witness_FlitsAreNumberedAndReplayed_asks :
    let d := dvLink { state := .trained, service := true } [portCfg, (Obj.runState, 2)]
    let quiet := dvLink { state := .trained } [portCfg]
    d.exchanging = true ∧ (d.link 3).queue = [] ∧ (d.portOfLink 3).isSome = true ∧ d.double = none ∧
    ((after (.flitSlot 3) d).link 3).buffer.map (·.2.identity) = [true] ∧
    quiet.exchanging = false ∧ (quiet.link 3).choose (quiet.get Obj.stillSharePct) = none ∧
    (bits (leAt (dataFlit 0) 0 8) 2 2 ≠ 3 ∧ bit (leAt (dataFlit 0) 0 8) 7 = false ∧ bit (leAt (dataFlit 0) 0 8) 6 = false) ∧
    crc32c ((dataFlit 0).set 9 1 |>.take 252) ≠ leAt ((dataFlit 0).set 9 1) 252 4 := by decide +kernel

theorem witness_PeersAnswerOrAreLost_quiet :
    let d := dvLink { state := .up } [portCfg, (Obj.runState, 2), (Obj.jobSize, 2), (Obj.jobRank, 0)]
    let far : Device := { d with net := { d.net with unreachable := [5] } }
    2 ≤ d.runState ∧ d.net.sent = [] ∧ far.net.unreachable.contains 5 = true ∧ far.isLost 5 = false ∧
    far.silent 5 = true ∧ (after (.peerTimeout 5) far).isLost 5 = true := by decide +kernel

theorem witness_CollectivesGatherTheirShards_more :
    let m := collMsg 4 (Ce.check (collEntry 0))
    let seen : Device := { dvColl false with net := { (dvColl false).net with accepted := [(1, 3)] } }
    let carries : Device := { dvColl true with net := { (dvColl true).net with colls :=
      [(0, { entry := collEntry 0 + 2, ranks := [0, 1], tag := 4, running := true, complete := false })] } }
    let n := collMsg 4 (Ce.check (collEntry 0 + 2))
    seen.net.accepted.contains (m.src, m.msgId) = true ∧ seen.staleMessage m = false ∧
    (after (.contribution m) seen).get Obj.msgDuplicates = 1 ∧ carries.staleMessage n = false ∧
    n.descCheck = Ce.check (collEntry 0 + 2) ∧ Ce.reduces (collEntry 0 + 2) = false ∧
    (shardOf (collEntry 0 + 2) 0).isSome = true ∧ (dvColl false).net.accepted.contains (m.src, m.msgId) = false := by
  decide +kernel

/-! ### Witnesses: the log and stills -/

/-- A device whose log is object 40, with records that wait. -/
def dvLog (rs : List LogRecord) : Device :=
  { withObject (dvWith [(Obj.logObject, 40), (Obj.logWriteOffset, 64)]) 40 (fastObject 0) with log := { waiting := rs } }

theorem witness_LogChainsItsRecords :
    let r : LogRecord := { kind := 1, outcome := 2, take := 5, verdict := 8 }
    let d := dvLog [r]
    let full := (dvLog [r]).put Obj.logConsumed 96
    accepts (dvLog []) op0 Obj.logConsumed 64 = true ∧ consumedOk 65536 64 0 64 = true ∧ consumedOk 65536 64 0 72 = false ∧
    d.ready 40 = true ∧ d.sizeOf 40 * blockBytes = 65536 ∧ r.signed = false ∧
    logPlace 65536 64 0 (recordBytes 0 0 false) = some (0, 64) ∧ logPlace 65536 64 96 (recordBytes 0 0 false) = none ∧
    full.get Obj.logConsumed = 96 ∧ Memory.wf d.ms.mem = true := by decide +kernel

/-- A still message from rank 1 whose chunk has a kind and data. -/
def stillMsg (kind : Nat) (data : Bytes) : Msg :=
  ⟨1, 0xFFFF, 2, 9, 0, 0xFF, 0, false, chunkHead kind false 0 0 6 9 ++ data⟩

/-- A double of rank 0 with room in its store, that serves rank 1. -/
def dvDouble (x : Served) : Device :=
  { withObject (dvWith [(Obj.jobRank, 0), (Obj.stillStoreObject, 41)]) 41 { fastObject 0 with size := 16 } with
    still := { served := [x] } }

/-- A device served, with nothing in its slots. -/
def servedNew : Served := { rank := 1, blocks := 2 }

theorem witness_DoubleKeepsStills :
    let d := dvDouble servedNew
    let m := stillMsg Ck.block [1]
    let z : StillSlot := (servedNew.slotFor 9 false).addEnd (chunkOf (stillMsg Ck.end_ [7]).payload)
    d.staleMessage m = false ∧ (chunkOf m.payload).bad = false ∧ (chunkOf m.payload).kind = Ck.block ∧
    (chunkOf (stillMsg Ck.hello []).payload).kind = Ck.hello ∧ (chunkOf (stillMsg Ck.trace []).payload).kind = Ck.trace ∧
    (chunkOf (stillMsg Ck.end_ []).payload).kind = Ck.end_ ∧ (chunkOf (stillMsg Ck.restore []).payload).kind = Ck.restore ∧
    d.storeBad = false ∧ d.run.arm = none ∧ d.helloStatus 1 2 = St.ok ∧ d.helloStatus 1 20 = St.noSpace ∧
    d.servedOf 1 = some servedNew ∧ (servedNew.slotFor 9 false).ended = none ∧
    d.storeUsedBut 1 + 2 * 2 + ceilDiv 1 8 ≤ d.storeSize ∧
    (dvDouble { servedNew with blocks := 8 }).storeSize < d.storeUsedBut 1 + 2 * 8 + ceilDiv 1 8 ∧
    (servedNew.setWriting (some z)).wholeDigest z = none ∧
    ({ servedNew with slotB := some z } : Served).writing = some z ∧ z.valid = false ∧ z.take = 9 ∧
    servedNew.slotOf 1 = none ∧ d.staleMessage { m with reserved := true } = true := by decide +kernel

/-- A slot whose manifest is here and names no object, and END with a digest. -/
def slotEnded (e : Bytes) : StillSlot :=
  { take := 9, base := false, manifest := [(0, leBytes 4 0x4E414D51 ++ leBytes 4 0xC0 ++ List.replicate 0xB8 0)], ended := some e }

theorem witness_DoubleKeepsStills_end :
    let x := servedNew.setWriting (some (slotEnded []))
    let valid : StillSlot := { slotEnded [] with valid := true, base := true }
    ((x.wholeDigest (slotEnded [])).map (·.length)) = some 64 ∧
    (({ servedNew with slotA := some valid } : Served).slotOf 1) = some valid := by decide +kernel

theorem witness_DoubleKeepsStills_ack :
    let j : StillJob := { take := 9, base := true, manifest := [], digest := List.replicate 64 0, chunks := 0, blocks := [], ended := true }
    let d : Device := { dvWith [(Obj.jobRank, 0), (Obj.doubleAssign, 1)] with still := { job := some j } }
    let ok := stillMsg Ck.ack (ackData St.ok 1 [])
    let lost := stillMsg Ck.ack (ackData St.objectLost 1 [])
    d.staleMessage ok = false ∧ (chunkOf ok.payload).kind = Ck.ack ∧ d.double = some 1 ∧
    leAt (chunkOf ok.payload).data 0 2 = St.ok ∧ slice (chunkOf ok.payload).data 8 64 = j.digest ∧
    leAt (chunkOf lost.payload).data 0 2 = St.objectLost ∧ j.take = (chunkOf ok.payload).take ∧
    (after (.stillAck ok) d).get Obj.stillsCompleted = 1 ∧ (after (.stillAck lost) d).get Obj.stillsFailed = 1 := by
  decide +kernel

theorem witness_LogChainsItsRecords_waits :
    let r : LogRecord := { kind := 1, outcome := 2, take := 5, verdict := 8 }
    let sgn : Device := { dvLog [{ r with signed := true }] with sec := { signFailed := true } }
    let full := (dvLog [r]).put Obj.logConsumed 96
    (dvLog []).log.waiting = [] ∧ sgn.sec.signFailed = true ∧ sgn.ready 40 = true ∧ full.log.full = false ∧
    (after .logRecordWrite full).get Obj.logFullWaits = 1 ∧ (after .logRecordWrite full).log.full = true ∧
    (dvLog [r]).sec.signFailed = false := by decide +kernel

theorem witness_DoubleKeepsStills_kinds :
    let m := stillMsg Ck.manifest [1]
    let writing : Served := { servedNew with slotB := some { take := 9, base := false } }
    (dvDouble servedNew).net.accepted.contains (m.src, m.msgId) = false ∧ (chunkOf m.payload).kind = Ck.manifest ∧
    (chunkOf (stillMsg Ck.abort []).payload).kind = Ck.abort ∧ (chunkOf (stillMsg Ck.abort []).payload).take = 9 ∧
    (writing.writing.map (fun z => (z.take, z.valid))) = some (9, false) ∧ (servedNew.writing.bind (·.ended)) = none ∧
    (dvDouble servedNew).helloStatus 1 (leAt (chunkOf (stillMsg Ck.hello (List.replicate 12 0)).payload).data 4 8) = St.ok ∧
    ((after (.stillManifest m) (dvDouble servedNew)).servedOf 1).isSome = true := by decide +kernel

/-! ### Witnesses: clocks, voltage and power -/

/-- A device at a power state and step of the sequence. -/
def dvPwr (w : Pwr) (vs : List (Nat × Nat)) : Device := { dvWith vs with pwr := w, boot := { fusesRead := true, partsStarted := true } }

/-- Two ready quartz inputs; a domain that runs from the first. -/
def twoRefs : Tbl RefClock := [(0, { present := true, ready := true }), (1, { present := true, ready := true })]
def running0 : Tbl Domain := [(4, { running := true }), (11, { running := true })]

theorem witness_ClocksHoldAndResume_window :
    let d := dvPwr { refs := [(0, { present := true, pass := 2 })] } []
    let e := after (.qualificationWindow [true, true] 65542 0 0 0 0 0) d
    d.boot.fusesRead = true ∧ ({} : Device).boot.fusesRead = false ∧ e.refReady 0 = true ∧ (e.refClock 1).pass = 1 ∧
      ((after (.qualificationWindow [true, true] 65543 0 0 0 0 0) d).refClock 0).fail = 1 := by decide +kernel

theorem witness_ClocksHoldAndResume_monitor :
    let d := dvPwr { refs := twoRefs, domains := running0 } []
    (d.domain 4).running = true ∧ (d.domain 4).ref = 0 ∧ (d.domain 11).ref = 0 ∧
      [0, 1, 5].find? (fun r => r != 0 && d.refReady r) = some 1 ∧
      (after (.clockMonitorFire 0 1) d).pwr.hold = true ∧ ((after (.clockMonitorFire 0 1) d).domain 11).ref = 1 := by
  decide +kernel

theorem witness_ClocksHoldAndResume_select :
    let d := dvPwr { refs := twoRefs, domains := running0 } []
    accepts d op0 (Obj.refSelect + 12) 0 = true ∧ d.roleOf op0 ≠ some 2 ∧
    accepts d op0 (Obj.refSelect + 4) 7 = true ∧ refAllowed 4 7 = false ∧
    accepts (dvPwr { domains := running0 } []) op0 (Obj.refSelect + 4) 1 = true ∧
      (dvPwr { domains := running0 } []).refReady 1 = false ∧
    refAllowed 4 1 = true ∧ d.refReady 1 = true ∧ refAllowed 9 0 = true ∧ 0 ≠ (d.domain 9).ref ∧ (d.domain 9).running = false ∧
    accepts d op0 (Obj.refSelect + 9) 0 = true := by decide +kernel

theorem witness_ClocksHoldAndResume_resume :
    let d := dvPwr { refs := twoRefs ++ [(2, { ready := true })], hold := true, domains := [(4, { held := true })] } []
    let e := dvPwr { hold := true, resuming := true, domains := [(4, { held := true, pllReady := true })] } []
    accepts dv op0 Obj.clockResume 1 = true ∧ dv.pwr.hold = false ∧ accepts d op0 Obj.clockResume 1 = true ∧
      (List.range 9).all (fun n => d.refReady (d.domain n).ref) = true ∧ d.gov.trip = false ∧ (d.domain 4).held = true ∧
      (dvPwr { hold := true } []).refReady ((dvPwr { hold := true } []).domain 0).ref = false ∧
      e.pwr.resuming = true ∧ (e.domain 4).pllReady = true ∧ ((after .clockResumeDone e).domain 4).running = true := by
  decide +kernel

theorem witness_GatesHoldAndOpen :
    let node := 2 + 32 * 5
    let d := dvPwr {} [(Obj.gateSelect, node)]
    let held := dvPwr { heldNodes := [node] } [(Obj.gateSelect, node)]
    let above := dvPwr { heldNodes := [1] } [(Obj.gateSelect, node)]
    let busy : Device := { d with stages := [(3, { desc := 0, core := 40 })] }
    accepts d op0 Obj.gateControl 1 = true ∧ accepts held op0 Obj.gateControl 0 = true ∧ d.get Obj.gateSelect = node ∧
      node ≠ 0 ∧ d.inUse node = false ∧ busy.inUse node = true ∧ accepts busy op0 Obj.gateControl 1 = true ∧
      held.heldOn (nodesAbove node) = false ∧ above.heldOn (nodesAbove node) = true ∧
      (after (.gateHeld node) (after (.gateHold op0) d)).pwr.heldNodes = [node] ∧
      (after (.gateOpen op0) held).pwr.opening = [node] ∧
      accepts (dvPwr { hold := true } []) op0 Obj.gateControl 0 = true ∧
      (accepts (dvPwr { opening := [node] } [(Obj.gateSelect, node)]) op0 Obj.gateControl 1 = true) ∧
      (accepts (dvPwr { draining := [node] } [(Obj.gateSelect, node)]) op0 Obj.gateControl 0 = true) ∧
      (dvPwr { opening := [node], gateLatch := some (node, 1) } []).inUse node = false := by decide +kernel

theorem witness_LevelsStepOneAtATime :
    let at_ : DvfsPhase → Nat → Device := fun p l =>
      dvPwr { domains := [(0, { running := true })], dvfsPhase := [(0, p)] } [(Obj.dvfsLevelCd, l), (Obj.dvfsRequestCd, 6)]
    accepts dv op0 (Obj.dvfsRequestCd + 3) 5 = true ∧
      (at_ .idle 6).level 0 = (at_ .idle 6).targetLevel 0 ∧ (at_ .idle 5).level 0 < (at_ .idle 5).targetLevel 0 ∧
      (at_ .idle 7).targetLevel 0 < (at_ .idle 7).level 0 ∧
      (after (.dvfsLevelChange 0) (at_ .idle 5)).out = [.avsWrite 0 760] ∧
      (after (.arithPllSlewDone 0) (at_ .slewUp 5)).level 0 = 6 ∧ (at_ .raising 5).dvfsPhase 0 = .raising ∧
      (after (.arithPllSlewDone 0) (at_ .slewDown 7)).out = [.avsWrite 0 760] ∧
      (after (.arithPllSlewDone 0) (at_ .slewDown 7)).pwr.lowering.contains 0 = true := by decide +kernel

theorem witness_SuppliesAreWatched :
    let d := dvPwr { pwrEn := 0x1FF, pwrGood := 0x1FF } []
    bit (after (.supplyUndervoltage 5 81 800) d).pwr.faulted 5 = true ∧ 10 * 800 < 100 * 81 ∧ 100 * 80 ≤ 10 * 800 ∧
      5 * 800 < 100 * 80 ∧ 100 * 40 ≤ 5 * 800 ∧ bit d.pwr.pwrGood 5 = true ∧ bit d.pwr.pwrEn 5 = true ∧
      bit dv.pwr.pwrEn 5 = false ∧ bit (dvPwr { faulted := 0x20 } []).pwr.faulted 5 = true ∧
      (after (.regulatorRecoveryExpiry 5) (dvPwr { faulted := 0x20 } [])).lostUnit 10 = true ∧
      (after (.pmbusPoll 400000000) dv).get Obj.drawW = 0x43C80000 := by decide +kernel

theorem witness_PowerStatesFollowTheSequence_requests :
    let d := dvPwr {} [(Obj.powerState, 1)]
    let on := dvPwr {} [(Obj.powerState, 1), (Obj.fillerW, 0x3F800000)]
    let used : Device := { d with stages := [(3, { desc := 0 })] }
    let moving := withObject d 7 { fastObject 5 with move := .demoting, moveTier := 3, tier := 3 }
    accepts d op0 Obj.powerRequest 1 = true ∧ accepts d op0 Obj.powerRequest 2 = true ∧ accepts d op0 Obj.powerRequest 3 = true ∧
      d.inUse 0 = false ∧ used.inUse 0 = true ∧ moving.inUse 0 = false ∧ d.fillerHolds = false ∧ on.fillerHolds = true ∧
      d.dmaBusy = false ∧ d.get Obj.stillState = 0 ∧ d.pwr.step = .steady ∧
      (dvPwr { step := .saving 3 } []).pwr.step.target = some 3 ∧ accepts (dvPwr { hold := true } []) op0 Obj.powerRequest 2 = true ∧
      (after (.powerRequestP3 op0) d).pwr.step = .saving 3 ∧ (dvPwr {} [(Obj.powerState, 3)]).powerState = 3 ∧
      (after (.wakeReq 520) (dvPwr {} [(Obj.powerState, 3)])).pwr.step = .railWait 1 3 := by decide +kernel

theorem witness_PowerStatesFollowTheSequence_steps :
    let d : PowerStep → Device := fun p => dvPwr { step := p, pwrEn := 0x1F } [(Obj.powerState, 1)]
    (d (.railsOff 2 0)).pwr.latched = none ∧ (d (.railsOff 2 0)).boot.partsStarted = true ∧
      (after .powerSequenceDelay (d (.railsOff 2 0))).powerState = 2 ∧
      (after .powerSequenceDelay (d (.railDelay 0x10 2))).pwr.pwrEn = 0x1FF ∧ (d (.railDelay 1 3)).pwr.pwrGood &&& 2 = 0 ∧
      (after (.pwrGoodRise 4) (d (.railWait 0x10 2))).pwr.step = .railDelay 0x10 2 ∧
      (after .pgTimeout (d (.railWait 0x10 2))).pwr.pwrEn = 0xF ∧ (after .pgTimeout (d (.railWait 0x10 2))).powerState = 1 ∧
      (after .retentionSave (d (.saving 2))).pwr.step = .railsOff 2 0 ∧
      (after .powerSequenceDelay (d (.railDelay 0x1E0 2))).pwr.step = .qualifying 2 ∧
      (after (.porNRelease 65 17) (after .porNAssert dv)).ctl.nodeId = 1 ∧
      (after (.porNRelease 65 17) (after .porNAssert dv)).ctl.feedId = 1 := by decide +kernel

theorem witness_ClocksHoldAndResume_hot :
    let held := dvPwr { refs := twoRefs ++ [(2, { ready := true })], hold := true, domains := [(4, { held := true })] } []
    let hot : Device := { held with gov := { hottest := 0x42C00000 } }
    accepts hot op0 Obj.clockResume 1 = true ∧ (List.range 9).all (fun n => hot.refReady (hot.domain n).ref) = true ∧
    flt 0x42BE_0000 hot.gov.hottest = true ∧ flt 0x42BE_0000 held.gov.hottest = false ∧ held.pwr.resuming = false ∧
    (after (.clockResume op0 1) held).pwr.resuming = true ∧
    (dvPwr { hold := true, resuming := true, domains := [(4, { held := true })] } []).pwr.resuming = true := by decide +kernel

theorem witness_PowerStatesFollowTheSequence_wakes :
    let off := dvPwr {} [(Obj.powerState, 3)]
    let low := dvPwr {} [(Obj.powerState, 2)]
    let on := dvPwr {} [(Obj.powerState, 1)]
    accepts off op0 Obj.powerRequest 1 = true ∧ off.pwr.hold = false ∧ off.pwr.step = .steady ∧
    (after (.powerRequestP1 op0) off).pwr.step = .railWait 1 3 ∧ accepts low op0 Obj.powerRequest 1 = true ∧
    (after (.powerRequestP1 op0) low).pwr.step = .railDelay 0xC 2 ∧ on.ms.dir.any (fun e => e.2.move != .settled) = false ∧
    (after (.powerRequestP2 op0) on).pwr.step = .saving 2 ∧ accepts on op0 Obj.powerRequest 2 = true := by decide +kernel

theorem witness_PowerStatesFollowTheSequence_rails :
    let d : PowerStep → Device := fun p => dvPwr { step := p, pwrEn := 0x1FF } [(Obj.powerState, 1)]
    (d (.saving 3)).pwr.step = .saving 3 ∧ (after .retentionSave (d (.saving 3))).pwr.step = .idling ∧
    (after .powerSequenceDelay (d .idling)).pwr.step = .railsOff 3 0 ∧
    (after .powerSequenceDelay (d (.railsOff 3 0))).pwr.step = .railsOff 3 1 ∧
    (after .powerSequenceDelay (d (.railsOff 3 3))).powerState = 3 ∧ (d (.railWait 1 3)).pwr.latched = none ∧
    dv.boot.porHigh = false ∧ (after (.vddAonDetect 600) dv).pwr.pwrEn = 0 := by decide +kernel

/-! ### Witnesses: coolant control and facility draw -/

/-- A governor that has sampled its dies. -/
def dvGov (j : Nat) (vs : List (Nat × Nat)) : Device := { dvWith vs with gov := { junction := [(0, j)], tModel := some 0x42480000 } }

theorem witness_SensorsFeedTheGovernor :
    maxInts ((validSensors ([[60000, 61000, 90000]].getD 0 [])).map (·.2)) = some 61000 ∧
    (0, (111000 : Int)) ∈ validSensors ([[111000, 110000]].getD 0 []) ∧ dv.gov.trip = false ∧
    (after (.dieSensorSample [[60000, 61000, 90000]] []) dv).get Obj.dieTempCd = 0x42740000 ∧
    (after (.dieSensorSample [[111000, 110000]] []) dv).pwr.hold = true := by decide +kernel

theorem witness_SensorsFeedTheGovernor_coolant :
    let bad := after (.thermistorSample 500000000 10000000) dv
    let apart := dvWith [(Obj.flowLpm, 0x40000000), (Obj.thOutC, 0x42480000), (Obj.thInC, 0x41F00000)]
    bit (bad.get Obj.sensorStatus) 0 = true ∧ bit (bad.get Obj.sensorStatus) 1 = false ∧
    bit ((after .coolantEnvelope (dvWith [(Obj.flowLpm, 0x40000000), (Obj.thInC, 0x41200000)])).get Obj.sensorStatus) 3 = true ∧
    (after .coolantHeatCheck { apart with gov := { mismatchS := 8 } }).gov.mismatchS = 9 ∧
    (after .coolantHeatCheck dv).gov.mismatchS = 0 ∧
    (after (.flowPulse 500000) (dvWith [(Obj.flowKPerL, 0x44700000)])).get Obj.flowLpm = 0x40000000 ∧
    bit ((after .flowTimeout dv).get Obj.sensorStatus) 2 = true := by decide +kernel

theorem witness_GovernorRunsEachMillisecond :
    let loading : Device := { dv with sec := { liveUpdate := some (2, 0) } }
    let idle := dvGov 0x42C80000 [(Obj.powerState, 1), (Obj.valveOverride, 500)]
    loading.sec.liveUpdate.map (fun y => y.1) = some 2 ∧ dv.sec.liveUpdate.map (fun y => y.1) ≠ some 2 ∧
    bits (idle.get Obj.sensorStatus) 0 3 = 0 ∧ (idle.get Obj.valveOverride ≠ 0xFFFF) ∧ dv.get Obj.valveOverride = 0xFFFF ∧
    (dvWith [(Obj.powerState, 2)]).powerState = 2 ∧ fle 0x42D20000 ((dvGov 0x42D40000 []).dieMeasured 0) = true ∧
    (dvGov 0x42D40000 [(Obj.powerState, 0)]).powerState = 0 ∧ idle.gov.junction ≠ [] := by decide +kernel

theorem test_governor_tick_keeps_p1 :
    (after .governorTick (dvGov 0x42C80000 [(Obj.powerState, 1), (Obj.valveOverride, 500)])).get Obj.valveDuty = 500 := by
  decide +kernel

/-! ### Witnesses: trust and start-up -/

/-- A device whose AON runs, before the fuses are read. -/
def dvPor : Device := { ({} : Device) with boot := { porHigh := true }, evqs := [] }

theorem witness_ImagesAreCheckedBeforeUse_boot :
    let differ : Device := { dvPor with sec := { dvPor.sec with fuseA := { seed := 1 } } }
    let read : Device := { dvPor with boot := { dvPor.boot with fusesRead := true } }
    let fuses : Device := { dvPor with sec := { dvPor.sec with fuseA := { debugLock := 0 }, fuseB := { debugLock := 0 } } }
    dvPor.boot.fusesRead = false ∧ dvPor.sec.bootFailed = false ∧ differ.sec.fuseA ≠ differ.sec.fuseB ∧
      fuses.sec.fuseA = fuses.sec.fuseB ∧ fuses.sec.fuseA.debugLock = 0 ∧ dvPor.sec.fuseA.debugLock ≠ 0 ∧
      bcrGood dvPor.sec.spiBcr0 = false ∧ bit dvPor.pwr.pwrGood 0 = false ∧
      (after .fuseDualRead differ).sec.failure = 1 ∧ read.slotCheck 0 ≠ 0 ∧ read.slotCheck 1 ≠ 0 ∧
      (after .bootSlotChecked read).sec.bootFailed = true := by decide +kernel

/-- An image of five empty components; its key is the identity point, under which its signature is known. -/
def image : Bytes :=
  leBytes 32 (fld imageMagic 0 + fld 1 32 + fld 3 64 + fld 5 96 + fld 256 192) ++
  (List.range 5).flatMap (fun c => leBytes 16 (fld c 0 + fld 256 32)) ++ List.replicate 48 0 ++ (1 :: List.replicate 95 0)

/-- A SERVICE session on port 0. -/
def svc0 : Req := ⟨.mailbox 0 0, true, 1⟩

/-- A device that knows the image's key and holds the image in slot B. -/
def dvImage : Device := { dv with
  ctl := { dv.ctl with auth := [(0, { session := some 0 })] }
  sec := { fuses := { roleMap := standardRoleMap, fwKeys := 1, stepping := 1, debugLock := 1 }, spiSlotB := image, slotMap := 31 } }

theorem witness_ImagesAreCheckedBeforeUse_slots : dvImage.slotCheck 1 = 0 ∧ dvImage.slotCheck 0 = 1 := by decide +kernel

theorem witness_ImagesAreCheckedBeforeUse_preferred :
    accepts dvImage svc0 Obj.preferredSlot 1 = true ∧ accepts dvImage svc0 Obj.preferredSlot 0 = true ∧
    accepts dvImage svc0 Obj.rollbackCommit 3 = true ∧ dvImage.runningSvn = 3 ∧ antiRollbackOf dvImage.sec.fuses = 0 ∧
    popCount (7 % 2 ^ 64 ||| dvImage.sec.fuseA.rollback) 64 = 3 ∧
    7 % 2 ^ 64 ||| dvImage.sec.fuseA.rollback ≠ 3 % 2 ^ 64 ||| dvImage.sec.fuseB.rollback ∧
    antiRollbackOf (after (.rollbackCommit svc0 3 7 7) dvImage).sec.fuses = 3 ∧ accepts dvImage svc0 Obj.rollbackCommit 0 = true ∧
    antiRollbackOf ({ dvImage with sec := { dvImage.sec with fuses := { dvImage.sec.fuses with rollback := 3 } } } : Device).sec.fuses = 2 ∧
    accepts ({ dvImage with sec := { dvImage.sec with fuses := { dvImage.sec.fuses with rollback := 3 } } } : Device) svc0
      Obj.rollbackCommit 1 = true ∧ accepts dvImage svc0 Obj.rollbackCommit 4 = true := by decide +kernel

theorem witness_ImagesAreCheckedBeforeUse_update :
    let d := withObject dvImage 7 (fastObject 0)
    let busy : Device := { d with sec := { d.sec with fwUpdate := some (7, 0) } }
    accepts d svc0 Obj.fwUpdate 7 = true ∧ d.entry 7 = some (fastObject 0) ∧ dvImage.entry (bits 9 0 32) = none ∧
    d.fwUpdateAtOnce 9 = some St.range ∧ busy.sec.fwUpdate = some (7, 0) ∧ d.readable 7 = true ∧
    accepts d svc0 Obj.fwUpdate 9 = true := by decide +kernel

theorem witness_ImagesAreCheckedBeforeUse_image :
    let d := (withObject { dvImage with sec := { dvImage.sec with fwUpdate := some (7, 0) } } 7 (fastObject 0)).writeBytes 7 0 image
    d.imageIn 7 = image ∧ Image.bytes (d.imageIn 7) ≤ 1 * blockBytes ∧ imageCheck d.sec.fuses image = 0 := by decide +kernel

theorem witness_ImagesAreCheckedBeforeUse_debug :
    accepts dvImage svc0 Obj.debugUnlock 1 = true ∧ dvImage.roleOf svc0 = some 2 ∧ dvImage.sec.fuses.debugLock < 2 ∧
    dvImage.runState = 0 ∧ dvImage.anyStream = false ∧ dvImage.sec.debugOpen = false ∧
    (after (.debugUnlock svc0 1) dvImage).sec.debugOpen = true := by decide +kernel

/-- A port whose DOE connection is negotiated. -/
def dvDoe (x : SpdmState) : Device := { dv with ports := [(0, { linkUp := true, spdm := x })] }

theorem witness_AttestationAnswers :
    (dv.port 0).linkUp = false ∧ ((dvDoe .version).port 0).linkUp = true ∧ ((dvDoe .version).port 0).spdm = .version ∧
    ((dvDoe .capabilities).port 0).spdm = .capabilities ∧ ((dvDoe .algorithms).port 0).spdm = .algorithms ∧
    (dvDoe .algorithms).sec.certOk = false ∧ (dvDoe .algorithms).measured 0 = some [11] ∧ (dvDoe .algorithms).ctl.serving = true := by
  decide +kernel

/-- The key of RFC 8032's first test and a message it signs. -/
theorem witness_AttestationAnswers_signed :
    edVerify (edPublic (List.replicate 32 1)) [0] (edSign (List.replicate 32 1) [0]) = true := by decide +kernel

/-- A device part of the way through start-up. -/
def dvBoot (b : Boot) (vs : List (Nat × Nat)) : Device := { dvWith vs with boot := b }

theorem witness_StartUpReachesReadiness_training :
    let d := dvBoot { partsStarted := true } []
    let w : Device := { dv with pwr := { step := .training 2 false true } }
    let all := 2 ^ 46 - 1
    (List.range 46).all (fun m => bit all m) = true ∧ d.ctl.serving = true ∧ d.boot.trained = false ∧ dv.boot.partsStarted = false ∧
    w.pwr.latched = none ∧ (after (.d2dTrainingDone all) w).powerState = 1 ∧
    dv.serialReady = false ∧ (after (.d2dTrainingDone all) w).net.trainDue.contains 95 = true ∧
    (dvBoot { trained := true } []).boot.hbmTrained = false ∧ bit 0xFE 0 = false ∧
    (after (.hbmTrainingDone 0xFE) (dvBoot { trained := true } [])).lostUnit 2 = true ∧
    moduleAccepted ⟨false, false, 0, 0, false, false⟩ = false ∧
    (dvBoot { trained := true, ddrTrained := true } []).boot.ddrTrained = true := by decide +kernel

theorem test_ddr_speed :
    let m : Module := ⟨true, true, 64, 8800, true, true⟩
    channelSpeed 8800 (List.replicate 14 m ++ [{ m with speed := 7200 }, m, m, ⟨false, false, 0, 0, false, false⟩]) = 7200 := by
  decide +kernel

theorem witness_StartUpReachesReadiness_test :
    let d := dvBoot { hbmTrained := true, ddrTrained := true, zeroed := 3 } [(Obj.selftestAtBoot, 1)]
    let r := dvBoot { hbmTrained := true, ddrTrained := true, zeroed := 3, selfTested := true } []
    d.slowReady = true ∧ d.boot.selfTested = false ∧ d.get Obj.selftestAtBoot = 1 ∧ r.boot.ready = false ∧
    (after (.selfTestDone 2 0 0) d).retired 0 1 = true ∧ (after .readiness r).get Obj.deviceState = 3 ∧
    bit 2 1 = true := by decide +kernel

theorem witness_StartUpReachesReadiness_reset :
    let due : Device := { dvWith [(Obj.fwdOperations, 5)] with svc := { resetDue := true } }
    let held : Device := { due with ctl := { due.ctl with held := [(0x801007, 100)] } }
    accepts dv op0 Obj.deviceReset 1 = true ∧ dv.isOperator op0 = true ∧ portOf op0 = some (dv.get Obj.conductorToken) ∧
    (dvWith [(Obj.conductorToken, 1)]).get Obj.conductorToken = 1 ∧ accepts (dvWith [(Obj.conductorToken, 1)]) op0 Obj.deviceReset 1 = true ∧
    accepts (dvWith [(Obj.runState, 2)]) op0 Obj.deviceReset 1 = true ∧ due.ctl.held = [] ∧
    (after (.warmReset 1 2) due).get Obj.fwdOperations = 5 ∧ (after (.warmReset 1 2) held).get 0x801007 = 100 := by decide +kernel

theorem witness_WatchersRestartThePair :
    let b : GenBinding := ⟨0, 0, 0, 0, 0, 0, 5⟩
    let d : Device := { dv with bindings := [b], run := { take := some { number := 1 } } }
    let r : Device := { dv with ctl := { dv.ctl with serving := false, restart := some 1, restartsBegun := 1, slots := [(2, { state := .pending })] } }
    let waits : Device := { dv with ctl := { dv.ctl with waiting := [⟨svc5, Op.write, Obj.runControl, Ty.u8, 3, none⟩, ⟨op0, Op.write, Obj.runControl, Ty.u8, 3, none⟩] } }
    (after .mgmtWatchdogExpiry waits).ctl.waiting.map (·.rq) = [svc5] ∧
    dv.ctl.serving = true ∧ dv.run.arm = none ∧ r.ctl.restart = some 1 ∧ (r.slot 0 2).state = .pending ∧
    ((after .mgmtRestartComplete r).slot 0 2).state = .done ∧ d.bindings = [b] ∧ 6 ≠ b.probe ∧
    (after (.generatorProbe [(0, 6)]) d).run.take.map (fun k => bit k.bits Hb.detectedFault) = some true ∧
    (after (.generatorProbe [(0, 5)]) d = d) := by decide +kernel

theorem witness_StartUpReachesReadiness_keeps :
    let held : Device := { dv with svc := { resetDue := true }, ctl := { dv.ctl with held := [(0x801007, 100)] } }
    (after (.warmReset 1 2) held).ctl.held = [(0x801007, 100)] ∧
    0x801007 ∉ [Obj.nodeId, Obj.feedId, Obj.fieldMac, Obj.debugState] ∧ dv.svc.resetDue = false ∧
    (∀ p a b, dv.pwr.step ≠ .training p a b) := by
  refine ⟨by decide +kernel, by decide +kernel, by decide +kernel, fun p a b h => ?_⟩
  have h : PowerStep.steady = .training p a b := h
  cases h

theorem witness_WatchersRestartThePair_stops :
    let down : Device := { dv with ctl := { dv.ctl with serving := false } }
    let again : Device := { dv with ctl := { dv.ctl with serving := false, restart := some 2, restartsBegun := 3 } }
    down.ctl.restart = none ∧ again.ctl.restart.isSome = true ∧ dv.versions = [] ∧ dv.ctl.restart = none ∧
    (after .lockstepMismatch dv).ctl.restart = some 1 ∧ (after .mgmtWatchdogExpiry dv).ctl.restart = some 2 ∧
    (after .mgmtWatchdogExpiry again).ctl.restartsBegun = 4 := by decide +kernel

/-! ### Witnesses: lost parts, clusters and service -/

/-- A device with service state, its standard placement. -/
def dvSvcOf (x : Svc) (vs : List (Nat × Nat)) : Device := { dvWith vs with svc := x }

theorem witness_ClustersAreServicedAndReplaced_commands :
    let full := dvWith [(Obj.retiredClusters, 2 ^ 16)]
    let tested := dvSvcOf { clusters := [(16, .tested)] } [(Obj.clusterSelect, 16)]
    accepts dv op0 Obj.clusterCommand 1 = true ∧ accepts dv op0 Obj.clusterCommand 2 = true ∧ accepts dv op0 Obj.clusterCommand 3 = true ∧
    dv.clusterState 0 = 0 ∧ dv.serviceBusy = false ∧ dv.freeCluster 0 = some 16 ∧ full.freeCluster 0 = none ∧
    full.clusterState 0 = 0 ∧ accepts full op0 Obj.clusterCommand 1 = true ∧ (dvWith [(Obj.runState, 1)]).serviceBusy = true ∧
    (dvWith [(Obj.clusterSelect, 16)]).clusterState 16 = 1 ∧ tested.clusterState 16 = 5 ∧
    selectedCluster (tested.get Obj.clusterSelect) = 16 ∧ accepts tested op0 Obj.clusterCommand 3 = true ∧
    (after (.clusterReturn op0) tested).clusterState 16 = 1 ∧ accepts (dvWith [(Obj.runState, 1)]) op0 Obj.clusterCommand 1 = true := by
  decide +kernel

theorem witness_ClustersAreServicedAndReplaced_ends :
    let drain := dvSvcOf { job := some ⟨3, 1, 16⟩ } []
    let test := dvSvcOf { job := some ⟨16, 2, 17⟩ } []
    let open_ : Device := { dv with run := { take := some { number := 1 } } }
    (after .drainComplete drain).placement 3 = 16 ∧ drain.logicalOf 3 = 3 ∧ drain.run.take = none ∧ drain.pwr.heldNodes = [] ∧
    test.retired (16 / 17) (16 % 17) = false ∧ (after (.clusterTestDone false) test).retired 0 16 = true ∧
    dv.retired 0 3 = false ∧ ((rangeFrom 0 16).filter (fun l => dv.placement l == 3)) = [3] ∧ dv.svc.substs = [] ∧
    (after (.clusterFault 0 3 1) open_).svc.substs = [(3, 16)] ∧ open_.named 0 3 = true ∧ open_.named 0 16 = false ∧
    (open_.freeCluster 0).isSome = true ∧ (after (.clusterFault 0 3 1) open_).run.rerun = true ∧
    (after (.clusterFault 0 16 1) open_).run.rerun = false ∧
    (after (.clusterFault 0 3 1) open_).run.take.map (·.latched.isSome) = some true ∧
    (after .substitutionComplete (dvSvcOf { substs := [(3, 16)] } [])).placement 3 = 16 := by decide +kernel

theorem witness_ClustersAreServicedAndReplaced_drained_stages :
    let on : Nat → Stage → Device := fun gate x =>
      { dvSvcOf { job := some ⟨3, 1, 16⟩ } [] with
        stages := [(7, x), (9, { x with core := 40 })], pwr := { heldNodes := if gate = 0 then [] else [gate] } }
    let x : Stage := { desc := 0, core := 26, pos := 1 }
    (on 0 x).clusterQuiet 3 = true ∧ (on 0 { x with fwd := some { stream := 0, seq := 0, take := 1 } }).clusterQuiet 3 = false ∧
    (on 0 x).logicalOf 3 = 3 ∧ (on 0 x).placement 3 = 3 ∧
    ((on 0 x).rebindCluster 3 16).map (fun d => d.stages.map (fun p => (p.2.core, p.2.pos))) = some [(130, 0), (40, 1)] ∧
    (on (gateNode 2 0 16 0 0) x).rebindCluster 3 16 = none ∧ (on (gateNode 2 0 16 0 0) x).run.take = none := by decide +kernel

theorem witness_PartsAreWatchedTestedAndUpdated_parts :
    let loading : Device := { dv with sec := { liveUpdate := some (1, 0) } }
    loading.sec.liveUpdate.map (fun x => x.1) = some 1 ∧ dv.sec.liveUpdate.map (fun x => x.1) ≠ some 1 ∧
    (after (.partHeartbeatMiss 3) dv).lostUnit 11 = true ∧ bit (dv.get Obj.d2dModuleMap) 45 = true ∧
    bit ((dvWith [(Obj.d2dModuleMap, 1)]).get Obj.d2dModuleMap) 5 = false ∧
    d2dConnections.find? (fun c => c.1 ≤ 45 && 45 < c.1 + c.2.1) = some (45, 1, .lapidary 1) ∧
    bits (clearBit (dv.get Obj.d2dModuleMap) 45) 45 1 = 0 ∧ bits (clearBit (dv.get Obj.d2dModuleMap) 0) 0 4 ≠ 0 ∧
    (after (.d2dModuleRetire 45) dv).lostUnit 1 = true ∧
    (after (.riskHoldExpiry 7) { dv with risk := { held := [(7, 2)] } }).get Obj.riskLevel = 0 := by decide +kernel

/-- A test-vector request for the file in an object on die 0's stand-in. -/
def tvReq (h : Nat) : Nat := fld h 0 + fld 16 34

theorem witness_PartsAreWatchedTestedAndUpdated_vectors :
    let d := withObject dvImage 7 (fastObject 0)
    let job : Device := { d with svc := { tv := some ⟨tvReq 7, 0, false⟩ } }
    accepts d svc0 Obj.tvRun (tvReq 7) = true ∧ accepts d svc0 Obj.tvRun (tvReq 9) = true ∧ d.entry (TvReq.handle (tvReq 9)) = none ∧
    TvReq.wrong (tvReq 7) = false ∧ d.entry (TvReq.handle (tvReq 7)) = some (fastObject 0) ∧
    (withObject dvImage 7 { fastObject 0 with lost := true }).entry (TvReq.handle (tvReq 7)) = some { fastObject 0 with lost := true } ∧
    (after (.tvRun svc0 (tvReq 9)) d).get Obj.tvResult = fld St.range 0 + fld 0xFFFFFFFF 96 ∧
    TvReq.wrong (2 ^ 44) = true ∧ job.svc.tv = some ⟨tvReq 7, 0, false⟩ ∧
    bits ((after .tvRunDone job).get Obj.tvResult) 32 32 = 0 ∧ accepts d svc0 Obj.tvRun (2 ^ 44) = true := by decide +kernel

theorem witness_PartsAreWatchedTestedAndUpdated_update :
    let up : Device := { dvImage with sec := { dvImage.sec with slotMap := 0 } }
    accepts up svc0 Obj.liveUpdate (fld 2 0 + fld 1 8) = true ∧ accepts up svc0 Obj.liveUpdate (fld 0 0 + fld 1 8) = true ∧
    up.slotCheck 1 = 0 ∧ up.slotCheck 0 ≠ 0 ∧ up.updatable 2 = true ∧ up.sec.liveUpdate = none ∧ up.svc.resetDue = false ∧
    up.get Obj.powerTransition = 0 ∧ up.slotOf 2 ≠ 1 ∧ dvImage.slotOf 2 = 1 ∧
    (after .liveUpdateDone (after (.liveUpdate svc0 (fld 2 0 + fld 1 8)) up)).slotOf 2 = 1 := by decide +kernel

/-- A file of one record: a BF16 zero converted to itself. -/
def tvFile : Bytes :=
  leBytes 64 (fld 0x46565451 0 + fld 1 32 + fld 128 48 + fld 1 64 + fld Fmt.bf16 80 + fld Fmt.none 88 + fld Fmt.bf16 96 + fld 1 128 +
    fld 24 160 + fld 2 224 + fld 2 288) ++ sha512 (List.replicate 24 0) ++ List.replicate 24 0

theorem witness_PartsAreWatchedTestedAndUpdated_file :
    ((withObject dvImage 7 (fastObject 0)).writeBytes 7 0 tvFile).tvChecks (tvReq 7) false = St.ok := by decide +kernel

theorem witness_ClustersAreServicedAndReplaced_moves :
    let held := dvSvcOf { job := some ⟨3, 1, 5⟩ } []
    let sub : Device := { dvSvcOf { substs := [(3, 16)] } [] with
      stages := [(9, { desc := 7, core := 3 * 8 + 2, version := some 4 })] }
    let shut : Device := { sub with pwr := { heldNodes := [1] } }
    held.freeCluster 0 = some 16 ∧ (after (.clusterFault 0 5 1) held).svc.job = some ⟨3, 1, 16⟩ ∧
    (tget sub.stages 9).map (·.core / 8) = some (sub.placement 3) ∧ sub.pwr.heldNodes = [] ∧
    (tget (after .substitutionComplete sub).stages 9).map (fun y => (y.core, y.version, y.desc)) = some (16 * 8 + 2, none, 7) ∧
    shut.heldOn ((corePath 0 16 0).take 3) = true ∧ (after .substitutionComplete shut).svc.substs = [] ∧
    (after .substitutionComplete shut).placement 3 = 3 ∧
    (dvSvcOf { job := some ⟨16, 2, 17⟩ } [(Obj.retiredClusters, 2 ^ 16)]).retired 0 16 = true := by decide +kernel

theorem witness_PartsAreWatchedTestedAndUpdated_loading :
    let y : Sec := { liveUpdate := some (1, 0), liveSince := 7 }
    let early : Device := { dv with sec := y, micros := 500007 }
    let late : Device := { dv with sec := y, micros := 500008 }
    early.micros ≤ early.sec.liveSince + 500000 ∧ late.sec.liveSince + 500000 < late.micros ∧
    (after (.partHeartbeatMiss 0) early).lostUnit 0 = false ∧ (after (.partHeartbeatMiss 0) late).lostUnit 0 = true ∧
    ({ dv with svc := { tv := some ⟨tvReq 9, 0, false⟩ } } : Device).entry (TvReq.handle (tvReq 9)) = none := by decide +kernel

/-! ### Witnesses: the host interface -/

/-- EVQ_CONFIG as R392 lays it out. -/
def evqc (en cap mask vec : Nat) : Nat := fld en 0 + fld cap 16 + fld mask 32 + fld vec 64

/-- The device with the event queues of reset. -/
def dvR : Device := { dv with evqs := [(0, evqAtReset), (128, evqAtReset)] }

/-- The device with one event queue as given. -/
def dvEvq (q : Nat) (e : Evq) : Device := { dv with evqs := tset dv.evqs q e }

theorem witness_EventQueueConfigFollowsR392 :
    accepts dv op0 (Obj.evqConfig + 1) (evqc 1 16 0xFF 300) = true ∧ accepts dv op0 (Obj.evqConfig + 129) (evqc 1 16 0xFF 300) = true ∧
    accepts dvR op0 Obj.evqConfig (evqc 1 1024 1 300) = true ∧ accepts dvR op0 Obj.evqConfig (evqc 0 1024 1 300) = true ∧
    (dvR.evq 0).enable = true ∧ (dv.evq 1).enable = false ∧
    (dvEvq 1 { enable := true, capacity := 16 }).evqCellsHeld + 16384 > 16384 ∧
    ((dvEvq 1 { enable := true, capacity := 16 }).evq 1).enable = true := by decide +kernel

theorem witness_EventQueueWindowPops :
    let item : Evq := { enable := true, capacity := 4, w := 1, wLate := 1, cells := [(0, ⟨0, 77⟩)] }
    ((dvEvq 3 item).evq (128 * 0 + 3)).h < ((dvEvq 3 item).evq (128 * 0 + 3)).wLate ∧ tget item.cells (0 % 4) = some ⟨0, 77⟩ ∧
    (dv.evq (128 * 1 + 5)).enable = false ∧ (dvR.evq 128).enable = true ∧ (dvR.evq 128).w = (dvR.evq 128).h := by
  decide +kernel

/-- The device with one DMA queue as given. -/
def dvDma (q : DmaQueue) : Device := { dv with ports := [(0, { queues := [(2, q)] })] }

/-- A running queue with one descriptor posted. -/
def dvPosted (x : Nat) : Device := dvDma { state := .running, sizeLog2 := 4, posted := [x] }

/-- A descriptor of R380. -/
def descr (op handle len : Nat) : Nat := fld op 0 + fld handle 32 + fld 4096 128 + fld len 192



theorem witness_DmaQueuesStartPostAndStop_control :
    let v := fld 4 1 + fld 64 16
    dmaControlOk (setBit v 0) = true ∧ dmaControlOk (clearBit v 0) = true ∧ dmaControlOk (setBit 0 0) = false ∧
    ((dvDma {}).dmaq 0 2).state ≠ .running ∧ ((dvDma { state := .running }).dmaq 0 2).state = .running ∧
    ((dvDma { state := .stopped, stopCause := 3 }).dmaq 0 2).stopCause = 3 := by decide +kernel

theorem witness_DmaQueuesStartPostAndStop_doorbells :
    let d := dvDma { state := .running, sizeLog2 := 4, sqTail := 15 }
    (d.dmaq 0 2).state = .running ∧ (d.dmaq 0 2).draining = false ∧ 1 < 2 ^ (d.dmaq 0 2).sizeLog2 ∧
    [0, 0].length = (1 + 2 ^ (d.dmaq 0 2).sizeLog2 - (d.dmaq 0 2).sqTail) % 2 ^ (d.dmaq 0 2).sizeLog2 := by decide +kernel

/-- What `nextDescriptor` asks of the queue, as a check. -/
def nextCheck (d : Device) (op x : Nat) : Bool :=
  (d.dmaq 0 2).state == .running && (d.dmaq 0 2).draining == false && (d.dmaq 0 2).taken == [] &&
    decide ((d.dmaq 0 2).cqUsed < 2 ^ (d.dmaq 0 2).sizeLog2) && (d.dmaq 0 2).posted == [x] && descOp x == op

theorem witness_DescriptorsCarryTheirBytes :
    (nextCheck (dvPosted (descr 0 0 0)) 0 (descr 0 0 0) = true ∧ descReserved (descr 0 0 0) = false) ∧
    ([1, 2, 3].all (fun op => nextCheck (withObject (dvPosted (descr op 4 2)) 4 (fastObject 5)) op (descr op 4 2) &&
      (withObject (dvPosted (descr op 4 2)) 4 (fastObject 5)).descCheck 0 (descr op 4 2) == none) = true) ∧
    (dvPosted (descr 1 4 2)).descCheck 0 (descr 1 4 2) = some St.range ∧ (fastObject 5).needsSupply = false := by
  decide +kernel

/-- What the descriptors leave: the bytes that land, and what goes to the host. -/
theorem test_toObject_lands : memGet (after (.toObject 0 2 [9, 8]) (withObject (dvPosted (descr 1 4 2)) 4 (fastObject 5))).ms.mem
    (addrOf 4 1) = 8 := by decide +kernel
theorem test_toHost_sends : (after (.toHost 0 2) (withObject (dvPosted (descr 2 4 2)) 4 (fastObject 5))).out =
    [.hostWrite 0 4096 true [0, 0]] := by decide +kernel

theorem witness_CompletionIsWrittenInRingOrder :
    let d := dvDma { state := .running, sizeLog2 := 4, cqTail := 15, taken := [{ index := 3, desc := 32, status := some St.ok }] }
    (d.dmaq 0 2).taken = [{ index := 3, desc := 32, status := some St.ok }] ∧ (d.dmaq 0 2).posted = [] ∧
    ((after (.descriptorComplete 0 2) d).dmaq 0 2).phase = false ∧
    (after (.descriptorComplete 0 2) d).out.head? = some (.msix 0 64) := by decide +kernel

/-- An aperture of port 0 that maps an object, for reads and writes. -/
def dvWindow (h : Nat) (e : DirEntry) : Device :=
  withObject { dv with ports := [(0, { apertures := [(1, fld h 0 + fld 1 32)] })] } h e

theorem witness_Bar2ReadsAndWritesObjects :
    let d := dvWindow 4 (fastObject 5)
    let moving := dvWindow 4 { fastObject 5 with move := .demoting }
    d.bar2Bad 0 1 8 4 false = false ∧ d.entry (bits (d.aperture 0 1) 0 32) = some (fastObject 5) ∧
    (moving.bar2Bad 0 1 8 4 false = false ∧ moving.entry (bits (moving.aperture 0 1) 0 32) = some { fastObject 5 with move := .demoting }) ∧
    dv.bar2Bad 0 1 8 4 false = true ∧ dv.bar2Bad 0 1 8 2 true = true ∧ d.bar2Bad 0 1 8 2 true = false ∧
    d.ringDenied 0 4 = false ∧ d.guardedObject 4 = false ∧
    memGet (after (.bar2Write 0 1 8 [5, 6]) d).ms.mem (addrOf 4 9) = 6 := by decide +kernel

theorem witness_PortEventsActOnTheirPort :
    let up : Device := { dv with ports := [(1, { linkUp := true, queues := [(0, { state := .running })] })] }
    (up.port 1).linkUp = true ∧ (up.dmaq 1 0).state = .running ∧ (after (.pcieLinkDown 1) up).port 0 = up.port 0 ∧
    ((after (.pcieHotReset 1) up).dmaq 1 0).stopCause = 3 := by decide +kernel

/-- A ring in the fast tier. -/
def dvRing (kind prod cons : Nat) : Device := (withObject dv 6 (fastObject 0)).writeBytes 6 0 (ringHead kind 4 prod cons)

theorem witness_RingCountsMoveForward :
    (dvRing 0 5 3).countReaches 0 6 = true ∧ (dvRing 0 5 3).ringKind 6 ≤ 1 ∧ (dvRing 0 5 3).ringProducer 6 = 5 ∧
    (dvRing 0 5 3).ringConsumer 6 + (dvRing 0 5 3).ringEntries 6 = 19 ∧
    (dvRing 2 5 3).countReaches 1 6 = true ∧ (dvRing 2 5 3).ringKind 6 = 2 ∧
    (after (.ringProducer 0 6 19) (dvRing 0 5 3)).ringProducer 6 = 19 ∧
    (after (.ringProducer 0 6 20) (dvRing 0 5 3)).ringProducer 6 = 5 ∧
    (after (.ringConsumer 0 6 5) (dvRing 2 5 3)).ringConsumer 6 = 5 := by decide +kernel

theorem witness_CommandsLeaveOtherPartsAlone_host : after (.evqPop 0 0) dv ≠ dv ∧ after (.pcieFlr 0) (dvWindow 4 (fastObject 5)) ≠ dv := by
  decide +kernel

/-- The clocks of a part held: its memory is in self-refresh. -/
def asleep (d : Device) : Device := { d with pwr := { d.pwr with hbmSelf := true } }

theorem witness_DescriptorsCarryTheirBytes_waits :
    let d := asleep (withObject (dvPosted (descr 1 4 2)) 4 (fastObject 5))
    (withObject (dvPosted (descr 1 4 2)) 4 (fastObject 5)).answers 2 = true ∧ d.answers 2 = false ∧
    nextCheck d 1 (descr 1 4 2) = true ∧ d.descCheck 0 (descr 1 4 2) = none ∧
    ((after (.toObject 0 2 [9, 8]) d).dmaq 0 2).taken.map (fun y => (y.status, y.bytes)) = [(none, 0)] := by decide +kernel

theorem witness_Bar2ReadsAndWritesObjects_waits :
    let d := asleep (dvWindow 4 (fastObject 5))
    let lost := dvWindow 4 { fastObject 5 with lost := true }
    let fresh := dvWindow 4 { fastObject 5 with lost := true, move := .resupply }
    d.answers 2 = false ∧ d.bar2Bad 0 1 8 4 false = false ∧ lost.bar2Bad 0 1 8 4 false = false ∧
    fresh.bar2Bad 0 1 8 4 false = false ∧ (after (.bar2Read 0 1 8 4) lost).out.head? = some (.completerAbort 0) ∧
    (after (.bar2Read 0 1 8 4) fresh).out = [] ∧ ((after (.bar2Read 0 1 8 4) d).port 0).heldAccess.length = 1 ∧
    ((after (.bar2WaitExpiry 0) (after (.bar2Read 0 1 8 4) d)).port 0).bar2Failed = 1 ∧
    (fastObject 5).hostRo = false := by decide +kernel

theorem witness_CompletionIsWrittenInRingOrder_drains :
    let d := dvDma { state := .running, draining := true, sizeLog2 := 4,
                     taken := [{ index := 3, desc := 0, status := some St.ok }] }
    (d.dmaq 0 2).draining = true ∧ ((after (.descriptorComplete 0 2) d).dmaq 0 2).state = .disabled := by decide +kernel

theorem witness_RingCountsMoveForward_admission :
    (tget { dv with streams := [(3, { desc := 0 })] }.streams 3).map (·.samples.length) = some 0 ∧
    ({ dv with streams := [(3, { desc := 0 })] } : Device).ringProducer 0 ≤ 0 := by decide +kernel

theorem witness_CommandsLeaveOtherPartsAlone_forward : dv.versions = [] ∧ 0 < dv.get Obj.statsSlots ∧
    dv.get Obj.statsSlots * dv.slotBytes ≤ 2 ^ 32 ∧ dv.ms.dir = [] := by decide +kernel

/-! ### Witnesses: the engines -/

/-- A descriptor by its fields (first bit, value), its digest left out: a layer 5 of 2 inputs and 1 output in TERNARY weights
and INT8 activations, one token an operation. -/
def engineDesc (fs : List (Nat × Nat)) : Nat :=
  let base : List (Nat × Nat) := [(64, 5), (104, 0x13), (192, 4), (520, 0x17), (528, 0x13), (560, 1), (576, 2), (592, 1), (1248, 8)]
  (base ++ fs).foldl (fun v f => v + fld f.2 f.1) 0

/-- A device with one stage, take 1 open. -/
def dvEngine (x : Stage) (vs : List (Nat × Nat)) : Device :=
  { dvWith ((Obj.runState, 3) :: vs) with stages := [(3, x)], run := { take := some { number := 1 } } }

/-- The forward of a sample of two tokens, its rows 2 and −4 long at the vector program's end. -/
def fwdRows : Fwd :=
  { stream := 0, seq := 0, take := 1, tokens := 2, input := [[0x40000000, 0xC0800000], [0, 0]]
    rows := [(0, [0x40000000, 0xC0800000])] }

def fwdStage (fs : List (Nat × Nat)) (w : Fwd) : Stage := { desc := engineDesc fs, rowCount := 65, fwd := some w }

/-- The cells of some bytes of an object. -/
def cells (h : Nat) (bs : Bytes) : List Host.Cell :=
  ((List.range bs.length).zip bs).filterMap (fun p => if p.2 = 0 then none else some (addrOf h p.1, p.2))

/-- An input ring at object 6 with one entry: 2 tokens of object 7. -/
def dvInput (serving : Bool) (len : Nat) : Device :=
  let e := fld 9 0 + fld 7 64 + fld 2 96 + fld len 192 + fld 0xFFFF_FFFF 224
  let todo : List (Nat × Nat) := if serving then [(2, 0)] else []
  let d := dvEngine { desc := engineDesc [(40, serving.toNat), (46, 1), (1312, 6)], todo := todo } []
  { withObject (withObject d 6 (fastObject 0)) 7 (fastObject 0) with
    ms := { (withObject (withObject d 6 (fastObject 0)) 7 (fastObject 0)).ms with
      mem := cells 6 (ringHead 0 4 1 0 ++ leBytes 64 e) ++ cells 7 [2, 252] }
    streams := [(2, { desc := 0, samples := [{ seq := 0, entry := e }] })] }

theorem witness_ForwardWorkFollowsItsRules_input :
    let d := dvInput false 4
    let x := (tget d.stages 3).getD { desc := 0 }
    let e := d.ringEntry 6 (d.ringConsumer 6 + 0)
    x.free = true ∧ Desc.laneFirst x.desc = true ∧ d.nextSample x = some (0, 0) ∧ d.runState = 3 ∧
    d.ringConsumer 6 + 0 < d.ringProducer 6 ∧ d.takeEnds 6 0 = false ∧ d.entryOk x.desc e = true ∧ d.ringsAgree e 0 = true ∧
    d.unreadable (bits e 64 32 :: targetObject x.desc e) = none ∧ d.replayHolds 0 = false ∧ d.replayRefuses 0 = false ∧ 0 < Desc.outChannels x.desc ∧
    (d.loadRows x.desc e).1 = [[0x40000000, 0xC0800000], [0, 0]] ∧
    (fwdOf (after (.inputSampleTake 3) d) 3).map (·.input) = some [[0x40000000, 0xC0800000], [0, 0]] ∧
    (after (.inputSampleTake 3) (dvInput false 5)).run.take.map (·.refused) = some [0] ∧ fwdOf dv 3 = none := by
  decide +kernel

theorem witness_ForwardWorkFollowsItsRules_serving :
    let d := dvInput true 4
    let x := (tget d.stages 3).getD { desc := 0 }
    let e := d.entryOf 2 0
    x.free = true ∧ Desc.laneFirst x.desc = true ∧ d.nextSample x = some (2, 0) ∧ d.entryOk x.desc e = true ∧
    d.unreadable (bits e 64 32 :: targetObject x.desc e) = none ∧ (dvInput true 5).entryOk x.desc ((dvInput true 5).entryOf 2 0) = false ∧
    ((dvInput true 5).sampleOf 2 0).isSome = true ∧
    ((after (.inputSampleTake 3) (dvInput true 5)).sampleOf 2 0).bind (·.ending) = some ⟨St.range, 0, 0xFF⟩ ∧
    (fwdOf (after (.inputSampleTake 3) d) 3).map (·.stream) = some 2 := by decide +kernel

theorem witness_ForwardWorkFollowsItsRules_rows :
    let x := fwdStage [] fwdRows
    let d := dvEngine x []
    let v := fwdStage [(42, 1)] { fwdRows with rows := [] }
    tget d.stages 3 = some x ∧ tget fwdRows.rows 1 = none ∧ d.halts x = false ∧ d.unreadable (programObject x.desc) = none ∧ Desc.vector x.desc = false ∧
    Desc.vector v.desc = true ∧ (tset ({ fwdRows with rows := [] } : Fwd).rows 1 [0, 0]).length ≠ 2 ∧
    (fwdOf (after (.vectorProgramRow 3 1) d) 3).map (·.rows) = some [(0, [0x40000000, 0xC0800000]), (1, [0, 0])] ∧
    (fwdOf (after (.vectorProgramRow 3 0) (dvEngine v [])) 3).map (fun w => tget w.out 0) = some (some [0x4000, 0xC080]) := by
  decide +kernel

/-- Rows 2 and −4 quantise at 4/127 as 64 and −127 (R111), the tag being the row count 65 mod 64. -/
theorem witness_ForwardWorkFollowsItsRules_quantiser :
    let x := fwdStage [] fwdRows
    let d := dvEngine x []
    quantised x.desc = true ∧ Desc.learned x.desc = false ∧ tget fwdRows.codes 0 = none ∧ fwdRows.codes.length = 0 ∧
    (fwdOf (after (.quantiseRow 3 0) d) 3).map (fun w => tget w.codes 0) = some (some [64, 129]) ∧
    (fwdOf (after (.quantiseRow 3 0) d) 3).map (fun w => (tget w.scales 0).map ScaleWord.ofNat) =
      some (some ⟨0x3D010204, 0, 1, 0x13, 0⟩) := by decide +kernel

/-- A clip block of one token at the scale 2^−6: 2 and −4 clip at k = 0 and only −4 at k = 1, which CLIP_LIMIT 1 meets (R130). -/
theorem witness_ForwardWorkFollowsItsRules_clip :
    let x := { fwdStage [(666, 1), (672, 9), (688, 1), (832, 1)] fwdRows with version := some 0 }
    let d := { withObject (dvEngine x []) 8 (fastObject 0) with scaleRegs := [(9, (ScaleWord.mk 0x3C800000 0 0 0x13 0).toNat)] }
    quantised x.desc = true ∧ Desc.learned x.desc = true ∧ clipTokens x.desc 2 0 = [0] ∧ d.halts x = false ∧
    (d.atGate 3 x fwdRows).1 = true ∧ scaleOk ((d.atGate 3 x fwdRows).2.learnedScale x 0) = true ∧
    (clipK 1 (d.clipCounts x [(0, [0x40000000, 0xC0800000])] (fun n => (d.actModes 3 x fwdRows n).1))).1 = 1 ∧
    (after (.clipBlockQuantise 3 0) d).get Obj.clipRescaleK1 = 1 ∧
    (fwdOf (after (.clipBlockQuantise 3 0) d) 3).map (fun w => tget w.codes 0) = some (some [64, 129]) := by decide +kernel

/-- The same stage with its codes, its working copy and the scale words of the version. -/
def fwdCodes : Fwd := { fwdRows with codes := [(0, [64, 129])], scales := [(0, (ScaleWord.mk 0x3D010204 0 1 0x13 0).toNat)] }
def dvOp (x : Stage) : Device :=
  { withObject (dvEngine x []) 8 (fastObject 0) with scaleRegs := [(0, (ScaleWord.mk 0x3F800000 0 0 0x17 0).toNat)] }

theorem witness_ForwardWorkFollowsItsRules_issue :
    let x := fwdStage [] fwdCodes
    let d := dvOp { x with version := some 0 }
    let waits := { d with run := { d.run with updates := [(0, 5, 0)] } }
    outTiles x.desc = 1 ∧ blockTokens x.desc 2 0 = [0] ∧ d.arrayBusy 0 = false ∧ d.coreHeld 0 = false ∧ d.gatePasses 5 = true ∧
    d.weightsFor x fwdCodes = (8, 0, 0) ∧ d.ready 8 = true ∧ x.fetching = false ∧ waits.gatePasses 5 = false ∧
    (after (.fwdTileOpIssue 3 0 0) waits).get Obj.versionGateWaits = 1 ∧
    (tget (after (.fwdTileOpIssue 3 0 0) d).stages 3).map (·.op) = some (some (0, 0)) := by decide +kernel

theorem witness_ForwardWorkFollowsItsRules_complete :
    let x := { fwdStage [] fwdCodes with op := some (0, 0) }
    let d := dvOp x
    let tiles := [d.wTile x 8 0 0]
    d.marked [8] = none ∧ inTiles x.desc = 1 ∧ d.tagFault x 0 0 tiles = none ∧
    ({ d with scaleRegs := [] } : Device).tagFault x 0 0 tiles = some (8, 0, 0) ∧
    (after (.fwdTileOpComplete ⟨3, []⟩) { d with scaleRegs := [] }).get Obj.scaleSkewCount = 1 := by decide +kernel

theorem witness_ForwardWorkFollowsItsRules_more : moreOps (engineDesc []) fwdCodes 0 0 :=
  ⟨0, 1, by decide +kernel, by decide +kernel, by decide +kernel, by decide +kernel⟩

/-- A PAIRWISE stage of the side unit: rows (2, −4) by columns (1, 0.5) give 2 × 1 − 4 × 0.5 = 0. -/
theorem witness_ForwardWorkFollowsItsRules_side :
    let w := { fwdRows with input2 := [[0x3F800000], [0x3F000000]] }
    let x := fwdStage [(42, 2), (512, 2)] w
    let d := dvEngine x []
    Desc.side x.desc = true ∧ Desc.vector x.desc = false ∧ Desc.linear x.desc = false ∧ x.fetching = false ∧
    d.run.wcCounts = [] ∧ (fwdOf (after (.sideTileOpComplete 3 0 0) d) 3).map (fun w => tget w.out 0) = some (some [0]) := by
  decide +kernel

/-- A layer entry whose masters are object 12. -/
def layerOf (fs : List (Nat × Nat)) : Nat :=
  let base : List (Nat × Nat) := [(0, 5), (80, 2), (96, 1), (128, 12)]
  (fs ++ base).foldl (fun v f => v + fld f.2 f.1) 0

theorem witness_ForwardWorkFollowsItsRules_dailies :
    let x := { fwdStage [] fwdRows with dailies := [(0, [0x40000000, 0xC0800000], [0x3F800000])] }
    let d := dvEngine x []
    let named := { withObject d 12 (fastObject 1) with run := { d.run with layers := [layerOf []] } }
    d.names noObject = false ∧ named.names 12 = true ∧ fIsFinite (named.reference 12 (engineDesc []) [0x40000000, 0xC0800000] 0).1 = true ∧
    d.sideTurn 0 = some 0 ∧ d.coreWants 0 = false ∧ d.dailyWants x = true ∧ named.dailyWants x = true ∧ named.sideTurn 0 = some 0 ∧ named.masterBad 12 = false ∧
    (after (.dailiesReferenceComplete 3) d).run.take.map (·.skipped) = some 1 ∧
    (after (.dailiesReferenceComplete 3) named).run.take.map (fun k => (k.tiles, k.overTol)) = some (1, 1) := by decide +kernel

/-- A training stage that sends gradients below and has one line from layer 6's stage 4. -/
def bwdStage (fs : List (Nat × Nat)) (x : Stage) : Stage := { x with desc := engineDesc ([(896, 0), (901, 1)] ++ fs) }
def dvBwd (x : Stage) : Device :=
  let y : Stage := { desc := engineDesc [(896, 0), (901, 1)] - fld 5 64 + fld 6 64 }
  { withObject (dvEngine x []) 8 (fastObject 0) with stages := [(3, x), (4, y)] }

theorem witness_BackwardWorkFollowsItsRules_receive :
    let fs := [(0xB0 * 8 + 128, 6), (0xB0 * 8 + 160, 2 ^ 96 - 1), (0xB0 * 8, 2 ^ 128 - 1)]
    let g : GradIn := { sender := 4, seq := 0, take := 1, tag := 0, count := 0, rows := [[0], [0]] }
    let x := bwdStage fs { desc := 0, gradIn := [g] }
    let a := bwdStage ((1088, 7) :: (900, 1) :: fs) { desc := 0, gradIn := [g], anchor := true, stash := [(0, [[0, 0], [0, 0]])] }
    let d := dvBwd x
    let da := withObject { dvBwd a with ctl := (dvBwd a).ctl } 7 (fastObject 0)
    d.nextGrad 3 x = some [g] ∧ x.anchor = false ∧ da.nextGrad 3 a = some [g] ∧ da.stashReady a = true ∧
    sendsBack a = true ∧ Desc.vector a.desc = false ∧ Desc.wgrad a.desc = true ∧
    (da.queueOf 0).length + 1 ≤ da.get Obj.deferredDepth ∧
    (bwdOf (after (.gradientLineReceive 3) d) 3).map (fun w => (w.seq, w.input)) = some (0, none) ∧
    ((after (.gradientLineReceive 3) da).queueOf 0).length = 1 ∧
    dv.nextGrad 3 { desc := 0 } = none := by decide +kernel

/-- A backward whose input the stage does not have. -/
def bwdWaits : Bwd := { seq := 0, take := 1, tokens := 2, grads := [[[0], [0]]] }
def bwdReadyW : Bwd := { bwdWaits with input := some [[0, 0], [0, 0]] }

theorem witness_BackwardWorkFollowsItsRules_recompute :
    let x := bwdStage [(0xB0 * 8, 2 ^ 256 - 1), (1824, 5)] { desc := 0, bwd := some bwdWaits, stash := [(0, [[0, 0], [0, 0]])] }
    let a := { x with anchor := true }
    let low : Stage := { desc := engineDesc [(1088, 8)], anchor := true, stash := [(0, [[0, 0], [0, 0]])] }
    let d := dvBwd { a with desc := a.desc + fld 3 112 }
    let two := { d with stages := d.stages ++ [(5, low)] }
    bwdWaits.input = none ∧ Desc.vector x.desc = false ∧ sendsBack x = true ∧
    (bwdOf (after (.recomputePass 3) (dvBwd x)) 3).map (·.input) = some (some [[0, 0], [0, 0]]) ∧
    (dvBwd a).lowerAnchor a 0 = none ∧ (after (.stashDeadlineMiss 3) (dvBwd a)).get Obj.firstAnchorStalls = 1 ∧
    (two.lowerAnchor { a with desc := a.desc + fld 3 112 } 0).isSome = true ∧
    (after (.stashDeadlineMiss 3) two).get Obj.stashLate = 1 := by decide +kernel

theorem witness_BackwardWorkFollowsItsRules_items :
    let it : WItem := { stage := 3, bindPos := 0, kind := 0, sample := 0, tile := 0, tokens := 2, work := bwdReadyW }
    let x := bwdStage [(512, 2), (1120, 8)] { desc := 0 }
    let d := { dvBwd x with deferred := [(0, [it])] }
    d.nextItem 0 = some 0 ∧ d.coreStopped 0 = false ∧ (d.queueOf 0)[0]? = some it ∧ quantised x.desc = false ∧ d.net.colls = [] ∧
    Memory.wf d.ms.mem = true ∧ (after (.wgradItemComplete 0) d).get Obj.deferredItems = 1 ∧
    dv.nextItem 0 = none := by decide +kernel

theorem witness_BackwardWorkFollowsItsRules_gradients :
    let x := bwdStage [] { desc := 0, bwd := some bwdReadyW, origins := [(0, [4])] }
    let p := bwdStage [(42, 2), (512, 2)] { desc := 0, bwd := some { bwdReadyW with input2 := [[0], [0]], done := [(0, 1)] } }
    let side := bwdStage [(512, 2)] { desc := 0, bwd := some { bwdReadyW with done := [(0, 1)] } }
    let d := { dvBwd x with scaleRegs := [(0, (ScaleWord.mk 0x3F800000 0 0 0x17 0).toNat)] }
    let dp : Device := { dvBwd p with issue := [(0, { holder := some 3 })] }
    sendsBack x = true ∧ Desc.pairwise x.desc = false ∧ inTiles x.desc = 1 ∧ d.ready 8 = true ∧ x.veinsUsed = [] ∧
    Desc.side x.desc = false ∧ (d.tagFault x 0 0 [d.wTile x 8 0 0]) = none ∧ Desc.pairwise p.desc = true ∧
    (({ d with scaleRegs := [] } : Device).tagFault x 0 0 [d.wTile x 8 0 0]).isSome = true ∧ Desc.side side.desc = true ∧
    p.itemCount ≤ bwdReadyW.pushed ∧ dp.itemsFirst 0 = false ∧ (dp.unitOf 0).holder = some 3 ∧
    bwdOf (after (.igradTileOpComplete 3 0 0) dp) 3 = none := by decide +kernel

theorem witness_BackwardWorkFollowsItsRules_more : moreGrads (engineDesc []) bwdReadyW 0 0 :=
  ⟨0, 1, by decide +kernel, by decide +kernel, by decide +kernel, by decide +kernel⟩

/-- A device of a job of `n` devices at rank `r`, take 1 open and all its work done. -/
def dvJob (r n : Nat) (t : Take) : Device :=
  { dvWith [(Obj.runState, 3), (Obj.jobRank, r), (Obj.jobSize, n), (Obj.verdictFanout, 2)] with
    run := { take := some t } }

def wordMsg (src id take : Nat) : Msg := ⟨src, 0xFFFF, id, take, 0, 0, 0, false, leBytes 8 (2 ^ 2 + fld src 48)⟩

theorem witness_TakesEndAndLayersUpdate_latch :
    let t : Take := { number := 1, bits := 2 ^ 2 }
    let d := dvJob 1 2 t
    let root := dvJob 0 1 t
    d.takeDone = true ∧ d.pwr.hold = false ∧ d.net.colls = [] ∧ d.verdictTarget = some 0 ∧ root.verdictTarget = none ∧
    root.myReporters.1 = [] ∧ root.takeDone = true ∧
    (after .localHealthLatch d).run.take.map (·.latched) = some (some (2 ^ 2 + fld 1 48)) ∧
    (after .localHealthLatch root).run.take = none ∧ (after .localHealthLatch root).get Obj.healthTake = 1 := by decide +kernel

theorem witness_TakesEndAndLayersUpdate_words :
    let d := dvJob 0 2 { number := 1 }
    let below := dvJob 1 4 { number := 1 }
    1 ∈ d.myReporters.1 ∧ 3 ∈ below.myReporters.1 ∧ below.verdictTarget.isSome = true ∧ d.verdictTarget = none ∧
    tget (after (.verdictUp (wordMsg 1 0 1) false) d).run.reports 1 = some (2 ^ 2 + fld 1 48) ∧
    (after (.verdictUp (wordMsg 3 0 1) true) below).run.upSent = true ∧
    (after (.verdictUp (wordMsg 1 0 1) true) d).run.take = none ∧ (after (.verdictDown (wordMsg 0 0 1)) below).run.take = none ∧
    (after (.verdictDown (wordMsg 0 0 2)) below).get Obj.verdictStaleDrops = 1 ∧
    (after (.verdictUp { wordMsg 1 0 1 with reserved := true } false) d).get Obj.msgStaleDrops = 1 ∧
    (1, 0) ∈ (after (.verdictUp (wordMsg 1 0 1) false) d).net.accepted := by decide +kernel

/-- A device whose Lapidary 0 has the update of take 1 for layer 5 before it. -/
def dvUpdate (fs : List (Nat × Nat)) (r : Run) : Device :=
  { dv with run := { r with layers := [layerOf fs], groups := [2], updates := [(0, 5, 1)], contexts := [{ take := 1, cg := 0, groups := [{}] }] } }

theorem witness_TakesEndAndLayersUpdate_update :
    let e := layerOf []
    let d := dvUpdate [] {}
    let moves := { d with run := { d.run with groups := [0] } }
    let full := { withObject d 12 { tier := 3, kind := 1, size := 1, compressed := true } with ms := { (withObject d 12 { tier := 3, kind := 1, size := 1, compressed := true }).ms with sectorsA := 0 } }
    d.dueEntry 0 = some (e, 1) ∧ Le.layer e = 5 ∧ d.lapidaryLives 0 = true ∧ d.layerBlocked e = false ∧ d.lapidaryPaused 0 1 = false ∧
    d.layerGrowth e ≤ d.slowFree 0 ∧ Ge.frozen (d.groupOf (Le.group e)) = true ∧ d.scalesMove e = false ∧
    Ge.frozen (moves.groupOf (Le.group e)) = false ∧ d.layerMarked e = none ∧ full.slowFree 0 < full.layerGrowth e ∧
    (after (.layerUpdate ⟨0, []⟩) d).run.updates = [] ∧ (after (.layerUpdate ⟨0, []⟩) d).get Obj.layerUpdatesA = 1 ∧
    (after (.layerUpdate ⟨0, []⟩) full).get Obj.spaceWaits = 1 ∧ dv.dueEntry 0 = none := by decide +kernel

theorem witness_TakesEndAndLayersUpdate_publish :
    let d := dvUpdate [] { writing := [5] }
    let four : List Version := [{ take := 1, objs := [] }, { take := 2, objs := [] }, { take := 3, objs := [] }, { take := 4, objs := [] }]
    let pin : Nat → Stream := fun n => { desc := 0, pins := [(5, n)] }
    let held := { d with versions := [(5, four)], streams := [(2, pin 2), (3, pin 3), (4, pin 4)] }
    (d.makeWay (layerOf [])).isSome = true ∧ held.makeWay (layerOf []) = none ∧ held.run.pinWait = [] ∧
    (after (.workingCopyPublish 0) held).get Obj.pinnedVersionWaits = 1 := by decide +kernel

theorem witness_CommandsLeaveOtherPartsAlone_engines (d : Device) :
    exec (.inputSampleTake 3) (st d) = .next (st (after (.inputSampleTake 3) d)) := rfl

theorem witness_CommandsLeaveOtherPartsAlone_object :
    let d := dvInput false 4
    0 < d.get Obj.statsSlots ∧ d.get Obj.statsSlots * d.slotBytes ≤ 2 ^ 32 ∧ 7 ≠ d.get Obj.statsObject := by decide +kernel

/-- The core of stage 3 idle, its unit with another stage of the core, whose operations are done or stand ready. -/
def dvUnit (x y : Stage) (u : IssueUnit) : Device :=
  { dvOp { x with version := some 0 } with stages := [(3, { x with version := some 0 }), (4, y)], issue := [(0, u)] }

theorem witness_ForwardWorkFollowsItsRules_unit :
    let x := fwdStage [] fwdCodes
    let y := { fwdStage [] fwdCodes with version := some 0, pos := 1 }
    let rests : Stage := { desc := engineDesc [], pos := 1 }
    let mine := dvUnit x rests { holder := some 3 }
    let his := dvUnit x y { holder := some 4 }
    let free := dvUnit x rests { holder := some 4 }
    let g := fun (d : Device) => (d.atGate 3 { x with version := some 0 } fwdCodes).2
    (mine.unitOf 0).holder = some 3 ∧ ((g mine).readyOn 0).map (·.1) = [3] ∧
    (tget (after (.fwdTileOpIssue 3 0 0) mine).stages 3).map (·.op) = some (some (0, 0)) ∧
    ((g his).readyOn 0).any (fun r => (his.unitOf 0).holder == some r.1) = true ∧
    (tget (after (.fwdTileOpIssue 3 0 0) his).stages 3).map (·.op) = some none ∧
    ((g free).readyOn 0).any (fun r => (free.unitOf 0).holder == some r.1) = false ∧ (g free).nextHolder 0 = some 3 ∧
    ((after (.fwdTileOpIssue 3 0 0) free).unitOf 0).holder = some 3 := by decide +kernel

theorem witness_ForwardWorkFollowsItsRules_parks :
    let v := fwdStage [(42, 1), (1344, 21)] { fwdRows with rows := [] }
    let o := programObject v.desc
    let op := { fwdStage [] fwdCodes with op := some (0, 0) }
    let bad := withObject (dvOp op) 8 { fastObject 0 with poisoned := true }
    let stopped : Device := { dvOp op with pwr := { hold := true } }
    o.length ≤ 1 ∧ bad.marked (weightObjects bad op fwdCodes) = some 8 ∧
    (tget (after (.fwdTileOpComplete ⟨3, []⟩) bad).stages 3).map (·.state) = some .parked ∧
    stopped.coreStopped 0 = true ∧ stopped.halts op = true ∧ (after (.fwdTileOpComplete ⟨3, []⟩) stopped) = stopped := by
  decide +kernel

theorem witness_ForwardWorkFollowsItsRules_turn :
    let w := { fwdRows with input2 := [[0x3F800000], [0x3F000000]] }
    let x := fwdStage [(42, 2), (512, 2)] w
    let far := { x with core := 1 }
    let d := { dvEngine x [] with stages := [(3, x), (5, far)] }
    let next := { d with sideLast := [(0, 0)] }
    d.sideTurn 0 = some 0 ∧ next.sideTurn 0 = some 1 ∧ fwdOf (after (.sideTileOpComplete 3 0 0) next) 3 = some w ∧
    (after (.sideTileOpComplete 3 0 0) next).get Obj.fwdOperations = 0 ∧
    (after (.sideTileOpComplete 3 0 0) { d with issue := [(0, { holder := some 3 })] }).get Obj.fwdOperations = 1 := by decide +kernel

theorem witness_ForwardWorkFollowsItsRules_dailies_skip :
    let x := { fwdStage [] fwdRows with dailies := [(0, [0x40000000, 0xC0800000], [0x3F800000])] }
    let d := dvEngine x []
    let bad := { withObject d 12 { fastObject 1 with poisoned := true } with run := { d.run with layers := [layerOf []] } }
    let moving := { withObject d 12 { fastObject 1 with move := .crossing } with run := { d.run with layers := [layerOf []] } }
    bad.masterOf 5 = 12 ∧ bad.dailyWants x = true ∧ moving.dailyWants x = false ∧ bad.masterBad 12 = true ∧
    (after (.dailiesReferenceComplete 3) bad).run.take.map (fun k => (k.tiles, k.skipped)) = some (0, 1) ∧
    (after (.dailiesReferenceComplete 3) moving) = moving := by decide +kernel

theorem witness_BackwardWorkFollowsItsRules_refuses :
    let fs := [(0xB0 * 8 + 128, 6), (0xB0 * 8 + 160, 2 ^ 96 - 1), (0xB0 * 8, 2 ^ 128 - 1)]
    let g : GradIn := { sender := 4, seq := 0, take := 1, tag := 1, count := 0, rows := [[0], [0]], sides := gradSides 1 [[0], [0]] }
    let x := bwdStage fs { desc := 0, gradIn := [g] }
    let d := dvBwd x
    d.nextGrad 3 x = some [g] ∧ d.halts x = false ∧ x.stashLost.contains 0 = false ∧ d.anchorBelow x 0 = none ∧
    g.refused = [0, 1] ∧ (tget d.stages g.sender).map (fun y => Desc.bwdMode y.desc) = some 0 ∧
    (after (.gradientLineReceive 3) d).get Obj.scaleSkewCount = 2 := by decide +kernel

theorem witness_BackwardWorkFollowsItsRules_waits :
    let x := bwdStage [(0xB0 * 8, 2 ^ 256 - 1), (0xB0 * 8, 0)] { desc := 0, bwd := some bwdWaits, stash := [(0, [[0, 0], [0, 0]])] }
    let a := { x with anchor := true }
    let d : Device := { dvBwd x with issue := [(0, { holder := some 3 })] }
    d.halts x = false ∧ d.recomputeReady 3 x = true ∧ (d.unitOf 0).holder = some 3 ∧ bwdWaits.sent = false ∧
    d.recomputeReady 3 a = false ∧ a.stashes 0 = true ∧ x.stashes 0 = false ∧ d.itemsFirst 0 = false := by decide +kernel

theorem witness_BackwardWorkFollowsItsRules_pushes : Unpushing dv 0 := by
  intro p hp
  cases hp

theorem witness_BackwardWorkFollowsItsRules_sends :
    let lower : Stage := { desc := engineDesc [] }
    let x := bwdStage [] { desc := 0, bwd := some { bwdReadyW with done := [(0, 1)] }, origins := [(0, [4])], bwdCount := 66 }
    let d : Device := { dvBwd x with scaleRegs := [(0, (ScaleWord.mk 0x3F800000 0 0 0x17 0).toNat)],
                                     issue := [(0, { holder := some 3 })] }
    tgetD x.origins 0 [] = [4] ∧ (tget d.stages 4).isSome = true ∧ x.itemCount ≤ bwdReadyW.pushed ∧ lower.bwd = none ∧
    (tget (after (.igradTileOpComplete 3 0 0) d).stages 4).map (fun z => z.gradIn.map (fun l => (l.sender, l.seq, l.tag))) =
      some [(3, 0, 2)] ∧ bwdOf (after (.igradTileOpComplete 3 0 0) d) 3 = none := by decide +kernel

theorem witness_TakesEndAndLayersUpdate_stops :
    let d := dvUpdate [] {}
    let w := dvUpdate [] { writing := [5] }
    let bad := fun (d : Device) (lost : Bool) => withObject d 12 { fastObject 1 with poisoned := true, lost := lost }
    (bad d false).layerMarked (layerOf []) = some 12 ∧ (bad w false).layerMarked (layerOf []) = some 12 ∧
    (after (.layerUpdate ⟨0, []⟩) (bad d false)).ms.waiters = [(12, .lapidary 0)] ∧
    (after (.workingCopyPublish 0) (bad w false)).ms.waiters = [(12, .lapidary 0)] ∧
    (after (.layerUpdate ⟨0, []⟩) (bad d false)).get Obj.faultsPoisoned = 1 ∧
    (bad d true).layerMarked (layerOf []) = some 12 ∧ (after (.workingCopyPublish 0) (bad w true)) = bad w true ∧
    w.run.contexts.find? (fun c => c.take == 1) = some { take := 1, cg := 0, groups := [{}] } := by decide +kernel

theorem witness_TakesEndAndLayersUpdate_publishes :
    let d := dvUpdate [] { writing := [5] }
    let moves := { dvUpdate [] {} with run := { (dvUpdate [] {}).run with groups := [0] } }
    d.layerMarked (layerOf []) = none ∧ d.lapidaryLives 0 = true ∧ d.pwr.hold = false ∧ (layerOf []) % 2 ^ 32 = 5 ∧
    moves.dueEntry 0 = some (layerOf [], 1) ∧ Ge.frozen (moves.groupOf 0) = false ∧ moves.layerMarked (layerOf []) = none ∧
    moves.layerGrowth (layerOf []) ≤ moves.slowFree 0 ∧
    ((tgetD (after (.workingCopyPublish 0) d).versions 5 []).head?.map (·.take)) = some 1 := by decide +kernel

/-- Training samples and samples no serving loss or dead core can end are not halted, trapped or lost. -/
theorem witness_ForwardWorkFollowsItsRules_unended (d : Device) (cs : List Conv) (row : List Nat) :
    Unhalted d fwdRows cs ∧ Untrapped d fwdRows row ∧ Unlosing d 0 ∧ Unlosing (dvInput true 4) 2 :=
  ⟨Or.inl rfl, Or.inl rfl, Or.inl rfl, Or.inr (by decide +kernel)⟩

theorem witness_ForwardWorkFollowsItsRules_waits :
    let e : DirEntry := { fastObject 0 with tier := 3 }
    let d := withObject (dvInput false 4) 6 e
    (dvInput false 4).ready 6 = true ∧ d.ready 6 = false ∧ d.entry 6 = some e ∧ e.forbids 0 false true = false ∧
    d.failsAtOnce 6 e = false ∧ (tget (after (.inputSampleTake 3) d).stages 3).map (·.state) = some .parked ∧
    (after (.inputSampleTake 3) d).ms.waiters = [(6, .stage 3)] := by decide +kernel

theorem witness_BackwardWorkFollowsItsRules_stash :
    let x := bwdStage [(0xB0 * 8, 2 ^ 256 - 1), (1088, 8), (1824, 5)] { desc := 0, bwd := some bwdWaits, anchor := true, stash := [(0, [[0, 0], [0, 0]])] }
    let d := dvBwd x
    let there := withObject d 8 { fastObject 6 with tier := 3 }
    d.stashAsked 3 x = some (0, 1) ∧ Desc.stashDeadline x.desc ≠ 0 ∧ d.stashReady x = true ∧ there.stashReady x = false ∧
    (after (.stashDeadlineMiss 3) d) = d ∧ (after (.stashDeadlineMiss 3) there).get Obj.firstAnchorStalls = 1 ∧
    d.dataRo 8 = false ∧ dv.stashAsked 3 { desc := 0 } = none := by decide +kernel

theorem witness_BackwardWorkFollowsItsRules_units :
    let x := bwdStage [(0xB0 * 8, 7), (0xB0 * 8 + 32, 2 ^ 224 - 1)] { desc := 0, bwd := some bwdWaits, stash := [(0, [[0, 0], [0, 0]])] }
    let low : Stage := { desc := (bwdStage [(46, 1)] { desc := 0 }).desc - fld 5 64 + fld 7 64, core := 1 }
    let d : Device := { dvBwd x with stages := [(3, x), (5, low)] }
    let other : Stage := { fwdStage [] fwdCodes with core := 1, pos := 1, version := some 0 }
    let taken : Device := { d with stages := d.stages ++ [(6, other)], issue := [(1, { holder := some 6 })] }
    d.halts x = false ∧ d.rerun 0 2 3 = [5] ∧ d.recomputeReady 3 x = true ∧ d.unreadable (d.bwdObjects x bwdWaits) = none ∧
    (d.takeUnits 0 3).1 = true ∧ (after (.recomputePass 3) d).get Obj.recomputePasses = 1 ∧
    taken.recomputeReady 3 x = true ∧ (taken.takeUnits 0 3).1 = false ∧
    (after (.recomputePass 3) taken).get Obj.recomputePasses = 0 := by decide +kernel

theorem witness_TakesEndAndLayersUpdate_lives :
    let d := dvUpdate [] {}
    d.lapidaryOff 0 = false ∧ ({ d with pwr := { d.pwr with faulted := 4 } } : Device).lapidaryOff 0 = true ∧
    (dvJob 0 2 { number := 1 }).mayReport 1 = true ∧ (dvJob 0 2 { number := 1 }).mayReport 2 = false := by decide +kernel

end Sys2Proof.Machine
end

section
/-!
What a refused WRITE of POWER_REQUEST still does: `writeFollows` runs `idlingAnswer` after the response whatever its status, so
that while an entry to P3 stands at step 5 (R420) a refusal also ends the mailbox requests for P3 that wait.
-/
namespace Sys2Proof.Machine

/-- Order 2 of R348 for a WRITE with TYPE 0: the request is counted and answered RANGE. -/
theorem Device.dictWrite_typeZero {d : Device} (hs : d.ctl.serving = true) (rq : Req) (key : Nat) (value : Bytes) (eff : Effect) :
    d.dictWrite rq key 0 value eff = (d.served rq).answer rq Op.write key 0 (leNat value) St.range := by
  have hr : St.range ≠ St.frozen := by decide
  simp [Device.dictWrite, hs, Device.checkWrite, Device.refuse, hr]

/-- A WRITE of POWER_REQUEST ends in `idlingAnswer`, accepted or refused. -/
theorem Device.writeRequest_powerRequest (d : Device) (rq : Req) (type : Nat) (value : Bytes) :
    d.writeRequest rq 0x2030 1 type value =
      (d.dictWrite rq Obj.powerRequest type value (effectOf Obj.powerRequest)).idlingAnswer := rfl

/-- A WRITE of POWER_REQUEST with the reserved TYPE 0: `answerP3` runs behind its response where the device idles. -/
theorem exec_write_powerRequest_typeZero {s : State} {rq : Req} (hs : s.dev.ctl.serving = true) (hr : s.dev.reused rq = false)
    (value : Bytes) :
    exec (.write (.dict rq 0x2030 1 0) value) s = .next { s with
      dev := ((s.dev.served rq).answer rq Op.write Obj.powerRequest 0 (leNat value) St.range).idlingAnswer } := by
  rw [← Device.dictWrite_typeZero hs rq Obj.powerRequest value (effectOf Obj.powerRequest), ← Device.writeRequest_powerRequest]
  exact onReq_next _ hr

/-- A request for P3 of slot 0 of port 1, answered with PENDING. -/
def waitingP3 : Waiting :=
  { rq := ⟨.mailbox 1 0, false, 2⟩, op := Op.write, key := Obj.powerRequest, type := Ty.u8, arg := 3 }

/-- A device at step 5 of the entry to P3, its clocks running, with that request still waiting. -/
def idlingWithWaiter : State :=
  { dev := { ctl := { serving := true, waiting := [waitingP3], slots := [(slotKey 1 0, { state := .pending })] },
             pwr := { step := .idling } } }

/-- The requester of slot 0 of port 0. -/
def otherPort : Req := ⟨.mailbox 0 0, false, 1⟩

/-- The final response of the waiting request goes out behind the refusal: it is port 1 that is signalled last, and its slot
that is DONE. -/
theorem refusal_endsWaitingP3 :
    let e := ((idlingWithWaiter.dev.served otherPort).answer otherPort Op.write Obj.powerRequest 0 (leNat []) St.range).idlingAnswer
    e.out.head? = some (.msix 1 0) ∧ (e.slot 1 0).state = .done ∧ e.ctl.waiting = [] := by
  decide +kernel

/-- The refusal of that WRITE is not free of side effects. -/
theorem not_refused_powerRequest :
    ¬ Refused idlingWithWaiter (.write (.dict otherPort 0x2030 1 0) []) otherPort Op.write Obj.powerRequest 0 St.range := by
  rintro ⟨t, hexec, hanswered, -⟩
  rw [exec_write_powerRequest_typeZero rfl (by decide)] at hexec
  cases hexec
  obtain ⟨-, -, hlast⟩ := hanswered
  obtain ⟨hport1, -, -⟩ := refusal_endsWaitingP3
  exact absurd (hlast.symm.trans hport1) (by decide)

/-- Refutes O10: a WRITE of POWER_REQUEST with the reserved TYPE 0 from port 0 is answered RANGE, but in a state at step 5 of the
entry to P3 the same command also gives a P3 request that still waits on port 1 its final response. The statement excludes what
follows a refused write of RUN_CONTROL by a hypothesis and has none for POWER_REQUEST. It speaks of every state: no run from
reset to this one is claimed. -/
theorem not_requestsAreCheckedInOrder : ¬ Obligations.RequestsAreCheckedInOrder := by
  unfold Obligations.RequestsAreCheckedInOrder
  intro h
  obtain ⟨hreserved, -⟩ := h idlingWithWaiter otherPort 0x2030 1 0 rfl (by decide) (by decide) (by decide)
  obtain ⟨hwrite, -⟩ := hreserved (.inl rfl)
  exact not_refused_powerRequest (hwrite [])

end Sys2Proof.Machine
end

section
/-!
The host interface (chapter 13): what a write of a ring's count comes to (R386), by its own command and through BAR2 (R378), and
what the completion of a descriptor comes to (R379 to R383).
-/
namespace Sys2Proof.Machine

variable (d : Device)

/-! ### Storage behind a write that has landed (R256, R257) -/

@[simp] theorem Device.checkLowWater_mem (lap needed : Nat) : (d.checkLowWater lap needed).ms.mem = d.ms.mem := by
  unfold Device.checkLowWater
  by_cases hlap : lap = 0
  · simp only [hlap, if_true]
    split <;> simp
  · simp only [hlap, if_false]
    split <;> simp

@[simp] theorem Device.setMap_mem (h : Nat) (left : OreBlock → Bool) : (d.setMap h left).ms.mem = d.ms.mem := by
  unfold Device.setMap
  split
  · rfl
  · simp only []
    split <;> rfl

/-- Room taken anew moves no byte. -/
@[simp] theorem Device.restored_mem (h : Nat) : (d.restored h).ms.mem = d.ms.mem := by
  unfold Device.restored
  split
  · rfl
  · simp only []
    split
    · simp
    · rfl

/-- An object of the fast tier takes no room anew. -/
theorem Device.restored_of_fast {d : Device} {h : Nat} {e : DirEntry} (he : d.entry h = some e) (htier : e.tier = 2) :
    d.restored h = d := by
  simp [Device.restored, he, htier]

/-- The directory is part of the memory state. -/
theorem Device.entry_of_ms {d e : Device} (hms : d.ms = e.ms) (h : Nat) : d.entry h = e.entry h := by
  simp only [Device.entry, hms]

/-! ### Events do not depend on the run -/

theorem Device.evqSee_onRun (f : Run → Run) (q : Nat) : (d.onRun f).evqSee q = (d.evqSee q).onRun f := by
  have hevq : (d.onRun f).evq q = d.evq q := rfl
  unfold Device.evqSee
  simp only [hevq, Device.onRun_free, Device.onRun_evqs]
  split <;> rfl

theorem Device.evqWrite_onRun (f : Run → Run) (rec q : Nat) :
    (d.onRun f).evqWrite rec q = (d.evqWrite rec q).onRun f :=
  Device.evqSee_onRun { d with free := d.free + 1, evqs := tset d.evqs q (evqPush (Config.syncSeen d.free) rec (d.evq q)) } f q

theorem Device.evqWrites_onRun (f : Run → Run) (rec : Nat) (qs : List Nat) :
    qs.foldl (fun d q => d.evqWrite rec q) (d.onRun f) = (qs.foldl (fun d q => d.evqWrite rec q) d).onRun f := by
  induction qs generalizing d with
  | nil => rfl
  | cons q qs ih => rw [List.foldl_cons, List.foldl_cons, Device.evqWrite_onRun, ih]

theorem Device.raiseRec_onRun (f : Run → Run) (code rec : Nat) (scope : Option Nat) :
    (d.onRun f).raiseRec code rec scope = (d.raiseRec code rec scope).onRun f := by
  have hbump : (d.onRun f).bump Obj.eventsRaised = (d.bump Obj.eventsRaised).onRun f := rfl
  have hadmits : ((d.bump Obj.eventsRaised).onRun f).admits = (d.bump Obj.eventsRaised).admits := rfl
  unfold Device.raiseRec
  simp only [hbump, hadmits, Device.onRun_evqs]
  split
  · rfl
  · exact Device.evqWrites_onRun _ f rec _

/-- An event raised after a change of the run is the event raised before it. -/
theorem Device.raise_onRun (f : Run → Run) (code : Nat) (args : List (Nat × Nat)) :
    (d.onRun f).raise code args = (d.raise code args).onRun f :=
  Device.raiseRec_onRun d f code (eventRecord code 6 d.mono args false) none

theorem Device.raise_counts (code : Nat) (args : List (Nat × Nat)) :
    (d.raise code args).get Obj.eventsRaised = (d.get Obj.eventsRaised + 1) % 2 ^ 64 := Device.raiseRec_counts d _ _ _

/-! ### A count of a ring (R386) -/

/-- What each write of a PRODUCER count does first: the take checks the samples a replay has refused again (R388). -/
def Device.forgetsRefused : Device := d.onRun (fun r => { r with take := r.take.map (fun t => { t with held := [] }) })

@[simp] theorem Device.forgetsRefused_ms : d.forgetsRefused.ms = d.ms := rfl

@[simp] theorem Device.ringError_ms (h count : Nat) : (d.ringError h count).ms = d.ms := Device.raise_ms d _ _

theorem Device.ringError_counts (h count : Nat) :
    (d.ringError h count).get Obj.eventsRaised = (d.get Obj.eventsRaised + 1) % 2 ^ 64 := Device.raise_counts d _ _

theorem Device.ringError_forgetsRefused (h count : Nat) :
    d.forgetsRefused.ringError h count = (d.ringError h count).forgetsRefused := Device.raise_onRun d _ _ _

/-- A field written where an object's bytes land, its room taken anew behind it: those bytes change and no other. -/
theorem Device.writeNat_restored (h off n v : Nat) :
    ((d.writeNat h off n v).restored h).ms.mem = memWrite d.ms.mem (addrOf h off) (leBytes n v) ∧
    ∀ a, a < addrOf h off ∨ addrOf h off + n ≤ a →
      memGet ((d.writeNat h off n v).restored h).ms.mem a = memGet d.ms.mem a := by
  have hmem : ((d.writeNat h off n v).restored h).ms.mem = memWrite d.ms.mem (addrOf h off) (leBytes n v) :=
    Device.restored_mem _ h
  refine ⟨hmem, fun a ha => ?_⟩
  rw [hmem]
  exact memGet_memWrite_out _ _ _ (by rwa [leBytes_length])

variable {d} {p h count : Nat}

/-- A PRODUCER count that fits is written. -/
theorem Device.producerWrite_fits (hreach : d.countReaches p h = true) (hkind : d.ringKind h ≤ 1)
    (hlow : d.ringProducer h ≤ count) (hhigh : count ≤ d.ringConsumer h + d.ringEntries h) (hlt : count < 2 ^ 64) :
    d.producerWrite p h count = (d.forgetsRefused.writeNat h 16 8 count).restored h := by
  have hreach' : d.forgetsRefused.countReaches p h = true := hreach
  have hkind' : d.forgetsRefused.ringKind h ≤ 1 := hkind
  have hfits : ¬ (count < d.forgetsRefused.ringProducer h ∨
      d.forgetsRefused.ringConsumer h + d.forgetsRefused.ringEntries h < count ∨ 2 ^ 64 ≤ count) := by
    rintro (hback | hpast | hwide)
    · exact absurd hlow (Nat.not_le.mpr hback)
    · exact absurd hhigh (Nat.not_le.mpr hpast)
    · exact absurd hlt (Nat.not_lt.mpr hwide)
  unfold Device.producerWrite
  rw [← Device.forgetsRefused]
  simp only [hreach', hkind', hfits, decide_true, Bool.and_self, if_true, if_false]

/-- Any other PRODUCER count is ignored and raises RING_ERROR. -/
theorem Device.producerWrite_errs (hreach : d.countReaches p h = true) (hkind : d.ringKind h ≤ 1)
    (hout : count < d.ringProducer h ∨ d.ringConsumer h + d.ringEntries h < count) :
    d.producerWrite p h count = (d.ringError h count).forgetsRefused := by
  have hreach' : d.forgetsRefused.countReaches p h = true := hreach
  have hkind' : d.forgetsRefused.ringKind h ≤ 1 := hkind
  have hbad : count < d.forgetsRefused.ringProducer h ∨
      d.forgetsRefused.ringConsumer h + d.forgetsRefused.ringEntries h < count ∨ 2 ^ 64 ≤ count := hout.imp_right .inl
  unfold Device.producerWrite
  rw [← Device.forgetsRefused]
  simp only [hreach', hkind', hbad, decide_true, Bool.and_self, if_true, Device.ringError_forgetsRefused]

/-- A CONSUMER count that fits is written. -/
theorem Device.consumerWrite_fits (hreach : d.countReaches p h = true) (hkind : d.ringKind h = 2 ∨ d.ringKind h = 3)
    (hlow : d.ringConsumer h ≤ count) (hhigh : count ≤ d.ringProducer h) :
    d.consumerWrite p h count = (d.writeNat h 24 8 count).restored h := by
  simp [Device.consumerWrite, hreach, hkind, Nat.not_lt.mpr hlow, Nat.not_lt.mpr hhigh]

/-- Any other CONSUMER count is ignored and raises RING_ERROR. -/
theorem Device.consumerWrite_errs (hreach : d.countReaches p h = true) (hkind : d.ringKind h = 2 ∨ d.ringKind h = 3)
    (hout : count < d.ringConsumer h ∨ d.ringProducer h < count) :
    d.consumerWrite p h count = d.ringError h count := by
  simp [Device.consumerWrite, hreach, hkind, hout]

/-! ### A count through BAR2 (R378, R386) -/

variable {off at_ : Nat} {bs : Bytes} {e : DirEntry}

/-- Before a count is checked nothing but the run has changed, whichever count it is. -/
theorem Device.hostLand_count (hcount : d.isCount h off bs.length = true) :
    ∃ f : Run → Run, d.hostLand h off bs =
      if d.countFits h (leNat bs) then (d.onRun f).writeBytes h off bs else (d.onRun f).ringError h (leNat bs) := by
  unfold Device.hostLand
  rw [if_pos hcount]
  cases off == 16
  · exact ⟨id, rfl⟩
  · exact ⟨_, rfl⟩

/-- Bytes of a count that fits land. -/
theorem Device.hostLand_fits (hcount : d.isCount h off bs.length = true) (hfits : d.countFits h (leNat bs) = true) :
    (d.hostLand h off bs).ms.mem = memWrite d.ms.mem (addrOf h off) bs := by
  obtain ⟨f, hland⟩ := d.hostLand_count hcount
  rw [hland, if_pos hfits]
  rfl

/-- Bytes of any other count do not, and raise RING_ERROR. -/
theorem Device.hostLand_errs (hcount : d.isCount h off bs.length = true) (hfits : d.countFits h (leNat bs) = false) :
    ∃ f : Run → Run, d.hostLand h off bs = (d.ringError h (leNat bs)).onRun f := by
  obtain ⟨f, hland⟩ := d.hostLand_count hcount
  refine ⟨f, ?_⟩
  rw [hland, hfits]
  exact Device.raise_onRun d f _ _

/-- An object that needs no supply is neither poisoned, LOST nor being supplied. -/
theorem DirEntry.needsSupply_false (hsupply : e.needsSupply = false) :
    e.tier ≠ 1 ∧ e.poisoned = false ∧ e.lost = false ∧ e.move ≠ .resupply := by
  simpa [DirEntry.needsSupply, and_assoc] using hsupply

/-- A BAR2 write that no rule guards lands in an object that is whole, settled and answers. -/
theorem Device.bar2WriteAt_lands {a : Nat} (he : d.entry h = some e) (hro : e.hostRo = false)
    (hdenied : d.ringDenied p h = false) (hguard : d.guardedObject h = false) (hsupply : e.needsSupply = false)
    (hmove : e.move = .settled) (hanswers : d.answers e.tier = true) :
    d.bar2WriteAt p a h at_ bs = (d.hostLand h at_ bs).restored h := by
  obtain ⟨-, -, hlost, -⟩ := DirEntry.needsSupply_false hsupply
  simp [Device.bar2WriteAt, he, hro, hdenied, hguard, hsupply, hmove, hanswers, hlost]

/-- Bytes that are no count a port may set leave the memory and, in the fast tier, raise RING_ERROR alone. -/
theorem Device.hostLand_restored_errs (he : d.entry h = some e) (hcount : d.isCount h off bs.length = true)
    (hfits : d.countFits h (leNat bs) = false) :
    ((d.hostLand h off bs).restored h).ms.mem = d.ms.mem ∧
    (e.tier = 2 → ((d.hostLand h off bs).restored h).evqs = (d.ringError h (leNat bs)).evqs) := by
  obtain ⟨f, hland⟩ := Device.hostLand_errs hcount hfits
  have hms : ((d.ringError h (leNat bs)).onRun f).ms = d.ms := d.ringError_ms h (leNat bs)
  rw [hland]
  refine ⟨(Device.restored_mem _ h).trans (congrArg MemState.mem hms), fun htier => ?_⟩
  rw [Device.restored_of_fast ((Device.entry_of_ms hms h).trans he) htier]
  rfl

/-- No serving sample is admitted from an entry the count does not cover. -/
theorem Device.admitSample_uncovered {n : Nat} {x : Stream} (hx : tget d.streams n = some x)
    (hcover : d.ringProducer x.inRing ≤ d.ringConsumer x.inRing + x.samples.length) : d.admitSample n = d := by
  simp [Device.admitSample, hx, hcover]

/-! ### The commands -/

theorem exec_ringProducer (p h count : Nat) (s : State) :
    exec (.ringProducer p h count) s = .next { s with dev := s.dev.producerWrite p h count } := rfl

theorem exec_ringConsumer (p h count : Nat) (s : State) :
    exec (.ringConsumer p h count) s = .next { s with dev := s.dev.consumerWrite p h count } := rfl

theorem exec_bar2Write (p a off : Nat) (bs : Bytes) (s : State) :
    exec (.bar2Write p a off bs) s = .next { s with dev := s.dev.bar2Write p a off bs } := rfl

theorem exec_servingSampleAdmission (n : Nat) (s : State) :
    exec (.servingSampleAdmission n) s = .next { s with dev := s.dev.admitSample n } := rfl

/-- PRODUCER 5 of an input ring of 16 entries, its CONSUMER 3, written through an aperture: 19 fits and lands, 20 passes
CONSUMER + N and is ignored. -/
theorem witness_ringCountsMoveForward_bar2 :
    let d := (dvWindow 6 (fastObject 0)).writeBytes 6 0 (ringHead 0 4 5 3)
    bits (d.aperture 0 1) 0 32 = 6 ∧ bits (d.aperture 0 1) 64 64 = 0 ∧ d.bar2Bad 0 1 16 8 true = false ∧
    d.entry 6 = some (fastObject 0) ∧ (fastObject 0).hostRo = false ∧ d.ringDenied 0 6 = false ∧ d.guardedObject 6 = false ∧
    (fastObject 0).needsSupply = false ∧ (fastObject 0).move = .settled ∧ d.answers (fastObject 0).tier = true ∧
    d.isCount 6 16 8 = true ∧ d.countFits 6 19 = true ∧ d.countFits 6 20 = false ∧
    (after (.bar2Write 0 1 16 (leBytes 8 19)) d).ringProducer 6 = 19 ∧
    (after (.bar2Write 0 1 16 (leBytes 8 20)) d).ringProducer 6 = 5 := by decide +kernel

/-- Settles O56: a count is checked against the ring's header before anything is written, nothing but the run changes before the
check, and room taken anew behind it moves no byte; the serving admission compares PRODUCER with the entries it already holds. -/
theorem ringCountsMoveForward : Obligations.RingCountsMoveForward := by
  unfold Obligations.RingCountsMoveForward
  refine ⟨fun s p h count hreach => ⟨?_, ?_, ?_, ?_⟩, ?_, ?_⟩
  · intro hkind hlow hhigh hlt
    refine ⟨_, exec_ringProducer p h count s, ?_⟩
    rw [Device.producerWrite_fits hreach hkind hlow hhigh hlt]
    exact s.dev.forgetsRefused.writeNat_restored h 16 8 count
  · intro hkind hout
    refine ⟨_, exec_ringProducer p h count s, ?_⟩
    rw [Device.producerWrite_errs hreach hkind hout]
    exact ⟨s.dev.ringError_ms h count, rfl, s.dev.ringError_counts h count⟩
  · intro hkind hlow hhigh
    refine ⟨_, exec_ringConsumer p h count s, ?_⟩
    rw [Device.consumerWrite_fits hreach hkind hlow hhigh]
    exact s.dev.writeNat_restored h 24 8 count
  · intro hkind hout
    refine ⟨_, exec_ringConsumer p h count s, ?_⟩
    rw [Device.consumerWrite_errs hreach hkind hout]
    exact ⟨s.dev.ringError_ms h count, rfl, s.dev.ringError_counts h count⟩
  · intro s p a off bs e _ _ h at_ hbad he hro hdenied hguard hsupply hmove hanswers hcount
    have hwrite : s.dev.bar2Write p a off bs = (s.dev.hostLand h at_ bs).restored h := by
      unfold Device.bar2Write
      rw [hbad]
      exact Device.bar2WriteAt_lands he hro hdenied hguard hsupply hmove hanswers
    refine ⟨_, exec_bar2Write p a off bs s, ?_⟩
    rw [hwrite]
    exact ⟨fun hfits => (Device.restored_mem _ h).trans (Device.hostLand_fits hcount hfits),
      Device.hostLand_restored_errs he hcount⟩
  · intro s n x hx hcover
    rw [exec_servingSampleAdmission, Device.admitSample_uncovered hx hcover]

end Sys2Proof.Machine
end

section
/-!
The DMA queues (R379 to R383): what enabling a queue leaves, and what the completion of its oldest descriptor in progress writes.
-/
namespace Sys2Proof.Machine

variable (d : Device)

/-! ### A queue changed -/

@[simp] theorem Device.onDmaq_ms (p n : Nat) (f : DmaQueue → DmaQueue) : (d.onDmaq p n f).ms = d.ms := rfl

@[simp] theorem Device.onDmaq_out (p n : Nat) (f : DmaQueue → DmaQueue) : (d.onDmaq p n f).out = d.out := rfl

@[simp] theorem Device.dmaq_onDmaq_same (p n : Nat) (f : DmaQueue → DmaQueue) :
    (d.onDmaq p n f).dmaq p n = f (d.dmaq p n) := by
  simp [Device.dmaq, Device.onDmaq, Device.port]

/-- Only what the change makes of the queue that stands there counts. -/
theorem Device.onDmaq_congr {d : Device} {p n : Nat} {f g : DmaQueue → DmaQueue} (h : f (d.dmaq p n) = g (d.dmaq p n)) :
    d.onDmaq p n f = d.onDmaq p n g := by
  have hq : f (tgetD (d.port p).queues n { vector := 64 + n }) = g (tgetD (d.port p).queues n { vector := 64 + n }) := h
  simp only [Device.onDmaq, Device.onPort, hq]

@[simp] theorem Device.dmaq_emit (o : Out) (p n : Nat) : (d.emit o).dmaq p n = d.dmaq p n := rfl

/-! A vector signalled where a condition holds is the only thing sent, and changes nothing else. -/

@[simp] theorem Device.signalledIf_dmaq (c : Bool) (port vector p n : Nat) :
    (d.onlyIf c (·.msix port vector)).dmaq p n = d.dmaq p n := by cases c <;> rfl

@[simp] theorem Device.signalledIf_ms (c : Bool) (port vector : Nat) : (d.onlyIf c (·.msix port vector)).ms = d.ms := by
  cases c <;> rfl

@[simp] theorem Device.signalledIf_out (c : Bool) (port vector : Nat) :
    (d.onlyIf c (·.msix port vector)).out = (if c then [.msix port vector] else []) ++ d.out := by cases c <;> rfl

theorem dmaExists_iff (p n : Nat) : dmaExists p n = true ↔ p ≤ 1 ∧ n < 64 := by simp [dmaExists]

/-! ### Enabling (R379) -/

theorem bit_setBit_same (v i : Nat) : bit (setBit v i) i = true := by simp [bit, setBit]

/-- ENABLE set starts a queue that does not run from the ring's first entry, PHASE 1 and nothing in progress. -/
theorem dmaControl_starts {v : Nat} {q : DmaQueue} (hok : dmaControlOk v = true) (henable : bit v 0 = true)
    (hidle : q.state ≠ .running) :
    (dmaControl v q).phase = true ∧ (dmaControl v q).cqTail = 0 ∧ (dmaControl v q).taken = [] := by
  unfold dmaControl
  cases hstate : q.state with
  | running => exact absurd hstate hidle
  | disabled | stopped => simp [hok, henable]

/-! ### Completions (R381 to R383) -/

/-- No descriptor posted has a reserved OP: none is taken without a command. -/
theorem Device.takeReserved_none {d : Device} {p n : Nat} (hops : ∀ x ∈ (d.dmaq p n).posted, descOp x ≤ 3) (k : Nat) :
    d.takeReserved p n k = d := by
  cases k with
  | zero => rfl
  | succ k =>
    unfold Device.takeReserved
    cases hposted : (d.dmaq p n).posted with
    | nil => simp [hposted]
    | cons x rest =>
      have hop : descOp x ≤ 3 := hops x (by simp [hposted])
      simp [hposted, Nat.not_lt.mpr hop]

/-- A queue once its oldest descriptor in progress has its completion written. -/
def DmaQueue.completed (q : DmaQueue) (more : List Taken) : DmaQueue :=
  { q with
    taken := more
    cqTail := (q.cqTail + 1) % 2 ^ q.sizeLog2
    cqUsed := q.cqUsed + 1
    phase := if q.cqTail + 1 == 2 ^ q.sizeLog2 then !q.phase else q.phase
    state := if q.draining && more.isEmpty then .disabled else q.state
    draining := q.draining && !more.isEmpty }

/-- The completion record on its way to the host's ring. -/
def DmaQueue.record (q : DmaQueue) (p st : Nat) (y : Taken) : Out :=
  .hostWrite p (q.cqBase + 16 * q.cqTail) false (leBytes 16 (completion y st q.phase))

/-- The oldest descriptor in progress that has its status completes: its record goes out, the queue moves on, and its vector is
signalled where INTERRUPT is set. -/
theorem Device.descriptorComplete_eq {d : Device} {p n st : Nat} {y : Taken} {more : List Taken} (hp : p ≤ 1) (hn : n < 64)
    (htaken : (d.dmaq p n).taken = y :: more) (hstatus : y.status = some st)
    (hops : ∀ x ∈ (d.dmaq p n).posted, descOp x ≤ 3) :
    d.descriptorComplete p n =
      ((d.emit ((d.dmaq p n).record p st y)).onDmaq p n (·.completed more)).onlyIf (bit y.desc 5)
        (·.msix p (d.dmaq p n).vector) := by
  have hexists : dmaExists p n = true := (dmaExists_iff p n).mpr ⟨hp, hn⟩
  unfold Device.descriptorComplete
  simp only [hexists, Device.takeReserved_none hops, htaken, hstatus]
  rw [Device.onDmaq_congr (g := (·.completed more)) rfl]
  rfl

theorem exec_dmaQueueEnable (p n v : Nat) (s : State) :
    exec (.dmaQueueEnable p n v) s = .next { s with dev := s.dev.dmaControlWrite p n (setBit v 0) } := rfl

theorem exec_descriptorComplete (p n : Nat) (s : State) :
    exec (.descriptorComplete p n) s = .next { s with dev := s.dev.descriptorComplete p n } := rfl

/-- Settles O53: enabling sets PHASE, and the completion's record, the ring's turn and the end of a drain are those of the queue
before it. -/
theorem completionIsWrittenInRingOrder : Obligations.CompletionIsWrittenInRingOrder := by
  unfold Obligations.CompletionIsWrittenInRingOrder
  constructor
  · intro s p n v hp hn hok hidle
    have hwrite : s.dev.dmaControlWrite p n (setBit v 0) = s.dev.onDmaq p n (dmaControl (setBit v 0)) := by
      rw [Device.dmaControlWrite, if_pos ((dmaExists_iff p n).mpr ⟨hp, hn⟩)]
    refine ⟨_, exec_dmaQueueEnable p n v s, ?_⟩
    rw [hwrite, Device.dmaq_onDmaq_same]
    exact dmaControl_starts hok (bit_setBit_same v 0) hidle
  · intro s p n st y more hp hn htaken hstatus hops
    refine ⟨_, exec_descriptorComplete p n s, ?_⟩
    rw [Device.descriptorComplete_eq hp hn htaken hstatus hops]
    simp only [Device.signalledIf_dmaq, Device.signalledIf_ms, Device.signalledIf_out, Device.dmaq_onDmaq_same,
      Device.dmaq_emit, Device.onDmaq_out, Device.onDmaq_ms, Device.emit_out, Device.emit_ms]
    refine ⟨rfl, rfl, ite_congr (propext beq_iff_eq) (fun _ => rfl) (fun _ => rfl), fun hdrain hlast => ?_, fun hdrain => ?_, rfl, trivial⟩
    · simp [DmaQueue.completed, hdrain, hlast]
    · simp [DmaQueue.completed, hdrain]

end Sys2Proof.Machine
end
